-- ==== Sys2Proof/Word.lean ====
section
/-!
DEFINITION. Sys2Proof/Word.lean: the word types of the machine (R2, R20).
-/

namespace Sys2Proof

/-- A byte of SRAM, HBM or host memory. -/
abbrev Byte := BitVec 8

/-- An IMEM word, and a 32-bit lane or element. -/
abbrev W32 := BitVec 32

/-- A scalar register. -/
abbrev W64 := BitVec 64

end Sys2Proof
end

