-- ==== Sys2Proof/Machine/Maps.lean ====
section
/-!
DEFINITION. Sys2Proof/Machine/Maps.lean: sparse tables held as plain data. A table is a list of (key, value) pairs with
strictly rising keys and no entry equal to what an unlisted key reads as, so that equal tables are equal lists. Memory is
the table of bytes; a set of numbers is the table of truth values.
-/

namespace Sys2Proof.Machine

/-- A table from numbers to values; an unlisted key reads as a default that each table's reader names. -/
abbrev FMap (α : Type) := List (Nat × α)

/-- Bytes by address (Host.Cell is the pair). -/
abbrev Mem := FMap (BitVec 8)

/-- A set of numbers. -/
abbrev NSet := FMap Bool

/-- The value at `k`, `d` if none is listed. -/
def FMap.get {α : Type} (d : α) : FMap α → Nat → α
  | [], _ => d
  | (k', v) :: r, k => if k' = k then v else FMap.get d r k

/-- The table without an entry at `k`. -/
def FMap.drop {α : Type} : FMap α → Nat → FMap α
  | [], _ => []
  | (k', v) :: r, k => if k' = k then FMap.drop r k else (k', v) :: FMap.drop r k

/-- The table with `v` listed at `k`, in its place by rising key. -/
def FMap.put {α : Type} : FMap α → Nat → α → FMap α
  | [], k, v => [(k, v)]
  | (k', v') :: r, k, v =>
    if k < k' then (k, v) :: (k', v') :: r
    else if k' = k then (k, v) :: r
    else (k', v') :: FMap.put r k v

/-- The table that reads `v` at `k`: a value equal to the default is not listed. -/
def FMap.set {α : Type} [DecidableEq α] (d : α) (m : FMap α) (k : Nat) (v : α) : FMap α :=
  if v = d then FMap.drop m k else FMap.put m k v

/-- Keys strictly above `lo` and strictly rising, no entry equal to the default. -/
def FMap.wfFrom {α : Type} [DecidableEq α] (d : α) : Nat → FMap α → Bool
  | _, [] => true
  | lo, (k, v) :: r => decide (lo ≤ k) && decide (v ≠ d) && FMap.wfFrom d (k + 1) r

/-- The canonical form of a table. -/
def FMap.wf {α : Type} [DecidableEq α] (d : α) (m : FMap α) : Bool := FMap.wfFrom d 0 m

/-- Membership in a set of numbers. -/
def NSet.mem (s : NSet) (k : Nat) : Bool := FMap.get false s k

/-- The set with `k`. -/
def NSet.add (s : NSet) (k : Nat) : NSet := FMap.set false s k true

/-- The set without `k`. -/
def NSet.del (s : NSet) (k : Nat) : NSet := FMap.set false s k false

/-- The set with every number of a list. -/
def NSet.addAll (s : NSet) (l : List Nat) : NSet := l.foldl NSet.add s

/-- The set without any number of a list. -/
def NSet.delAll (s : NSet) (l : List Nat) : NSet := l.foldl NSet.del s

/-- The canonical form of memory: what an unlisted byte reads as is 0. -/
abbrev Memory.wf (m : Mem) : Bool := FMap.wf 0 m

/-- One byte of memory; an unlisted byte reads 0. -/
def Mem.byte (m : Mem) (a : Nat) : BitVec 8 := FMap.get 0 m a

/-- One byte written. -/
def Mem.setByte (m : Mem) (a : Nat) (v : BitVec 8) : Mem := FMap.set 0 m a v

/-- `n` bytes from `a`, lowest address first. -/
def Mem.bytes (m : Mem) (a : Nat) : Nat → List (BitVec 8)
  | 0 => []
  | n + 1 => Mem.byte m a :: Mem.bytes m (a + 1) n

/-- The bytes of a list written from `a` upward. -/
def Mem.setBytes (m : Mem) (a : Nat) : List (BitVec 8) → Mem
  | [] => m
  | b :: r => Mem.setBytes (Mem.setByte m a b) (a + 1) r

/-- The unsigned number whose least significant byte stands first (R2). -/
def leNat : List (BitVec 8) → Nat
  | [] => 0
  | b :: r => b.toNat + 256 * leNat r

/-- The `n` bytes of a number, least significant first (R2). -/
def natLe : Nat → Nat → List (BitVec 8)
  | 0, _ => []
  | n + 1, v => BitVec.ofNat 8 v :: natLe n (v / 256)

/-- `n` bytes read as a little-endian number. -/
def Mem.le (m : Mem) (a n : Nat) : Nat := leNat (Mem.bytes m a n)

/-- A number written as `n` little-endian bytes. -/
def Mem.setLe (m : Mem) (a n v : Nat) : Mem := Mem.setBytes m a (natLe n v)

/-- Bits [hi:lo] of a number (R2). -/
def bits (x hi lo : Nat) : Nat := x / 2 ^ lo % 2 ^ (hi + 1 - lo)

/-- Bit n of a number (R2). -/
def bit (x n : Nat) : Bool := x / 2 ^ n % 2 == 1

/-- A truth value as a number. -/
def b2n (b : Bool) : Nat := if b then 1 else 0

/-- x[n-1:0] read as two's complement (R8, SignExtend), as an integer. -/
def sext (x n : Nat) : Int :=
  let y := x % 2 ^ n
  if n = 0 then 0 else if y < 2 ^ (n - 1) then (y : Int) else (y : Int) - (2 : Int) ^ n

/-- An integer kept modulo 2^n as a number. -/
def wrapN (n : Nat) (x : Int) : Nat := (x % (2 : Int) ^ n).toNat

/-- An integer kept modulo 2^64. -/
def w64 (x : Int) : BitVec 64 := BitVec.ofInt 64 x

/-- The elements of a list that stand at the positions a test accepts, with their positions. -/
def findIdx {α : Type} (f : α → Bool) : List α → Nat → Option (Nat × α)
  | [], _ => none
  | x :: r, k => if f x then some (k, x) else findIdx f r (k + 1)

/-- The list with the element at position `k` replaced. -/
def setAt {α : Type} : List α → Nat → α → List α
  | [], _, _ => []
  | _ :: r, 0, v => v :: r
  | x :: r, k + 1, v => x :: setAt r k v

/-- An element put before the first that is not smaller. -/
def insertBy {α : Type} (f : α → Nat) (x : α) : List α → List α
  | [] => [x]
  | y :: r => if f x ≤ f y then x :: y :: r else y :: insertBy f x r

/-- The list in ascending order, equal elements in the order they stand. -/
def sortBy {α : Type} (f : α → Nat) : List α → List α
  | [] => []
  | x :: r => insertBy f x (sortBy f r)

/-- The list without the element at position `k`. -/
def dropAt {α : Type} : List α → Nat → List α
  | [], _ => []
  | _ :: r, 0 => r
  | x :: r, k + 1 => x :: dropAt r k

/-- The element at position `k`, if there is one. -/
def elemAt {α : Type} : List α → Nat → Option α
  | [], _ => none
  | x :: _, 0 => some x
  | _ :: r, k + 1 => elemAt r k

end Sys2Proof.Machine
end

