-- ==== Sys2Proof/Syntax.lean ====
section
/-!
DEFINITION. Sys2Proof/Syntax.lean: the steps of the Staxia IV-432. `Instr` has one constructor per row of
spec/opcode_table.json: the instructions of the tile (R49 to R64) and the indivisible steps of the tile's
engines, of the tree, of the memory edge, of the pump house, of the links and of the host interface
(95_what_each_step_holds.md). An instruction carries the fields of its format (R45) as numbers; an immediate
is the signed value it stands for (R46). A step of an engine names the object it moves.
-/

namespace Sys2Proof

/-- Format R (R45): E, G, GN, the modifier bits of FN (`m`: W, message modifiers or ordering, as FN gives them), D, A, B. -/
structure R where
  e : Bool := true
  g : Nat := 0
  n : Bool := false
  m : Nat := 0
  d : Nat := 0
  a : Nat := 0
  b : Nat := 0
deriving DecidableEq, Repr

/-- Format I (R45): IMM9 is held as its signed value (R46). -/
structure I where
  e : Bool := true
  g : Nat := 0
  n : Bool := false
  d : Nat := 0
  a : Nat := 0
  imm : Int := 0
deriving DecidableEq, Repr

/-- Format I as MOVI uses it: the 14-bit immediate A:IMM9 (R46). -/
structure M where
  e : Bool := true
  g : Nat := 0
  n : Bool := false
  d : Nat := 0
  imm : Int := 0
deriving DecidableEq, Repr

/-- Format BR (R45): OFF19 in words. -/
structure Br where
  e : Bool := true
  g : Nat := 0
  n : Bool := false
  off : Int := 0
deriving DecidableEq, Repr

/-- Format BRG (R45): A and OFF14 in words. -/
structure Bg where
  e : Bool := true
  g : Nat := 0
  n : Bool := false
  a : Nat := 0
  off : Int := 0
deriving DecidableEq, Repr

/-- Format V (R45): the lane mask Q and the type T. -/
structure V where
  e : Bool := true
  q : Nat := 0
  t : Nat := 0
  d : Nat := 0
  a : Nat := 0
  b : Nat := 0
deriving DecidableEq, Repr

/-- Format X (R45): C4 names the accumulator; V3 is fixed by the row. -/
structure X where
  e : Bool := true
  g : Nat := 0
  n : Bool := false
  c : Nat := 0
  a : Nat := 0
  b : Nat := 0
deriving DecidableEq, Repr

/-- Format L (R45): a long form, with IMM32 as the unsigned word. -/
structure L where
  e : Bool := true
  g : Nat := 0
  n : Bool := false
  d : Nat := 0
  a : Nat := 0
  b : Nat := 0
  imm : Nat := 0
deriving DecidableEq, Repr

/-- A request in a firmware mailbox (R421): the function, REQ0's TOKEN, and the operand words. `zeros` is REQ0[31:16]; REQ1 is the bytes of
`ops` plus `low` (its bits [2:0]), and `high` in [63:11]: the three are zero in a request with no wrong length or zero field. -/
structure Mbx where
  func : Nat := 0
  tok : Nat := 0
  ops : List Nat := []
  zeros : Nat := 0
  low : Nat := 0
  high : Nat := 0
deriving DecidableEq, Repr

/-- A link packet (R392): the fields of its header, with the header's zero bits [31:30], [39:35] and [63:56] as `z0`, `z1`, `z2`, its flits and
its CRC. `req` is the model's own: the stamps of the memory requests whose flits the packet carries to another device. -/
structure LinkPkt where
  ty : Nat := 0
  seq : Nat := 0
  ack : Nat := 0
  vc : Nat := 0
  head : Nat := 0
  tail : Nat := 0
  credit : List Nat := []
  tstamp : Nat := 0
  flits : List Nat := []
  nflit : Nat := 0
  z0 : Nat := 0
  z1 : Nat := 0
  z2 : Nat := 0
  crc : Nat := 0
  req : List Nat := []
deriving DecidableEq, Repr

/-- What the 1 ms sample of a Welim port finds (R394): per physical lane (16 is S), corrected symbols, codeword
symbols sampled, eye margin in 0.1 % units; the codewords sampled and by lane the uncorrectable ones; and the lanes without signal or lock. -/
structure LaneSample where
  corr : List Nat := []
  total : Nat := 1
  margin : List Nat := []
  words : Nat := 1
  uncorr : List Nat := []
  lost : List Nat := []
deriving DecidableEq, Repr

/-- A training set (R400): the fields of its 40 bytes. -/
structure TrainSet where
  magic : Nat := 0x57544C53
  lane : Nat := 0
  phase : Nat := 0
  vers : Nat := 0
  chosen : Nat := 0
  rxok : Nat := 0
  width : Nat := 0
  smap : Nat := 0
  credit : List Nat := []
  ttx : Nat := 0
  techo : Nat := 0
  trxe : Nat := 0
  crc : Nat := 0
deriving DecidableEq, Repr

/-- A packet arriving at an Ultra Ethernet port (R404, R405): its destination identity and what it carries. `cls` is a
class of R208 (0 EAGER, 1 RTS, 2 CTS, 3 DATA, 5 reply, 7 a message of a schedule with its kind in `rkind`, its
identifier and chunk number) or 4 for a memory request. -/
structure UePkt where
  port : Nat := 0
  job : Nat := 0
  pid : Nat := 0
  cls : Nat := 0
  src : Nat := 0
  dst : Nat := 0
  grp : Nat := 0
  rank : Nat := 0
  tag : Nat := 0
  len : Nat := 0
  acc : Nat := 0
  off : Nat := 0
  rkind : Nat := 0
  handle : Nat := 0
  sdesc : Nat := 0
  va : Nat := 0
  op : Nat := 0
  num : Nat := 0
  chunk : Nat := 0
  resume : Bool := false
  payload : List (BitVec 8) := []
deriving DecidableEq, Repr

/-- A host access through the BAR2 aperture (R411). -/
structure HostAcc where
  func : Nat := 0
  slot : Nat := 0
  off : Nat := 0
  write : Bool := false
  data : List (BitVec 8) := []
  len : Nat := 0
deriving DecidableEq, Repr

/-- What the boot ROM finds in the module flash and in the stacks (R414, R415, R417): where the configuration table and the firmware image lie in
the flash (the spec does not say; log 60), the root keys under which they are signed, whether each of the four signatures verifies, and the image's
security version; the table's values: pump-house tiles by die, the role map (R367: for each role its primary and its standby service tile, each as
16·die + tile), the power ceiling, the ABI versions offered, and the lane thresholds of R394 (a symbol error ratio as a fraction, an eye margin in
0.1 % units), with `tableOk` for its other limits; and the healthy stacks and clusters. -/
structure BootIn where
  tableAt : Nat := 0
  tableLen : Nat := 0
  imageAt : Nat := 0
  imageLen : Nat := 0
  edKey : List (BitVec 8) := []
  mlKey : List (BitVec 8) := []
  edTable : Bool := true
  mlTable : Bool := true
  edImage : Bool := true
  mlImage : Bool := true
  version : Nat := 0
  tableOk : Bool := true
  widths : List Nat := [14, 4, 4, 4]
  healthy : Nat := 4095
  roles : List (Nat × Nat) := [(0, 1), (2, 3), (4, 5), (6, 7), (8, 9), (10, 11), (12, 13)]
  clusters : Nat := 2 ^ 132 - 1
  ceiling : Nat := 2200
  abi : Nat := 2
  laneErr : Nat × Nat := (1, 100000)
  laneMargin : Nat := 150
deriving DecidableEq, Repr

/-- The steps of the device, one constructor per row of spec/opcode_table.json. -/
inductive Instr where
  /-- ADD (R74): Adds two g registers; the W form adds 32-bit operands and sign-extends the result. -/
  | add (x : R)
  /-- SUB (R74): Subtracts g[B] from g[A]; the W form works on 32 bits. -/
  | sub (x : R)
  /-- AND (R74): Bitwise AND of two g registers. -/
  | and (x : R)
  /-- OR (R74): Bitwise OR of two g registers. -/
  | or (x : R)
  /-- XOR (R74): Bitwise XOR of two g registers. -/
  | xor (x : R)
  /-- ANDN (R74): g[A] AND NOT g[B]. -/
  | andn (x : R)
  /-- ORN (R74): g[A] OR NOT g[B]. -/
  | orn (x : R)
  /-- SLL (R74): Shifts g[A] left by the low bits of g[B]. -/
  | sll (x : R)
  /-- SRL (R74): Shifts g[A] right, zeros in. -/
  | srl (x : R)
  /-- SRA (R74): Shifts g[A] right, sign in. -/
  | sra (x : R)
  /-- ROR (R74): Rotates g[A] right. -/
  | ror (x : R)
  /-- MIN (R74): Signed minimum of two g registers. -/
  | min (x : R)
  /-- MAX (R74): Signed maximum of two g registers. -/
  | max (x : R)
  /-- MINN (R74): Unsigned minimum of two g registers. -/
  | minn (x : R)
  /-- MAXN (R74): Unsigned maximum of two g registers. -/
  | maxn (x : R)
  /-- CEQ (R75): Sets a predicate if two g registers are equal. -/
  | ceq (x : R)
  /-- CNE (R75): Sets a predicate if two g registers differ. -/
  | cne (x : R)
  /-- CLT (R75): Sets a predicate on signed less-than. -/
  | clt (x : R)
  /-- CLE (R75): Sets a predicate on signed less-or-equal. -/
  | cle (x : R)
  /-- CLTN (R75): Sets a predicate on unsigned less-than. -/
  | cltn (x : R)
  /-- CLEN (R75): Sets a predicate on unsigned less-or-equal. -/
  | clen (x : R)
  /-- PAND (R76): AND of two predicates. -/
  | pand (x : R)
  /-- POR (R76): OR of two predicates. -/
  | por (x : R)
  /-- PXOR (R76): XOR of two predicates. -/
  | pxor (x : R)
  /-- PANDN (R76): p[A] AND NOT p[B]. -/
  | pandn (x : R)
  /-- MOVP (R76): Copies a predicate into a g register as 0 or 1. -/
  | movp (x : R)
  /-- PMOVG (R76): Sets a predicate from whether a g register is non-zero. -/
  | pmovg (x : R)
  /-- EXT (R77): Extracts a bit field, zero-extended. -/
  | ext (x : R)
  /-- EXTS (R77): Extracts a bit field, sign-extended. -/
  | exts (x : R)
  /-- INS (R77): Inserts low bits of g[A] into a field of g[D]. -/
  | ins (x : R)
  /-- ADDI (R78): Adds a 9-bit signed immediate. -/
  | addi (x : I)
  /-- ANDI (R78): ANDs a sign-extended immediate. -/
  | andi (x : I)
  /-- ORI (R78): ORs a sign-extended immediate. -/
  | ori (x : I)
  /-- XORI (R78): XORs a sign-extended immediate. -/
  | xori (x : I)
  /-- SLLI (R78): Shifts left by an immediate amount 0–63. -/
  | slli (x : I)
  /-- SRLI (R78): Shifts right logically by an immediate amount. -/
  | srli (x : I)
  /-- SRAI (R78): Shifts right arithmetically by an immediate amount. -/
  | srai (x : I)
  /-- CEQI (R78): Sets a predicate if g[A] equals an immediate. -/
  | ceqi (x : I)
  /-- CNEI (R78): Sets a predicate if g[A] differs from an immediate. -/
  | cnei (x : I)
  /-- CLTI (R78): Signed less-than against an immediate. -/
  | clti (x : I)
  /-- CLEI (R78): Signed less-or-equal against an immediate. -/
  | clei (x : I)
  /-- CLTNI (R78): Unsigned less-than against an immediate. -/
  | cltni (x : I)
  /-- CLENI (R78): Unsigned less-or-equal against an immediate. -/
  | cleni (x : I)
  /-- ADDWI (R78): 32-bit add of an immediate, sign-extended. -/
  | addwi (x : I)
  /-- MOVI (R78): Loads a 14-bit signed immediate. -/
  | movi (x : M)
  /-- ADDI_L (R79): ADDI with a 32-bit immediate (XOP 0x10). -/
  | addiL (x : L)
  /-- ANDI_L (R79): ANDI with a 32-bit immediate. -/
  | andiL (x : L)
  /-- ORI_L (R79): ORI with a 32-bit immediate. -/
  | oriL (x : L)
  /-- XORI_L (R79): XORI with a 32-bit immediate. -/
  | xoriL (x : L)
  /-- SLLI_L (R79): SLLI with a 32-bit immediate amount. -/
  | slliL (x : L)
  /-- SRLI_L (R79): SRLI with a 32-bit immediate amount. -/
  | srliL (x : L)
  /-- SRAI_L (R79): SRAI with a 32-bit immediate amount. -/
  | sraiL (x : L)
  /-- CEQI_L (R79): CEQI with a 32-bit immediate. -/
  | ceqiL (x : L)
  /-- CNEI_L (R79): CNEI with a 32-bit immediate. -/
  | cneiL (x : L)
  /-- CLTI_L (R79): CLTI with a 32-bit immediate. -/
  | cltiL (x : L)
  /-- CLEI_L (R79): CLEI with a 32-bit immediate. -/
  | cleiL (x : L)
  /-- CLTNI_L (R79): CLTNI with a 32-bit immediate. -/
  | cltniL (x : L)
  /-- CLENI_L (R79): CLENI with a 32-bit immediate. -/
  | cleniL (x : L)
  /-- ADDWI_L (R79): ADDWI with a 32-bit immediate. -/
  | addwiL (x : L)
  /-- MOVI_L (R79): Loads a sign-extended 32-bit immediate. -/
  | moviL (x : L)
  /-- MOVHI_L (R79): Writes the upper half of g[D] from IMM32. -/
  | movhiL (x : L)
  /-- MUL (R81): Low part of the product. -/
  | mul (x : R)
  /-- MULH (R81): High part of the signed product. -/
  | mulh (x : R)
  /-- MULHN (R81): High part of the unsigned product. -/
  | mulhn (x : R)
  /-- DIV (R82): Signed division truncating toward zero, fixed results on edge cases. -/
  | div (x : R)
  /-- DIVN (R82): Unsigned division. -/
  | divn (x : R)
  /-- REM (R82): Signed remainder. -/
  | rem (x : R)
  /-- REMN (R82): Unsigned remainder. -/
  | remn (x : R)
  /-- MADD (R81): g[D] plus the product. -/
  | madd (x : R)
  /-- MSUB (R81): g[D] minus the product. -/
  | msub (x : R)
  /-- CLZ (R83): Counts leading zero bits. -/
  | clz (x : R)
  /-- CTZ (R83): Counts trailing zero bits. -/
  | ctz (x : R)
  /-- POPC (R83): Counts one bits. -/
  | popc (x : R)
  /-- BREV (R83): Reverses the bit order. -/
  | brev (x : R)
  /-- BSWAP (R83): Reverses the byte order. -/
  | bswap (x : R)
  /-- BR (R84): Branches by a 19-bit word offset. -/
  | br (x : Br)
  /-- CALL (R84): Branches by offset and writes the link to g1. -/
  | call (x : Br)
  /-- BZ (R84): Branches if g[A] is zero. -/
  | bz (x : Bg)
  /-- BNZ (R84): Branches if g[A] is non-zero. -/
  | bnz (x : Bg)
  /-- LOOP (R87): Sets up the hardware loop with count g[A] and last bundle at the offset. -/
  | loop (x : Bg)
  /-- BRR (R84): Branches to the address in g[A]. -/
  | brr (x : Bg)
  /-- CALLR (R84): Branches to g[A] and writes the link to g1. -/
  | callr (x : Bg)
  /-- RET (R84): Branches to g1. -/
  | ret (x : Bg)
  /-- LDB (R129): Loads a signed byte. -/
  | ldb (x : I)
  /-- LDBN (R129): Loads an unsigned byte. -/
  | ldbn (x : I)
  /-- LDH (R129): Loads a signed half-word. -/
  | ldh (x : I)
  /-- LDHN (R129): Loads an unsigned half-word. -/
  | ldhn (x : I)
  /-- LDW (R129): Loads a signed word, or one widened element through an element window. -/
  | ldw (x : I)
  /-- LDWN (R129): Loads an unsigned word, or one widened element zero-extended. -/
  | ldwn (x : I)
  /-- LDD (R129): Loads 8 bytes. -/
  | ldd (x : I)
  /-- STB (R129): Stores a byte. -/
  | stb (x : I)
  /-- STH (R129): Stores a half-word. -/
  | sth (x : I)
  /-- STW (R129): Stores a word, or encodes one element through an element window. -/
  | stw (x : I)
  /-- STD (R129): Stores 8 bytes. -/
  | std (x : I)
  /-- LDF (R130): Waits for the sector to be Full and loads 8 bytes. -/
  | ldf (x : I)
  /-- LDFC (R130): Waits for Full, loads 8 bytes and clears the full bit. -/
  | ldfc (x : I)
  /-- STF (R130): Stores 8 bytes and sets the sector Full. -/
  | stf (x : I)
  /-- FCLR (R130): Clears the sector's full bit. -/
  | fclr (x : I)
  /-- FSET (R130): Sets the sector's full bit. -/
  | fset (x : I)
  /-- LDB_L (R53): LDB with a 32-bit byte offset. -/
  | ldbL (x : L)
  /-- LDBN_L (R53): LDBN with a 32-bit byte offset. -/
  | ldbnL (x : L)
  /-- LDH_L (R53): LDH with a 32-bit byte offset. -/
  | ldhL (x : L)
  /-- LDHN_L (R53): LDHN with a 32-bit byte offset. -/
  | ldhnL (x : L)
  /-- LDW_L (R53): LDW with a 32-bit byte offset. -/
  | ldwL (x : L)
  /-- LDWN_L (R53): LDWN with a 32-bit byte offset. -/
  | ldwnL (x : L)
  /-- LDD_L (R53): LDD with a 32-bit byte offset. -/
  | lddL (x : L)
  /-- STB_L (R53): STB with a 32-bit byte offset. -/
  | stbL (x : L)
  /-- STH_L (R53): STH with a 32-bit byte offset. -/
  | sthL (x : L)
  /-- STW_L (R53): STW with a 32-bit byte offset. -/
  | stwL (x : L)
  /-- STD_L (R53): STD with a 32-bit byte offset. -/
  | stdL (x : L)
  /-- LDF_L (R53): LDF with a 32-bit byte offset. -/
  | ldfL (x : L)
  /-- LDFC_L (R53): LDFC with a 32-bit byte offset. -/
  | ldfcL (x : L)
  /-- STF_L (R53): STF with a 32-bit byte offset. -/
  | stfL (x : L)
  /-- FCLR_L (R53): FCLR with a 32-bit byte offset. -/
  | fclrL (x : L)
  /-- FSET_L (R53): FSET with a 32-bit byte offset. -/
  | fsetL (x : L)
  /-- FULL_WAIT_WAKE (R131): A bundle stalled in LDF, LDFC or VLDF completes once its sectors are Full. -/
  | fullWaitWake (p : Nat)
  /-- VLD (R132): Loads and widens 16 lanes through the window of the base address. -/
  | vld (x : V)
  /-- VST (R132): Encodes and stores 16 lanes through the window. -/
  | vst (x : V)
  /-- VLDB (R132): Loads one element into every selected lane. -/
  | vldb (x : V)
  /-- VLDS (R134): Strided vector load. -/
  | vlds (x : V)
  /-- VSTS (R134): Strided vector store. -/
  | vsts (x : V)
  /-- VLDX (R135): Indexed vector load. -/
  | vldx (x : V)
  /-- VSTX (R135): Indexed vector store. -/
  | vstx (x : V)
  /-- VLDT (R136): Loads a 16x16 block transposed into 16 registers. -/
  | vldt (x : V)
  /-- VSTT (R136): Stores 16 registers transposed as a 16x16 block. -/
  | vstt (x : V)
  /-- VLDF (R132): Waits for the data sectors to be Full and loads. -/
  | vldf (x : V)
  /-- VSPL (R139): Spills a vector register to a spill slot. -/
  | vspl (x : V)
  /-- VFIL (R139): Fills a vector register from a spill slot. -/
  | vfil (x : V)
  /-- VADD (R148): Element-wise add. -/
  | vadd (x : V)
  /-- VSUB (R148): Element-wise subtract. -/
  | vsub (x : V)
  /-- VMUL (R148): Element-wise multiply. -/
  | vmul (x : V)
  /-- VFMA (R148): Fused multiply-add into v[D]. -/
  | vfma (x : V)
  /-- VFMS (R148): Fused multiply-subtract from v[D]. -/
  | vfms (x : V)
  /-- VMIN (R148): Element-wise minimum. -/
  | vmin (x : V)
  /-- VMAX (R148): Element-wise maximum. -/
  | vmax (x : V)
  /-- VABS (R148): Element-wise absolute value. -/
  | vabs (x : V)
  /-- VNEG (R148): Element-wise negation. -/
  | vneg (x : V)
  /-- VAND (R148): Lane-wise AND. -/
  | vand (x : V)
  /-- VOR (R148): Lane-wise OR. -/
  | vor (x : V)
  /-- VXOR (R148): Lane-wise XOR. -/
  | vxor (x : V)
  /-- VANDN (R148): Lane-wise AND NOT. -/
  | vandn (x : V)
  /-- VSLL (R148): Element-wise shift left. -/
  | vsll (x : V)
  /-- VSRL (R148): Element-wise logical shift right. -/
  | vsrl (x : V)
  /-- VSRA (R148): Element-wise arithmetic shift right. -/
  | vsra (x : V)
  /-- VADDS (R148): Saturating add. -/
  | vadds (x : V)
  /-- VSUBS (R148): Saturating subtract. -/
  | vsubs (x : V)
  /-- VMULH (R148): High half of the element product. -/
  | vmulh (x : V)
  /-- VDOT4 (R151): Four-way 8-bit dot product accumulated into 32-bit lanes. -/
  | vdot4 (x : V)
  /-- VDOT2 (R151): Two-way 16-bit float dot product accumulated once-rounded into F32. -/
  | vdot2 (x : V)
  /-- VMULW (R152): Widening multiply into a register pair. -/
  | vmulw (x : V)
  /-- VCOPY (R148): Copies selected lanes. -/
  | vcopy (x : V)
  /-- VCVT (R119): Converts between element types. -/
  | vcvt (x : V)
  /-- VDIV (R153): Correctly rounded division. -/
  | vdiv (x : V)
  /-- VSQRT (R153): Correctly rounded square root. -/
  | vsqrt (x : V)
  /-- VRCP (R153): Correctly rounded reciprocal. -/
  | vrcp (x : V)
  /-- VRSQ (R153): Correctly rounded reciprocal square root. -/
  | vrsq (x : V)
  /-- VEXP2 (R156): Computes 2^x by the fixed algorithm. -/
  | vexp2 (x : V)
  /-- VLOG2 (R157): Computes log2 x by the fixed algorithm. -/
  | vlog2 (x : V)
  /-- VROUND (R155): Rounds to an integral value under the given mode. -/
  | vround (x : V)
  /-- VRSUM (R158): Sums selected lanes by the fixed tree into lane 0. -/
  | vrsum (x : V)
  /-- VRMAX (R158): Maximum of selected lanes by the fixed tree. -/
  | vrmax (x : V)
  /-- VRMIN (R158): Minimum of selected lanes by the fixed tree. -/
  | vrmin (x : V)
  /-- VSCALE (R155): Multiplies by 2^n, rounded once. -/
  | vscale (x : V)
  /-- VCLASS (R155): Writes a one-hot float class mask. -/
  | vclass (x : V)
  /-- VENC8 (R120): Encodes lanes into byte k through table t. -/
  | venc8 (x : V)
  /-- VDEC8 (R120): Decodes byte k of each lane through table t. -/
  | vdec8 (x : V)
  /-- VENC4 (R120): Encodes lanes into nibble k through table t. -/
  | venc4 (x : V)
  /-- VDEC4 (R120): Decodes nibble k of each lane through table t. -/
  | vdec4 (x : V)
  /-- VBSCL (R121): Applies the block-scale rule to lane groups, or returns the scale bytes. -/
  | vbscl (x : V)
  /-- VCEQ (R159): Lane compare equal into a lane mask. -/
  | vceq (x : V)
  /-- VCNE (R159): Lane compare not equal. -/
  | vcne (x : V)
  /-- VCLT (R159): Lane compare less-than. -/
  | vclt (x : V)
  /-- VCLE (R159): Lane compare less-or-equal. -/
  | vcle (x : V)
  /-- VCLTN (R159): Unsigned lane compare less-than. -/
  | vcltn (x : V)
  /-- VCLEN (R159): Unsigned lane compare less-or-equal. -/
  | vclen (x : V)
  /-- QAND (R160): AND of two lane masks. -/
  | qand (x : V)
  /-- QOR (R160): OR of two lane masks. -/
  | qor (x : V)
  /-- QXOR (R160): XOR of two lane masks. -/
  | qxor (x : V)
  /-- QANDN (R160): q[A] AND NOT q[B]. -/
  | qandn (x : V)
  /-- QMOVG (R160): Sets a lane mask from g[A][15:0]. -/
  | qmovg (x : V)
  /-- GMOVQ (R160): Copies a lane mask into a g register. -/
  | gmovq (x : V)
  /-- VSPLAT (R161): Broadcasts g[A] into every element of selected lanes. -/
  | vsplat (x : V)
  /-- VINS (R161): Inserts g[A] into one lane. -/
  | vins (x : V)
  /-- VEXT (R161): Extracts one lane into a g register. -/
  | vext (x : V)
  /-- VPERM (R161): Permutes lanes by indices in v[B]. -/
  | vperm (x : V)
  /-- VCOMPR (R162): Packs selected lanes to the bottom. -/
  | vcompr (x : V)
  /-- VSEL (R161): Selects each lane from v[A] or v[B] by the mask. -/
  | vsel (x : V)
  /-- VIOTA (R162): Writes base plus prefix counts of selected lanes. -/
  | viota (x : V)
  /-- QPOPC (R160): Counts the one bits of a lane mask. -/
  | qpopc (x : V)
  /-- MCFG (R171): Sets MK, MSA, MSB and MSD at once. -/
  | mcfg (x : X)
  /-- MCFG_L (R171): Sets K from IMM32 and MSA, MSB from registers. -/
  | mcfgL (x : L)
  /-- MMA (R173): Queues an accumulating matrix product. -/
  | mma (x : X)
  /-- MMAT (R173): Queues an accumulating product with B transposed. -/
  | mmat (x : X)
  /-- MMS (R173): Queues a subtracting matrix product. -/
  | mms (x : X)
  /-- MMST (R173): Queues a subtracting product with B transposed. -/
  | mmst (x : X)
  /-- MMAZ (R173): Queues a matrix product starting from zero. -/
  | mmaz (x : X)
  /-- MMAZT (R173): Zero-start product with B transposed. -/
  | mmazt (x : X)
  /-- MMSZ (R173): Zero-start negated product. -/
  | mmsz (x : X)
  /-- MMSZT (R173): Zero-start negated product with B transposed. -/
  | mmszt (x : X)
  /-- MZERO (R175): Queues zeroing of an accumulator. -/
  | mzero (x : X)
  /-- MLDAC (R175): Queues a raw load of an accumulator from SRAM. -/
  | mldac (x : X)
  /-- MLDACF (R175): Queues an accumulator load with its flag trailer. -/
  | mldacf (x : X)
  /-- MSTAC (R175): Queues a raw store of an accumulator. -/
  | mstac (x : X)
  /-- MSTACF (R175): Queues an accumulator store with its flag trailer. -/
  | mstacf (x : X)
  /-- MDRN (R176): Queues an encoded drain of an accumulator through a window. -/
  | mdrn (x : X)
  /-- MHAD (R178): Queues a Hadamard transform of an accumulator. -/
  | mhad (x : X)
  /-- MSCLC (R178): Queues column scaling of an accumulator. -/
  | msclc (x : X)
  /-- MADDR (R178): Queues adding a bias row to an accumulator. -/
  | maddr (x : X)
  /-- MRDF (R179): Waits for the accumulator's commands and reads ACCSTc. -/
  | mrdf (x : X)
  /-- MCLRF (R179): Queues clearing of the accumulator's sticky flags. -/
  | mclrf (x : X)
  /-- MWAIT (R180): Waits for all earlier matrix commands. -/
  | mwait (x : X)
  /-- MWAIT_AC (R180): Waits for the earlier commands that name one accumulator. -/
  | mwaitAc (x : X)
  /-- MJOB (R181): Closes the current matrix job, optionally naming a counter. -/
  | mjob (x : X)
  /-- MTSTJ (R181): Tests whether a matrix job has completed. -/
  | mtstj (x : X)
  /-- SEND (R202): Accepts a held send of a buffer to a peer. -/
  | send (x : R)
  /-- SENDE (R202): Accepts a send released at issue and makes the task Exposed. -/
  | sende (x : R)
  /-- RECV (R203): Posts a receive and returns its handle. -/
  | recv (x : R)
  /-- PROBE (R203): Reports the earliest compatible unexpected entry without consuming it. -/
  | probe (x : R)
  /-- RCANCEL (R204): Cancels a Posted receive. -/
  | rcancel (x : R)
  /-- RTEST (R205): Reads a receive's status or envelope without waiting. -/
  | rtest (x : R)
  /-- RWAIT (R205): Waits for a receive to end and reads its status or envelope. -/
  | rwait (x : R)
  /-- XCHG (R206): Posts a receive and accepts a send to the same peer and tag. -/
  | xchg (x : R)
  /-- SQUERY (R207): Snapshots the tile's messaging resources, optionally clearing the counts. -/
  | squery (x : R)
  /-- SENDV (R202): Sends the 64 bytes of a vector register eagerly. -/
  | sendv (x : R)
  /-- CSEND (R202): Firmware send on the control class. -/
  | csend (x : R)
  /-- RECVM (R203): Posts a receive with a 32-bit tag mask. -/
  | recvm (x : L)
  /-- PROBEM (R203): Probes with a 32-bit tag mask. -/
  | probem (x : L)
  /-- RECVM_FE (R203): Posts a masked receive that sets its sectors Full. -/
  | recvmFe (x : L)
  /-- TBIND (R232): Binds a task slot to a descriptor image. -/
  | tbind (x : R)
  /-- TARM (R233): Arms a counter and optionally clears its flags. -/
  | tarm (x : R)
  /-- TKICK (R234): Applies one decrement to a local counter. -/
  | tkick (x : R)
  /-- TSPAWN (R235): Pushes a ready record for a slot. -/
  | tspawn (x : R)
  /-- TEND (R236): Releases held sends, frees the running record and ends the task. -/
  | tend (x : R)
  /-- TCOMMIT (R236): Releases held sends and makes the task Exposed. -/
  | tcommit (x : R)
  /-- TYIELD (R236): Releases held sends and requeues the record at a continuation entry. -/
  | tyield (x : R)
  /-- TUNBIND (R232): Unbinds a task slot. -/
  | tunbind (x : R)
  /-- TSTAT (R237): Reads a counter, descriptor, queue or context snapshot. -/
  | tstat (x : R)
  /-- GRANK (R247): Returns the tile's rank in a group. -/
  | grank (x : R)
  /-- GSIZE (R247): Returns a group's size. -/
  | gsize (x : R)
  /-- GPLACE (R247): Resolves a rank of a group to a place. -/
  | gplace (x : R)
  /-- BARR (R262): Arrives at a barrier, the arrival held with the task's sends. -/
  | barr (x : R)
  /-- BBIND (R263): Binds a barrier record to a word and counter. -/
  | bbind (x : R)
  /-- BWAIT (R264): Waits until the barrier passes a generation. -/
  | bwait (x : R)
  /-- BCANCEL (R265): Sends a cancel for a barrier. -/
  | bcancel (x : R)
  /-- CRED (R334): Contributes to a tree reduction to a root. -/
  | cred (x : R)
  /-- CARED (R334): Contributes to a tree all-reduce. -/
  | cared (x : R)
  /-- CBCAST (R334): Takes part in a tree broadcast. -/
  | cbcast (x : R)
  /-- CSTART (R339): Gives a chunk schedule to the die collective engine. -/
  | cstart (x : R)
  /-- CABORT (R335): Aborts a running collective. -/
  | cabort (x : R)
  /-- KTRIG (R353): Triggers the kernel's dependants after earlier requests are performed. -/
  | ktrig (x : R)
  /-- KDONE (R353): Reports the tile's part of the kernel done after a fence. -/
  | kdone (x : R)
  /-- GET (R283): Copies bytes from a VA into local SRAM. -/
  | get (x : R)
  /-- PUT (R283): Copies local bytes to a VA. -/
  | put (x : R)
  /-- GETD (R283): Two-dimensional GET by descriptor. -/
  | getd (x : R)
  /-- PUTD (R283): Two-dimensional PUT by descriptor. -/
  | putd (x : R)
  /-- BMV (R286): Matrix-vector product at the cisterns. -/
  | bmv (x : R)
  /-- BMVT (R286): Transposed matrix-vector product at the cisterns. -/
  | bmvt (x : R)
  /-- BFENCE (R290): Fences bank compute over a VA range. -/
  | bfence (x : R)
  /-- FENCE (R285): Orders later network-interface traffic after earlier events at a scope. -/
  | fence (x : R)
  /-- PQRY (R291): Queries the page entry of a VA. -/
  | pqry (x : R)
  /-- GETI (R292): Loads code words from a VA into IMEM. -/
  | geti (x : R)
  /-- MAADD (R284): Fetch-and-add at the cistern. -/
  | maadd (x : R)
  /-- MAAND (R284): Fetch-and-AND at the cistern. -/
  | maand (x : R)
  /-- MAOR (R284): Fetch-and-OR at the cistern. -/
  | maor (x : R)
  /-- MAXOR (R284): Fetch-and-XOR at the cistern. -/
  | maxor (x : R)
  /-- MAMIN (R284): Fetch-and-signed-minimum at the cistern. -/
  | mamin (x : R)
  /-- MAMAX (R284): Fetch-and-signed-maximum at the cistern. -/
  | mamax (x : R)
  /-- MASWAP (R284): Atomic swap at the cistern. -/
  | maswap (x : R)
  /-- MACAS (R284): Atomic compare-and-swap at the cistern. -/
  | macas (x : R)
  /-- MAFADD (R284): Atomic FP32 add at the cistern. -/
  | mafadd (x : R)
  /-- MSADD (R284): Posted atomic add. -/
  | msadd (x : R)
  /-- MSMAX (R284): Posted atomic signed maximum. -/
  | msmax (x : R)
  /-- MFS (R89): Reads a system register. -/
  | mfs (x : R)
  /-- MTS (R89): Writes a system register under its access rules and limits. -/
  | mts (x : R)
  /-- TRAP (R91): Raises TRAPI with a 10-bit code. -/
  | trap (x : R)
  /-- WDSET (R117): Writes a window descriptor chosen by register and returns the old one. -/
  | wdset (x : R)
  /-- TLOAD (R118): Loads and validates a decode table from SRAM. -/
  | tload (x : R)
  /-- SLEEP (R93): Waits for a GTIME deadline or counter zero events. -/
  | sleep (x : R)
  /-- BKPT (R92): Raises BKPT. -/
  | bkpt (x : R)
  /-- YOKE (R312): Forms a yoke of consecutive tiles of the cluster. -/
  | yoke (x : R)
  /-- UNYOKE (R326): Ends a yoke, gathering registers into the leader. -/
  | unyoke (x : R)
  /-- AALLOT (R95): Changes the accumulator allotment. -/
  | aallot (x : R)
  /-- VALLOT (R95): Changes the vector register allotment. -/
  | vallot (x : R)
  /-- BLKH (R315): Block header with bundle count and g write mask. -/
  | blkh (x : L)
  /-- BLKV (R315): Block header extension with the v write mask. -/
  | blkv (x : L)
  /-- LAADD (R137): Local atomic add returning the old value. -/
  | laadd (x : R)
  /-- LAAND (R137): Local atomic AND. -/
  | laand (x : R)
  /-- LAOR (R137): Local atomic OR. -/
  | laor (x : R)
  /-- LAXOR (R137): Local atomic XOR. -/
  | laxor (x : R)
  /-- LAMIN (R137): Local atomic signed minimum. -/
  | lamin (x : R)
  /-- LAMAX (R137): Local atomic signed maximum. -/
  | lamax (x : R)
  /-- LAMINN (R137): Local atomic unsigned minimum. -/
  | laminn (x : R)
  /-- LAMAXN (R137): Local atomic unsigned maximum. -/
  | lamaxn (x : R)
  /-- LASWAP (R137): Local atomic swap. -/
  | laswap (x : R)
  /-- LACAS (R137): Local atomic compare-and-swap. -/
  | lacas (x : R)
  /-- VFLAGS_CLEAR (R89): An MTS to VFLAGS clears the sticky flags named by the mask (W1C). -/
  | vflagsClear (mask : Nat)
  /-- CAPS0_WRITE (R32): Sets the capability cursor that CAPS1-CAPS15 read through. -/
  | caps0Write (val : Nat)
  /-- WPC_HIT_CLEAR (R430): Writing 1 to WPCn.HIT clears the sticky hit bit. -/
  | wpcHitClear (n : Nat) (val : Nat)
  /-- TILE_UNGATE (R33): Power-up of a gated tile into Reset. -/
  | tileUngate (p : Nat)
  /-- TILE_RESET_COMPLETE (R35): Reset completes and the tile takes its reset values and becomes Idle. -/
  | tileResetComplete (p : Nat)
  /-- TASK_DISPATCH (R221): An Idle tile chooses a dispatchable record and starts its task. -/
  | taskDispatch (p : Nat)
  /-- BUDGET_EXPIRY (R225): The budget watchdog reaches BUDGET x 1,024 cycles and raises BUDGET. -/
  | budgetExpiry (p : Nat)
  /-- PAGER_RESTART (R228): The pager's RESTART answer makes a held record dispatchable with cause 3. -/
  | pagerRestart (p : Nat) (r : Nat) (a : Nat)
  /-- PAGER_KILL (R228): The pager's KILL answer frees a held record. -/
  | pagerKill (p : Nat) (r : Nat) (a : Nat)
  /-- IMEM_ECC_ERROR (R27): An uncorrectable IMEM fetch error raises ECC_LOCAL before the bundle. -/
  | imemEccError (p : Nat)
  /-- IMEM_REPAIR (R27): The pump house rewrites the IMEM block from the measured image, or kills the record. -/
  | imemRepair (p : Nat)
  /-- ECC_LOCAL (R25): A double-bit SRAM error found by a thread read is taken at the next bundle boundary and poisons the sector. -/
  | eccLocal (p : Nat)
  /-- TILE_UNRECOVERABLE_FAULT (R33): An unrecoverable tile fault makes the tile Faulted and faults the context. -/
  | tileUnrecoverableFault (p : Nat)
  /-- GATE_REQUEST (R34): A gate request waits for the trace buffer drain before powering off. -/
  | gateRequest (p : Nat)
  /-- FORCED_GATE (R34): After 20 us the gate is forced and remaining trace records are discarded. -/
  | forcedGate (p : Nat)
  /-- SLEEP_WAKE (R93): A sleeping task resumes on its deadline or a masked counter zero event. -/
  | sleepWake (p : Nat)
  /-- ALLOT_STALL_END (R96): An allotment change takes effect once the pipeline is quiet, moving spill slots. -/
  | allotStallEnd (p : Nat)
  /-- TLOAD_WAIT_END (R118): TLOAD proceeds once no matrix command uses the table. -/
  | tloadWaitEnd (p : Nat)
  /-- MATRIX_QUEUE_STALL_END (R167): A bundle with a queued X syllable issues once a held command completes. -/
  | matrixQueueStallEnd (p : Nat)
  /-- MMA_COMPLETE (R173): A queued product completes, updating the accumulator and ACCSTc. -/
  | mmaComplete (p : Nat)
  /-- MZERO_COMPLETE (R175): An accumulator is zeroed. -/
  | mzeroComplete (p : Nat)
  /-- MLDAC_COMPLETE (R175): An accumulator load from SRAM completes. -/
  | mldacComplete (p : Nat)
  /-- MSTAC_COMPLETE (R175): An accumulator store to SRAM completes, with poison and Full bits. -/
  | mstacComplete (p : Nat)
  /-- MDRN_COMPLETE (R177): A drain completes its encoded writes and then decrements its counter. -/
  | mdrnComplete (p : Nat)
  /-- MHAD_COMPLETE (R178): A Hadamard pass over an accumulator completes. -/
  | mhadComplete (p : Nat)
  /-- MSCLC_COMPLETE (R178): A column-scaling pass completes. -/
  | msclcComplete (p : Nat)
  /-- MADDR_COMPLETE (R178): A bias-add pass completes. -/
  | maddrComplete (p : Nat)
  /-- MCLRF_COMPLETE (R179): The sticky flags of an accumulator are cleared in queue order. -/
  | mclrfComplete (p : Nat)
  /-- JOB_COMPLETE (R181): All commands of a closed job have completed and its counter is decremented. -/
  | jobComplete (p : Nat)
  /-- MWAIT_RELEASE (R180): An MWAIT bundle completes once the covered commands have completed. -/
  | mwaitRelease (p : Nat)
  /-- MRDF_RELEASE (R179): An MRDF bundle completes once the accumulator's commands are done. -/
  | mrdfRelease (p : Nat)
  /-- EAGER_ARRIVAL (R191): An EAGER header matches a posted receive or is held in the trough or refused. -/
  | eagerArrival (n : Nat)
  /-- RTS_ARRIVAL (R192): An RTS matches and draws CTS, is held RTS-held with RACK, or is refused. -/
  | rtsArrival (n : Nat)
  /-- TROUGH_COPY_DONE (R191): A trough payload copy to a matched receive finishes and the cells are freed. -/
  | troughCopyDone (p : Nat) (k : Nat)
  /-- CTS_ARRIVAL (R199): The sender receives CTS and streams DATA packets. -/
  | ctsArrival (n : Nat)
  /-- DATA_ARRIVAL (R192): A DATA packet is written into the receive buffer. -/
  | dataArrival (n : Nat)
  /-- EACK_ARRIVAL (R196): EACK completes an eager send and decrements its counter. -/
  | eackArrival (n : Nat)
  /-- RACK_ARRIVAL (R199): RACK acknowledges an RTS held unexpected. -/
  | rackArrival (n : Nat)
  /-- DACK_ARRIVAL (R196): DACK completes a rendezvous send. -/
  | dackArrival (n : Nat)
  /-- POOL_FULL_ARRIVAL (R193): A sender receiving POOL_FULL blocks the destination and prepares resumption. -/
  | poolFullArrival (n : Nat)
  /-- RESUME_RETRY (R193): A refused RESUME RTS is sent again every 1 us. -/
  | resumeRetry (p : Nat) (d : Nat)
  /-- SEND_EMIT (R199): A released descriptor to an unblocked destination emits EAGER or RTS. -/
  | sendEmit (p : Nat) (k : Nat)
  /-- RANK_CACHE_FILL (R244): A rank-cache miss reads a list sector through a station and installs it. -/
  | rankCacheFill (p : Nat) (g : Nat) (r : Nat)
  /-- RWAIT_WAKE (R205): An RWAIT completes when its receive ends. -/
  | rwaitWake (p : Nat)
  /-- PACKET_PARK (R382): A packet for a non-resident context is parked in the overflow store with a scheduler trap. -/
  | packetPark (n : Nat)
  /-- OVERFLOW_STORE_GROW (R382): The pager adds a unit to a full overflow store or faults the context. -/
  | overflowStoreGrow (c : Nat)
  /-- SWITCH_PORT_PASS (R17): A switch port passes or discards a message by its membership bitmap. -/
  | switchPortPass (n : Nat)
  /-- GROUP_ENTRY_DRAINED (R243): A Releasing group entry drains and is unbound or rebound. -/
  | groupEntryDrained (c : Nat) (k : Nat)
  /-- GPLACE_RESOLVED (R247): A GPLACE stalled on a LISTED group completes when the list word arrives. -/
  | gplaceResolved (p : Nat)
  /-- BARRIER_ARRIVE_AT_SWITCH (R254): A switch counts a barrier arrival and passes one upward or issues the release. -/
  | barrierArriveAtSwitch (n : Nat)
  /-- BARRIER_RELEASE_DELIVERY (R253): A release updates the member's record, word, Full bit and counter. -/
  | barrierReleaseDelivery (n : Nat)
  /-- BARRIER_CANCEL_AT_LCA (R258): The lowest common ancestor takes a cancel and issues a CANCELLED release. -/
  | barrierCancelAtLca (n : Nat)
  /-- BWAIT_RELEASE (R264): A BWAIT completes when the generation moves or the status leaves OK. -/
  | bwaitRelease (p : Nat)
  /-- STATION_REQUEST (R274): A station looks up a request packet, checks rights and forwards or parks it. -/
  | stationRequest (n : Nat)
  /-- TRANSLATION_WALK_DONE (R274): A page-table walk completes and the packet is checked and forwarded. -/
  | translationWalkDone (n : Nat)
  /-- PAGER_FAULT_RESOLUTION (R275): The pager maps or refuses, and parked packets are re-walked or faulted. -/
  | pagerFaultResolution (n : Nat) (ok : Nat)
  /-- PACKET_PERFORM (R278): A cistern applies a GET, PUT or atomic packet and replies. -/
  | packetPerform (n : Nat)
  /-- MEMORY_REPLY (R280): A reply is written at the requester; the request completes when all packets are done. -/
  | memoryReply (n : Nat)
  /-- MEM_FAULT_TRAP (R280): A faulted request raises MEM_FAULT or sends a fault record to the pager. -/
  | memFaultTrap (p : Nat)
  /-- ATOMIC_REPLY (R284): A fetch atomic's reply completes its stalled bundle. -/
  | atomicReply (n : Nat)
  /-- FENCE_COMPLETE (R285): A fence's awaited events reach its scope and later traffic may leave. -/
  | fenceComplete (p : Nat)
  /-- PQRY_REPLY (R291): The station's answer completes a PQRY. -/
  | pqryReply (n : Nat)
  /-- GETI_WORD_WRITE (R292): A GETI reply writes IMEM words; the counter is decremented after the last. -/
  | getiWordWrite (n : Nat)
  /-- HBM_UNCORRECTABLE (R281): An uncorrectable HBM error poisons the sector and reports the page. -/
  | hbmUncorrectable (a : Nat)
  /-- POISON_CLEAR (R281): The pager clears POISON once no sector of the page is poisoned. -/
  | poisonClear (c : Nat) (va : Nat)
  /-- MAPPING_INVALIDATE (R276): Stations drop an entry and report outstanding packets translated under it. -/
  | mappingInvalidate (c : Nat) (k : Nat)
  /-- MAPPING_CHANGE_COMPLETE (R276): All counts reach zero and the mapping change completes. -/
  | mappingChangeComplete (c : Nat) (k : Nat)
  /-- MIGRATE_FREEZE_DONE (R294): Every station is frozen for a migrating page. -/
  | migrateFreezeDone (c : Nat) (k : Nat)
  /-- MIGRATE_DRAIN_DONE (R294): Packets translated under the old home are performed. -/
  | migrateDrainDone (c : Nat) (k : Nat)
  /-- MIGRATE_COPY_DONE (R294): The cisterns finish copying the frames. -/
  | migrateCopyDone (c : Nat) (k : Nat)
  /-- MIGRATE_SWITCH_DONE (R294): The new entry is in force and parked packets are released in order. -/
  | migrateSwitchDone (c : Nat) (k : Nat)
  /-- BFENCE_PACKET (R290): A station drops the range from row buffers and answers once earlier packets are performed. -/
  | bfencePacket (n : Nat)
  /-- BFENCE_ANSWER (R290): A fence packet answer reaches the tile; the fence completes when all are answered. -/
  | bfenceAnswer (n : Nat)
  /-- BMV_PARTIAL (R287): A cistern forms the partial sums of its units. -/
  | bmvPartial (n : Nat)
  /-- BMV_COMBINE (R287): The requester combines partials and writes outputs, then the counter. -/
  | bmvCombine (p : Nat) (k : Nat)
  /-- CDT_CACHE_FILL (R288): A cistern fills a missing decode table from the context block. -/
  | cdtCacheFill (p : Nat) (c : Nat) (t : Nat)
  /-- MEMBER_JOIN (R312): A yoke member joins at its task boundary and freezes dispatch. -/
  | memberJoin (p : Nat)
  /-- YOKE_FORMATION_END (R312): Formation ends with OK or a failure status and the YOKE bundle completes. -/
  | yokeFormationEnd (p : Nat)
  /-- YOKE_JOIN_TIMEOUT (R312): TMO x 1,024 cycles pass with a member still Running: TIMEOUT. -/
  | yokeJoinTimeout (p : Nat)
  /-- BLOCK_START (R318): A member starts a predicted block in a free window place. -/
  | blockStart (p : Nat)
  /-- OPERAND_ARRIVAL (R319): A register value arrives over the yoke ring for a waiting read. -/
  | operandArrival (p : Nat) (b : Nat) (r : Nat)
  /-- BLOCK_RESOLVE (R318): A block's last bundle resolves its successor and squashes younger blocks on misprediction. -/
  | blockResolve (p : Nat) (b : Nat)
  /-- BLOCK_COMMIT (R320): The oldest block commits its registers and writes its waiting stores. -/
  | blockCommit (p : Nat)
  /-- YOKE_MEMBER_FAULT (R325): A member becoming Faulted raises YOKE MEMBER at the leader. -/
  | yokeMemberFault (p : Nat) (m : Nat)
  /-- YOKE_DRAIN (R326): UNYOKE or TEND becomes oldest, gathers registers and releases members. -/
  | yokeDrain (p : Nat)
  /-- COMBINE_UP_CHUNK (R328): A switch folds partials from its children and passes one up or issues the result. -/
  | combineUpChunk (n : Nat)
  /-- COMBINE_DOWN_CHUNK (R334): A member receives a result chunk and writes its destination sectors. -/
  | combineDownChunk (n : Nat)
  /-- COLLECTIVE_ABORT_AT_LCA (R336): The lowest common ancestor takes ABORT and multicasts it down. -/
  | collectiveAbortAtLca (n : Nat)
  /-- COLLECTIVE_ABORT_ARRIVAL (R336): ABORT reaches a member, which ends Aborted and sends COLLECTED. -/
  | collectiveAbortArrival (n : Nat)
  /-- COLLECTED_AT_LCA (R336): The lowest common ancestor counts COLLECTED and releases the identifier. -/
  | collectedAtLca (n : Nat)
  /-- COLLECTIVE_ID_RELEASE (R338): The release returns an Aborted record to Idle. -/
  | collectiveIdRelease (n : Nat)
  /-- SCHEDULE_ENTRY_START (R341): The collective engine starts the next schedule entry once its DEP is met. -/
  | scheduleEntryStart (k : Nat)
  /-- SCHEDULE_CHUNK_ARRIVAL (R341): A chunk arrives at the engine and is held until its entry runs. -/
  | scheduleChunkArrival (n : Nat)
  /-- SCHEDULE_ENTRY_COMPLETE (R341): A schedule entry completes; at END the status word and counter are written. -/
  | scheduleEntryComplete (k : Nat) (i : Nat)
  /-- LAUNCH_PACKET (R345): The loader checks a LAUNCH, measures it and starts loading tiles. -/
  | launchPacket (n : Nat)
  /-- KERNEL_TILE_LOAD (R346): A quiet tile is loaded with the kernel image. -/
  | kernelTileLoad (k : Nat) (p : Nat)
  /-- KERNEL_TILE_KICK (R347): A loaded tile's START counters get one decrement. -/
  | kernelTileKick (k : Nat) (p : Nat)
  /-- KERNEL_TRIGGER_ARRIVAL (R349): A tile trigger reaches the pump house; the last releases dependants. -/
  | kernelTriggerArrival (k : Nat) (p : Nat)
  /-- KDONE_ACK_ARRIVAL (R350): A done acknowledgement arrives; the last completes the kernel and writes the signal. -/
  | kdoneAckArrival (k : Nat) (p : Nat)
  /-- TAIL_WRITE (R355): A performed write to a queue TAIL at the doorbell cistern sends a QUEUE notice. -/
  | tailWrite (f : Nat) (o : Nat) (val : Nat)
  /-- QUEUE_NOTICE (R356): The queue role receives a TAIL notice and checks it. -/
  | queueNotice (n : Nat)
  /-- PACKET_ADMIT (R358): The queue role reads the slot at HEAD and admits the packet or parks it on a counter. -/
  | packetAdmit (c : Nat) (q : Nat)
  /-- PACKET_RUN (R358): A packet is taken from the ready list and started. -/
  | packetRun (n : Nat)
  /-- NOP_PACKET (R359): A packet with no effect. -/
  | nopPacket (n : Nat)
  /-- COPY_PACKET (R360): Copies a VA range as if reading all before writing. -/
  | copyPacket (n : Nat)
  /-- FILL_PACKET (R360): Writes a 64-bit pattern over a range. -/
  | fillPacket (n : Nat)
  /-- SIGNAL_SET (R364): Sets a completion signal's VALUE and re-tests its waiters. -/
  | signalSet (n : Nat)
  /-- SIGNAL_ADD (R364): Adds to a completion signal and re-tests its waiters. -/
  | signalAdd (n : Nat)
  /-- SIGNAL_SUB (R364): Subtracts from a completion signal and re-tests its waiters. -/
  | signalSub (n : Nat)
  /-- SIGNAL_ARM (R361): Sets a dependency counter's COUNT atomically, pushing a parked packet at zero. -/
  | signalArm (n : Nat)
  /-- WAIT_PACKET (R364): Tests a signal and completes or parks, blocking its queue. -/
  | waitPacket (n : Nat)
  /-- WAIT_RETEST (R364): Every 50 us the engine re-tests listed waiters. -/
  | waitRetest (n : Nat)
  /-- WAIT_TIMEOUT (R364): A WAIT's timeout completes it with TIMEOUT. -/
  | waitTimeout (n : Nat)
  /-- MEASURE_PACKET (R387): Hashes a range and appends a RESULT or NOTE event. -/
  | measurePacket (n : Nat)
  /-- RECEIPT_PACKET (R388): Writes a signed execution receipt of the chain head. -/
  | receiptPacket (n : Nat)
  /-- MAP_PACKET (R447): Writes leaf entries after checks, creating tables as needed. -/
  | mapPacket (n : Nat)
  /-- UNMAP_PACKET (R447): Unmaps the valid leaves of a range. -/
  | unmapPacket (n : Nat)
  /-- MIGRATE_PACKET (R294): Starts migration of pages to a new home. -/
  | migratePacket (n : Nat)
  /-- CHECKPOINT_PACKET (R426): Streams a context's or all HBM to a UE endpoint. -/
  | checkpointPacket (n : Nat)
  /-- CHECKPOINT_STREAM_DONE (R427): Every RMA write is acknowledged and the checkpoint completes. -/
  | checkpointStreamDone (n : Nat)
  /-- CDTLOAD_PACKET (R288): Replaces a cistern decode table, dropping cached copies. -/
  | cdtloadPacket (n : Nat)
  /-- PACKET_COMPLETE (R363): A packet's effects are performed; DECVA, SIGVA and VEC are applied. -/
  | packetComplete (n : Nat)
  /-- PUMP_HOUSE_TILE_FAILURE (R370): A standby takes over a role from the journal after an uncorrectable error. -/
  | pumpHouseTileFailure (role : Nat) (kind : Nat) (c : Nat) (q : Nat)
  /-- CONTEXT_FAULT (R376): The pump house stops dispatch, aborts work, fails packets and writes the fault ring. -/
  | contextFault (c : Nat)
  /-- FUNCTION_LEVEL_RESET (R373): FLR of a virtual function faults and destroys its contexts. -/
  | functionLevelReset (f : Nat)
  /-- PARTITION_GRANT (R375): A Created context gets a partition, bitmaps, remap tables and reset tiles. -/
  | partitionGrant (c : Nat) (base : Nat)
  /-- TIME_SLICE_EXPIRY (R377): A context's time slice expires and a save is requested. -/
  | timeSliceExpiry (c : Nat)
  /-- SAVE_TASK_BOUNDARY (R377): A tile takes a save request at its task boundary and is cut from the network. -/
  | saveTaskBoundary (p : Nat)
  /-- SAVE_CHANNEL_DRAINED (R377): The control channel is empty and combine entries are copied. -/
  | saveChannelDrained (c : Nat)
  /-- TILE_CAPTURE_DONE (R378): A tile has written its control image and state record. -/
  | tileCaptureDone (p : Nat)
  /-- TILE_EVICTION (R379): A held tile evicts SRAM, IMEM and bitmaps when claimed by another context. -/
  | tileEviction (p : Nat)
  /-- RESTORE_COMPLETE (R381): Tiles load their blocks, parked packets replay and dispatch resumes. -/
  | restoreComplete (c : Nat)
  /-- CID_DROP_COMPLETE (R380): Every station and port reports the CID dropped and the context becomes Free. -/
  | cidDropComplete (c : Nat)
  /-- LEAF_HASH_DONE (R385): A SHA3 engine finishes a 1 MiB leaf of an object digest. -/
  | leafHashDone (j : Nat) (i : Nat)
  /-- MEASUREMENT_APPEND (R387): The attestor appends an event whose digest is complete to the chain. -/
  | measurementAppend (j : Nat)
  /-- WELIM_DATA_RECEIVE (R393): A DATA packet is delivered in order or discarded with NAK or ACK. -/
  | welimDataReceive (port : Nat) (w : LinkPkt)
  /-- WELIM_ACK_RECEIVE (R393): An ACK frees replay buffer entries and returns credits. -/
  | welimAckReceive (port : Nat) (w : LinkPkt)
  /-- WELIM_NAK_RECEIVE (R393): A NAK makes the sender resend from ACK + 1. -/
  | welimNakReceive (port : Nat) (w : LinkPkt)
  /-- WELIM_REPLAY_TIMEOUT (R393): 5 us without ACK advance resends all outstanding packets. -/
  | welimReplayTimeout (port : Nat)
  /-- WELIM_ACK_TIMER (R393): An ACK is sent within 1 us of an unacknowledged delivery. -/
  | welimAckTimer (port : Nat)
  /-- LANE_SAMPLE (R394): Every 1 ms lanes are sampled and judged weak or lost. -/
  | laneSample (port : Nat) (l : LaneSample)
  /-- SWAP_REPEAT (R396): SWAP is repeated every 10 us until SWAPACK. -/
  | swapRepeat (port : Nat)
  /-- SWAPACK_RECEIVE (R395): SWAPACK names the SEQ after which the lane moves to S. -/
  | swapackReceive (port : Nat) (w : LinkPkt)
  /-- SWAP_CUTOVER (R395): The logical lane moves onto S at the codeword boundary after packet q. -/
  | swapCutover (port : Nat)
  /-- SWAP_TIMEOUT (R395): 200 us without a completed swap enters Retrain. -/
  | swapTimeout (port : Nat)
  /-- LANE_LOSS (R401): A lost lane sends the port to Retrain and a new width is chosen. -/
  | laneLoss (port : Nat) (lane : Nat)
  /-- RETRAIN_TIMEOUT (R402): 40 us in Retrain without a width makes the port Failed. -/
  | retrainTimeout (port : Nat)
  /-- TRAIN_TIMEOUT (R402): 2 ms in Train without success makes the port Failed. -/
  | trainTimeout (port : Nat)
  /-- TRAINING_SET_RECEIVE (R400): A training set advances DETECT, CONFIG or DONE. -/
  | trainingSetReceive (port : Nat) (t : TrainSet)
  /-- SYNC_RECEIVE (R398): A SYNC packet adjusts GTIME. -/
  | syncReceive (port : Nat) (w : LinkPkt)
  /-- SYNC_LOSS (R398): 100 ms without SYNC lets GTIME run free. -/
  | syncLoss
  /-- UE_PACKET_RECEIVE (R406): A UE packet is taken under the job map's CID or discarded. -/
  | uePacketReceive (u : UePkt)
  /-- UE_DEFERRAL (R407): A UET deferral is handled as POOL_FULL with resumption. -/
  | ueDeferral (p : Nat) (d : Nat)
  /-- BAR2_ACCESS (R411): A host access through the aperture becomes a station request. -/
  | bar2Access (h : HostAcc)
  /-- APERTURE_MAP_WRITE (R411): A write of an aperture map entry, with ERR on a foreign CID. -/
  | apertureMapWrite (f : Nat) (j : Nat) (w0 : Nat) (w1 : Nat)
  /-- BOOT_RESET (R414): Power-good or PERST# runs the boot sequence. -/
  | bootReset (b : BootIn)
  /-- MAILBOX_DONE_ACK (R421): Writing 0 to BELL in DONE returns the mailbox to IDLE. -/
  | mailboxDoneAck (f : Nat)
  /-- VERSION (R422): Returns the firmware ABI versions offered. -/
  | version (m : Mbx)
  /-- CTX_CREATE (R423): Creates a context from its operands. -/
  | ctxCreate (m : Mbx)
  /-- CTX_GRANT (R422): Moves a context to another function. -/
  | ctxGrant (m : Mbx)
  /-- CTX_DESTROY (R422): Destroys a context. -/
  | ctxDestroy (m : Mbx)
  /-- CTX_SAVE (R422): Saves a context, answered when Saved (held). -/
  | ctxSave (m : Mbx)
  /-- CTX_RESTORE (R422): Restores a context or reports RESTORE_SHAPE or RESTORE_POISON. -/
  | ctxRestore (m : Mbx)
  /-- CTX_SLICE (R422): Sets a context's time slice. -/
  | ctxSlice (m : Mbx)
  /-- Q_CREATE (R422): Creates a queue, Free to Active. -/
  | qCreate (m : Mbx)
  /-- Q_RESET (R366): Resets an Error queue to Active, dropping and unparking its packets. -/
  | qReset (m : Mbx)
  /-- Q_DESTROY (R422): Destroys a queue after its packets complete. -/
  | qDestroy (m : Mbx)
  /-- POWER_LIMIT (R424): Sets the module power limit. -/
  | powerLimit (m : Mbx)
  /-- PORT_CTL_DOWN (R422): Takes a Welim port Down once its replay buffer is empty. -/
  | portCtlDown (m : Mbx)
  /-- PORT_CTL_ENABLE (R402): Enables a Welim port into Detect. -/
  | portCtlEnable (m : Mbx)
  /-- LANE_LOG (R422): Returns the lane log of a Welim port. -/
  | laneLog (m : Mbx)
  /-- FLASH_WRITE (R422): Writes the module flash. -/
  | flashWrite (m : Mbx)
  /-- ATTACH (R429): Attaches a debugger to a context. -/
  | attach (m : Mbx)
  /-- DETACH (R429): Detaches, clearing watchpoints and restarting, killing or resuming held work. -/
  | detach (m : Mbx)
  /-- STOP (R429): Sends stop-the-cluster. -/
  | stop (m : Mbx)
  /-- RESUME (R429): Moves Stopped tiles to Idle and releases held input. -/
  | resume (m : Mbx)
  /-- STEP (R433): Runs n bundles of a held or suspended record in step mode. -/
  | step (m : Mbx)
  /-- READ (R429): Reads one word of a Stopped tile. -/
  | read (m : Mbx)
  /-- WRITE (R429): Writes one word of a Stopped tile under the register limits. -/
  | write (m : Mbx)
  /-- TRACE (R434): Sets and enables the context's trace ring. -/
  | trace (m : Mbx)
  /-- CLEARACCT (R436): Zeroes the delay accounts of a cluster. -/
  | clearacct (m : Mbx)
  /-- POWER_WINDOW_CONTROL (R424): Firmware steps the DVFS point to hold average power under the limit. -/
  | powerWindowControl (watts : Nat)
  /-- THERMAL_THROTTLE (R424): A die reaching 105 C is throttled. -/
  | thermalThrottle (die : Nat) (temp : Nat)
  /-- THERMAL_SHUTDOWN (R424): A die reaching 115 C shuts the module down. -/
  | thermalShutdown (die : Nat) (temp : Nat)
  /-- CLUSTER_GATE (R425): Firmware gates or ungates a cluster outside any partition. -/
  | clusterGate (p : Nat) (on : Nat)
  /-- WATCHPOINT_HIT (R431): An access touching a watched range sets HIT and raises WATCH or stops. -/
  | watchpointHit (p : Nat) (k : Nat) (off : Nat) (wr : Nat)
  /-- WATCH_TRAP (R431): WATCH is taken asynchronously with its skid. -/
  | watchTrap (p : Nat)
  /-- STOP_THE_CLUSTER_ARRIVAL (R432): The stop broadcast reaches a tile, which becomes Stopped. -/
  | stopTheClusterArrival (p : Nat)
  /-- TRACE_DRAIN (R434): The cluster trace buffer drains a record to the trace ring or counts it lost. -/
  | traceDrain (p : Nat)
  /-- SCHEDULER_TRAP (R382): The switcher takes the scheduler trap raised for a parked packet of a Saved context and starts its restore, or logs RESTORE_SHAPE when no partition is free. -/
  | schedulerTrap (c : Nat)
  /-- CMD_NOT_OFFERED (R421): A mailbox request submitted by BELL := 1 with a CMD that is not offered is answered with STATUS UNKNOWN, BELL DONE and MSI-X vector 0. -/
  | cmdNotOffered (m : Mbx)
  /-- IDE_KM_REQUEST (R408): An IDE_KM request over SPDM 1.3 arrives on the DOE mailbox of function 0 and sets the keys of the endpoint's IDE link stream. -/
  | ideKmRequest (key : Nat)
deriving DecidableEq, Repr

end Sys2Proof
end

