-- ==== Sys2Proof/Machine/State.lean ====
section
/-!
DEFINITION. Sys2Proof/Machine/State.lean: what the device holds, as plain data: the tiles, the messages and packets on
their way, the stations and cisterns, the contexts and the pump house, the links and the host interface, and the
model's own scheduling fields. Every field's default is its value after power-good, before the boot sequence.
-/

namespace Sys2Proof.Machine

/-! ## Bundles and traps -/

/-- A trap about to be taken (R65): the cause code, FAULTC.SUB without the position, FAULTA.DADDR, and whether an ECC_LOCAL
lies in IMEM (R27). -/
structure TrapInfo where
  cause : Nat := 0
  sub : Nat := 0
  daddr : Nat := 0
  imem : Bool := false
deriving DecidableEq, Repr

/-- Tile life-cycle states (R33). -/
inductive Life
  | off | reset | idle | running | member | stopped | saving | restoring | faulted
deriving DecidableEq, Repr

/-- The register files (R20). v is keyed by 16·register + lane, acc by 1024·accumulator + 32·row + column (R163). -/
structure Regs where
  g : FMap W64 := []
  p : NSet := []
  v : FMap W32 := []
  q : FMap (BitVec 16) := []
  acc : FMap W32 := []
  accst : FMap Nat := []
deriving DecidableEq, Repr

/-- The system registers (R28) and the decode tables (R103; keyed by 256·table + code). YSTAT, TASK, CYCLE, GTIME, PLACE
and CAPS1–CAPS15 are views of other state. -/
structure Sys where
  cid : Nat := 0
  fw : Bool := false
  imgid : W64 := 0
  actw : W64 := 0
  va : Nat := 8
  aa : Nat := 0
  frm : BitVec 2 := 0
  vflags : BitVec 5 := 0
  wd : FMap W64 := []
  dts : FMap W64 := []
  tbl : FMap W32 := []
  trbase : W64 := 0x1F0000
  trsize : W64 := 0x10000
  eagermax : W64 := 0x1000
  spbase : W64 := 0x1EC000
  stktop : W64 := 0x1EC000
  lstart : W64 := 0
  lend : W64 := 0
  lcount : W64 := 0
  kdim : W64 := 0
  msa : W64 := 0
  msb : W64 := 0
  msd : W64 := 0
  wpa : FMap W64 := []
  wpc : FMap W64 := []
  faultc : W64 := 0
  faulta : W64 := 0
  caps0 : W64 := 0
  dacct : FMap W64 := []
deriving DecidableEq, Repr

/-- A memory effect of a block that waits for its commit (R323): one write of pieces (offset and bytes) in a tile, with the Full bits they
set, or a change of one Full bit or one poison bit (R123: a control-space store). -/
inductive Eff
  | write (tile : Nat) (ps : List (Nat × List (BitVec 8))) (fe : Bool)
  | full (tile sec : Nat) (v : Bool)
  | poison (tile sec : Nat) (v : Bool)
deriving DecidableEq, Repr

/-- What a bundle of a yoked block sees (R316, R319, R323): the member it runs on, the bundle's index in the block, the
write masks, whether the bundle is its last, the waiting stores visible to it (oldest first), the
effects and reads it adds, with the slice entries they take (the syllable's position and the slice), and whether it holds an UNYOKE that
acts. -/
structure BlkCtx where
  hdr : Nat := 0
  member : Nat := 0
  idx : Nat := 0
  last : Bool := false
  gmask : Nat := 0
  vmask : Nat := 0
  seen : List Eff := []
  effs : List Eff := []
  reads : List (Nat × Nat × Nat) := []
  ents : List (Nat × Nat) := []
  leave : Bool := false
deriving DecidableEq, Repr

/-- What a stalled bundle waits for. -/
inductive Wait
  | full (sectors : List Nat)
  | sleep (deadline : Nat) (mask : Nat) (seen : Nat)
  | allot (lo hi : Nat)
  | tload (n : Nat)
  | mqueue
  | mwait (acc : Option Nat)
  | mrdf (acc : Nat)
  | rwait (handle : Nat)
  | gplace (grp rank : Nat)
  | bwait (key gen : Nat)
  | atomic (slot : Nat)
  | pqry (slot : Nat)
  | yoke
  | fence
deriving DecidableEq, Repr

/-! ## Tasks -/

/-- A task slot's descriptor (R214). -/
structure Slot where
  bound : Bool := false
  ar : Bool := false
  nr : Bool := false
  budget : Nat := 0
  prio : Nat := 0
  entry : Nat := 0
  reload : Nat := 0
  arg : W64 := 0
deriving DecidableEq, Repr

/-- The message whose completion made a zero event (R435, R436): its source place, transit, tag and group, and the time of
its completion. -/
structure MsgInfo where
  src : Nat := 0
  transit : Nat := 0
  tag : Nat := 0
  grp : Nat := 0
  done : Nat := 0
deriving DecidableEq, Repr

/-- A counter (R216), with the message of its last decrement where that was a receive's completion (R435), and that of the zero event for which
PENDING stands. -/
structure Ctr where
  count : Nat := 0
  pending : Bool := false
  overrun : Bool := false
  info : Option MsgInfo := none
  pinfo : Option MsgInfo := none
deriving DecidableEq, Repr

/-- A ready-queue record in use (R220), with what the delay accounts and the restart count need of it; `acct`: a zero event of a receive pushed it,
and its delay is still to be added (R436). -/
structure Rec where
  seq : Nat := 0
  run : Bool := false
  entry : Nat := 0
  hold : Bool := false
  cause : Nat := 0
  prio : Nat := 0
  slot : Nat := 0
  asn : Nat := 0
  restarts : Nat := 0
  exposed : Bool := false
  nr : Bool := false
  info : Option MsgInfo := none
  acct : Bool := false
  trapc : Nat := 0
  imem : Bool := false
deriving DecidableEq, Repr

/-- The running task (R223, R225): its record and slot, BUDGET, the cycles it ran before `start`, and GTIME at dispatch; `fresh` until its first
bundle issues, which it does from cycle `start` on (R221). -/
structure Run where
  idx : Nat := 0
  slot : Nat := 0
  budget : Nat := 0
  start : Nat := 0
  used : Nat := 0
  gstart : Nat := 0
  exposed : Bool := false
  nr : Bool := false
  fresh : Bool := false
deriving DecidableEq, Repr

/-- SRAM sectors that an engine has read before its action's last step (R297, R299): their numbers, bytes and poison. -/
structure Early where
  took : NSet := []
  part : List (Nat × BitVec 8) := []
  bad : NSet := []
deriving DecidableEq, Repr

/-! ## Messages and matching -/

/-- A posted-receive entry (R446). `state` 15 is Free; `held` are DATA bytes whose sectors are not
complete yet (R196): the offset, the bytes, and their poison. -/
structure Recv where
  bw : Nat := 0
  ew : Nat := 0
  seq : Nat := 0
  psn : Bool := false
  fe : Bool := false
  state : Nat := 15
  gen : Nat := 0
  mask : Nat := 0
  sdesc : Nat := 0
  done : Nat := 0
  length : Nat := 0
  src : Nat := 0
  transit : Nat := 0
  ctl : Bool := false
  held : List (Nat × List (BitVec 8) × Bool) := []
deriving DecidableEq, Repr

/-- An unexpected-header entry in use (R446), its cells in chain order; `wrote` are the sectors of the taker's buffer that its bytes have reached
already (R299). -/
structure Unexp where
  ew : Nat := 0
  length : Nat := 0
  src : Nat := 0
  seq : Nat := 0
  sdesc : Nat := 0
  relaxed : Bool := false
  poison : Bool := false
  state : Nat := 0
  cells : List Nat := []
  taker : Nat := 0
  transit : Nat := 0
  ctl : Bool := false
  wrote : NSet := []
deriving DecidableEq, Repr

/-- A send descriptor in use (R446). `payload` is the captured source of SENDV; `res` that DEST is resolved (R244); `refseq` the
order of its first emission; `answered` that the receiver has answered its header (R193); `retry` when a refused RESUME
is sent again; `early` what has been read of its source; `iss` its place among the tile's requests and fences (R285); `rtime` GTIME at its release (R208). -/
structure Send where
  bw : Nat := 0
  ew : Nat := 0
  seq : Nat := 0
  state : Nat := 0
  rel : Bool := false
  rdv : Bool := false
  vec : Bool := false
  ctl : Bool := false
  resume : Bool := false
  res : Bool := false
  dest : Nat := 0
  sent : Nat := 0
  accepted : Nat := 0
  handle : Nat := 0
  payload : List (BitVec 8) := []
  refseq : Nat := 0
  answered : Bool := false
  retry : Nat := 0
  iss : Nat := 0
  rtime : Nat := 0
  early : Early := {}
deriving DecidableEq, Repr

/-- A held thing, in issue order (R224, R264): a send descriptor, a barrier arrival or a collective contribution, by its
record's key, with the place of its issue among the tile's requests and fences (R285). -/
inductive Held
  | send (d : Nat)
  | arrive (key iss : Nat)
  | contrib (key iss : Nat)
deriving DecidableEq, Repr

/-! ## The matrix unit -/

/-- A queued matrix command (R166) with everything captured at issue (R167). `op` is FN6; `wrote` are the sectors that the running command has
written already, `early` those that it has read (R299). -/
structure MCmd where
  op : Nat := 0
  jn : Nat := 0
  c : Nat := 0
  v3 : Nat := 0
  a : Nat := 0
  b : Nat := 0
  wa : Nat := 0
  wb : Nat := 0
  kdim : Nat := 0
  msa : Nat := 0
  msb : Nat := 0
  msd : Nat := 0
  job : Nat := 0
  ce : Bool := false
  cnt : Nat := 0
  wrote : NSet := []
  early : Early := {}
deriving DecidableEq, Repr

/-! ## Groups, barriers, collectives -/

/-- A group-table entry as bound (R238, R239, R240); `words` are its four words. -/
structure Group where
  kind : Nat := 0
  size : Nat := 0
  base : Nat := 0
  shape : Nat := 0
  listva : Nat := 0
  nb : Nat := 0
  coll : Bool := false
  ue : Bool := false
  list : List Nat := []
deriving DecidableEq, Repr

/-- A membership slot M0–M3 (R242): the group and the tile's own rank, with the tile's copy of the descriptor. -/
structure Member where
  grp : Nat := 0
  rank : Nat := 0
  desc : Group := {}
deriving DecidableEq, Repr

/-- A barrier record (R252). `bind` is the bound word's offset with its counter field. -/
structure BarRec where
  gen : Nat := 0
  status : Nat := 0
  arrived : Nat := 0
  bind : Option (Nat × Nat) := none
deriving DecidableEq, Repr

/-- A collective record's states (R338). -/
inductive CState
  | idle | contributing | combining | delivering | complete | aborted
deriving DecidableEq, Repr

/-- A collective record (R334, R338). `form` is 0 CRED, 1 CARED, 2 CBCAST, 3 CSTART. `got` the chunks received with their wire values, `flags` the status bits, `early` what has been read of the source (R212, R334). -/
structure Coll where
  st : CState := .idle
  form : Nat := 0
  count : Nat := 0
  ty : Nat := 0
  op : Nat := 0
  src : Nat := 0
  dst : Nat := 0
  fe : Bool := false
  root : Nat := 0
  stw : Nat := 0
  cntf : Nat := 0
  held : Bool := false
  got : FMap (List Nat) := []
  poisoned : NSet := []
  flags : Nat := 0
  collected : Bool := false
  early : Early := {}
deriving DecidableEq, Repr

/-! ## Memory requests -/

/-- Kinds of memory request (R277). -/
inductive RKind
  | get | put | getd | putd | bmv | bmvt | bfence | pqry | geti | fetch | posted
deriving DecidableEq, Repr

/-- One packet of a request's transfer: `len` bytes of a row between `va` and the local offset `off`, or pieces of several rows that share a
sector (offset in the packet, local offset, length, row) (R277, R283). -/
structure Span where
  va : Nat := 0
  off : Nat := 0
  len : Nat := 0
  row : Nat := 0
  pieces : List (Nat × Nat × Nat × Nat) := []
deriving DecidableEq, Repr

/-- A request slot in use (R277). `spans` are its packets, `left` counts those not yet answered; `got` holds the bytes of the
read packets that have arrived, with the memory sectors whose bytes carry poison, and `ansd` the packets that have been answered;
`fault` is the reason, the packet and the VA of the first faulting packet. The last fields name the activation that issued it, and
hold the descriptor of a bank operation. -/
structure Req where
  kind : RKind := .get
  seq : Nat := 0
  ord : Nat := 0
  cntf : Nat := 0
  spans : List Span := []
  left : Nat := 0
  got : FMap (List (BitVec 8) × NSet) := []
  ansd : NSet := []
  fault : Option (Nat × Nat × Nat) := none
  asn : Nat := 0
  actw : W64 := 0
  desc : List Nat := []
deriving DecidableEq, Repr

/-- A fence still open (R285): its scope, its place among the tile's requests and fences, and the count of matrix commands that
must have completed. `act` is 1 for KTRIG's and 2 for KDONE's (R353), and `kern` the kernel they speak for. A BFENCE is a request. -/
structure Fence where
  scope : Nat := 0
  seq : Nat := 0
  mx : Nat := 0
  act : Nat := 0
  kern : Nat := 0
deriving DecidableEq, Repr

/-! ## The yoke -/

/-- The entries of a tile's tables that a block has changed through the leader, each by its key, as it was before and as the block left it (R325). -/
structure Undo where
  slots : List (Nat × Option Slot × Option Slot) := []
  ctrs : List (Nat × Option Ctr × Option Ctr) := []
  recs : List (Nat × Option Rec × Option Rec) := []
  recvs : List (Nat × Option Recv × Option Recv) := []
  unexp : List (Nat × Option Unexp × Option Unexp) := []
  sends : List (Nat × Option Send × Option Send) := []
  spill : List (Nat × Option Nat × Option Nat) := []
  bars : List (Nat × Option BarRec × Option BarRec) := []
  colls : List (Nat × Option Coll × Option Coll) := []
deriving DecidableEq, Repr

/-- A block in the window (R318): its header address, bundle count and masks, its registers as it has received and
written them (`read`: its bundles have been decoded; `arr`: the registers that have arrived, `dp` the p and q registers it names as destinations, both numbered as in
Uses.lean), its waiting stores and the bytes it has read, its predicted successor until it is resolved, and its next block
address. `ents` counts the entries it holds in each slice (R323). `undo` is the leader's system registers as they stood when its first late
syllable issued, and `made` the entries of its tables that the block has changed; `flushed` the stores written early for the engines that it started, and `was` the sectors under them as they were: tile,
sector, bytes, poison and Full. `ends` is 1 where it ends with UNYOKE, 2 with TEND. -/
structure Blk where
  hdr : Nat := 0
  read : Bool := false
  count : Nat := 1
  gmask : Nat := 0
  vmask : Nat := 0
  dp : NSet := []
  pc : Nat := 0
  idx : Nat := 0
  regs : Regs := {}
  arr : NSet := []
  effs : List Eff := []
  reads : List (Nat × Nat × Nat) := []
  ents : FMap Nat := []
  undo : Option Sys := none
  made : Undo := {}
  flushed : List Eff := []
  was : List (Nat × Nat × List (BitVec 8) × Bool × Bool) := []
  vflags : BitVec 5 := 0
  pred : Option Nat := none
  next : Option Nat := none
  done : Bool := false
  serial : Bool := false
  trap : Option (Nat × TrapInfo) := none
  ends : Nat := 0
  sys : Sys := {}
deriving DecidableEq, Repr

/-- Yoke states (R314). -/
inductive YState
  | single | forming | yoked | draining | dissolved
deriving DecidableEq, Repr

/-- A tile's yoke state: the leader's (R311–R326), and a member's LEADER and MEMBER index. `blocks` holds once the thread
has reached its first header (R313). -/
structure Yoke where
  st : YState := .single
  leader : Nat := 0
  idx : Nat := 0
  n : Nat := 0
  mask : Nat := 0
  base : Nat := 0
  size : Nat := 0
  tmo : Nat := 0
  since : Nat := 0
  joined : NSet := []
  result : Option Nat := none
  blocks : Bool := false
  nextHdr : Nat := 0
  win : List Blk := []
  pred : FMap Nat := []
deriving DecidableEq, Repr

/-! ## The tile -/

/-- The task unit (R214–R225). `seq` numbers the pushes; its field of 16 bits (R220) starts at 0. -/
structure Task where
  slots : FMap Slot := []
  ctrs : FMap Ctr := []
  recs : FMap Rec := []
  seq : Nat := 65536
  dc : Nat := 0
  asn : Nat := 0
  run : Run := {}
  maxbudget : Nat := 0xFFFF
  restartmax : Nat := 3
deriving DecidableEq, Repr

/-- The network interface's messaging state (R183–R210, R446). `rorder` lists the posted-receive entries that have become free
for a new post, in that order (R185); an entry never used stands before them. `chan` holds the channel sequences (R208): sent by
(place, channel), and received. `eseq` numbers the emissions. The numbers `rseq`, `useq` and `sseq` are whole; the fields of 16 bits that show them
(R446) start at 0. -/
structure Net where
  recvs : FMap Recv := []
  rorder : List Nat := []
  rseq : Nat := 65536
  unexp : FMap Unexp := []
  useq : Nat := 65536
  cells : NSet := []
  sends : FMap Send := []
  sseq : Nat := 65536
  eseq : Nat := 0
  heldq : List Held := []
  outq : List Held := []
  chan : FMap Nat := []
  refusal : FMap Nat := []
  overflow : Nat := 0
  trnack : Nat := 0
  rtrunc : Nat := 0
  strunc : Nat := 0
  blocked : NSet := []
deriving DecidableEq, Repr

/-- Groups, barriers and collectives at the tile (R242, R252, R334). Barrier records are keyed by 16·slot + number,
collective records by 64·slot + identifier. -/
structure Comm where
  bound : NSet := []
  slots : FMap Member := []
  bars : FMap BarRec := []
  colls : FMap Coll := []
deriving DecidableEq, Repr

/-- Requests and fences (R277, R285). -/
structure Mreq where
  reqs : FMap Req := []
  seq : Nat := 0
  fences : List Fence := []
deriving DecidableEq, Repr

/-- The matrix unit's queue and jobs (R167, R181). `started`: the head command was running when the tile was stopped
(R432). `done` counts the commands that have completed. `jn` counts the jobs closed, of which the job number shows the low 8 bits; `closed` are the
jobs that still have commands. -/
structure Matrix where
  queue : List MCmd := []
  done : Nat := 0
  started : Bool := false
  job : Nat := 0
  jn : Nat := 0
  closed : List (Nat × Bool × Nat) := []
deriving DecidableEq, Repr

/-- Pending requests at a tile (R33, R34); `join`: the leaders that ask the tile to join, in order; `halt`: its context has faulted and it dispatches nothing (R376). -/
structure Pend where
  save : Bool := false
  stop : Bool := false
  gate : Bool := false
  gateSince : Nat := 0
  join : List Nat := []
  halt : Bool := false
deriving DecidableEq, Repr

/-- Debug state of a tile: step mode, a suspended task, the hits that wait for their trap, and the bundle counts of R431 and R432. -/
structure Dbg where
  stepN : Nat := 0
  stepping : Bool := false
  suspended : Bool := false
  watch : Option (Nat × Nat × Nat) := none
  skid : Nat := 0
  stopSkid : Nat := 0
deriving DecidableEq, Repr

/-- What the syllables of a bundle of several syllables read as it stood before the bundle (R7, R39, R42); the parts of control space
among it. -/
structure Pre where
  sys : Sys := {}
  sram : Mem := []
  full : NSet := []
  poison : NSet := []
  regs : Regs := {}
  spill : FMap Nat := []
  task : Task := {}
  net : Net := {}
deriving DecidableEq, Repr

/-- The bundle in execution on a tile (the model's own bookkeeping between the syllables of one bundle). `coll` holds
for a bundle of several syllables: its traps are collected and the first by R65 is taken when the bundle closes; `allot` and
`fin` (TEND, or TYIELD with its entry) take effect then. -/
structure Bun where
  live : Bool := false
  addr : Nat := 0
  len : Nat := 1
  pos : Nat := 0
  coll : Bool := false
  next : Option Nat := none
  taken : Bool := false
  trap : Option (Nat × TrapInfo) := none
  mem : List (Nat × Bool × Nat × Nat) := []
  allot : Option (Bool × Nat) := none
  fin : Option (Option Nat) := none
  raised : BitVec 5 := 0
  pre : Option Pre := none
  blk : Option BlkCtx := none
deriving DecidableEq, Repr

/-- One tile (R20). `accBad` are the accumulator elements with an uncorrectable error (R179); `issuePre` is the tile as the bundle found it that has
sent a fetch atomic and waits for its reply (R284). -/
structure Tile where
  life : Life := .off
  place : Option Nat := none
  pc : Nat := 0
  regs : Regs := {}
  sys : Sys := {}
  sram : Mem := []
  full : NSet := []
  poison : NSet := []
  ecc : Nat := 0
  accBad : NSet := []
  imem : FMap W32 := []
  imemBad : NSet := []
  overlay : NSet := []
  coden : Nat := 0
  spill : FMap Nat := []
  task : Task := {}
  net : Net := {}
  comm : Comm := {}
  mreq : Mreq := {}
  mx : Matrix := {}
  yk : Yoke := {}
  pend : Pend := {}
  dbg : Dbg := {}
  bun : Bun := {}
  wait : List (Nat × Wait) := []
  woken : List (Nat × Nat) := []
  issuePre : Option Pre := none
  async : List TrapInfo := []
  cyc0 : Nat := 0
  kernel : Option Nat := none
  ktrig : Bool := false
  kdone : Bool := false
  resident : Bool := false
deriving DecidableEq, Repr

/-! ## Messages on their way -/

/-- What a message is (R208 classes and REPLY kinds, R255, R331, R356; the control messages of the pump house). -/
inductive MKind
  | eager | rts | cts | data | eack | poolFull | rack | dack
  | arrive | release | cancel
  | up | down | abort | collected | collRelease
  | chunk | queueNotice | trigger | kdoneAck | stop
deriving DecidableEq, Repr

/-- A message between its release and its arrival, with the header fields of R208 (and R255, R331). `path` lists the
switch ports it has still to pass (R17); `sw` is the switch that holds a combine packet (R254, R328) and `port` the down
port it came by; `replay` its turn in the replay of a restore, 0 for a new arrival (R210); `wrote` the sectors of the buffer that its bytes have
reached already (R196, R299). -/
structure Msg where
  kind : MKind := .eager
  cid : Nat := 0
  src : Nat := 0
  dst : Nat := 0
  grp : Nat := 0
  srank : Nat := 0
  tag : Nat := 0
  len : Nat := 0
  acc : Nat := 0
  off : Nat := 0
  handle : Nat := 0
  sdesc : Nat := 0
  relaxed : Bool := false
  poison : Bool := false
  resume : Bool := false
  ctl : Bool := false
  chan : Nat := 0
  stime : Nat := 0
  payload : List (BitVec 8) := []
  psec : NSet := []
  path : List Nat := []
  sw : Nat := 0
  port : Nat := 0
  num : Nat := 0
  parity : Nat := 0
  status : Nat := 0
  chunk : Nat := 0
  vals : List Nat := []
  flags : Nat := 0
  val : Nat := 0
  replay : Nat := 0
  ue : Option Nat := none
  wrote : NSet := []
deriving DecidableEq, Repr

/-- A barrier's combine-table entry in one switch (R254). -/
structure CombEnt where
  exp : Nat := 0
  c0 : Nat := 0
  c1 : Nat := 0
  cancelled : Bool := false
deriving DecidableEq, Repr

/-- One identifier's state in a group's collective combine entry in one switch (R328, R336): the partials held, keyed by
chunk, each a (port, values, flags, poison) in arrival order. -/
structure CollEnt where
  parts : FMap (List (Nat × List Nat × Nat × Bool)) := []
  aborted : Bool := false
  collected : Nat := 0
deriving DecidableEq, Repr

/-- A schedule run by a die collective engine (R339–R341): `held` are the chunks it holds, each with its sender, its number, its bytes and
whether they carry poison; `actw` names the activation that started it. -/
structure Sched where
  die : Nat := 0
  tile : Nat := 0
  cid : Nat := 0
  grp : Nat := 0
  rank : Nat := 0
  id : Nat := 0
  sched : Nat := 0
  nent : Nat := 0
  clog : Nat := 0
  ty : Nat := 0
  op : Nat := 0
  src : Nat := 0
  dst : Nat := 0
  next : Nat := 0
  running : List Nat := []
  complete : List Nat := []
  held : List (Nat × Nat × List (BitVec 8) × Bool) := []
  flags : Nat := 0
  actw : W64 := 0
  asn : Nat := 0
deriving DecidableEq, Repr

/-! ## The memory edge -/

/-- Where a request packet stands (R274–R281, R290). -/
inductive PSt
  | atStation | walking | parked | frozen | routed | fenced | answered | faulted
deriving DecidableEq, Repr

/-- A place of bytes: device memory, host memory, the memory of a context of another device, reached through a UE port, or the doorbell
page of the context (R354). -/
inductive Loc
  | hbm (key : Nat)
  | host (func addr : Nat)
  | ue (key : Nat)
  | door (off : Nat)
deriving DecidableEq, Repr

/-- A request packet (R277). `place` is the requester's logical place, or 2^33 for the PCI Express endpoint and 2^34 + port for a UE
port; `idx` its number in the request. `sh`, `w0`, `w1` are the entry under which it was translated and `gen` when; `todo` its
granules not yet performed (offset and length), or the units of a bank operation; `psec` the memory sectors whose bytes carry
poison. `pieces` are those of its Span; `replay` is as for messages; parked and frozen, `gen` is when it was parked. `wrote` are the SRAM sectors that
its reply has reached already, `early` the source sectors that it has read (R299); `sent`: a packet to another device stands before a Welim port or
has passed it. `place` is 2^35 + its source place for a request of another device's (R209). -/
structure Pkt where
  place : Nat := 0
  slot : Nat := 0
  seq : Nat := 0
  idx : Nat := 0
  cid : Nat := 0
  kind : RKind := .get
  ord : Nat := 0
  op : Nat := 0
  w : Bool := false
  va : Nat := 0
  off : Nat := 0
  len : Nat := 0
  b : Nat := 0
  c : Nat := 0
  desc : List Nat := []
  data : List (BitVec 8) := []
  psec : NSet := []
  read : Bool := false
  st : PSt := .atStation
  station : Nat := 0
  sh : Nat := 0
  w0 : Nat := 0
  w1 : Nat := 0
  gen : Nat := 0
  loc : Loc := .hbm 0
  reason : Nat := 0
  todo : List (Nat × Nat) := []
  reply : Mem := []
  rpsec : NSet := []
  parts : List (Nat × List Nat × NSet) := []
  pieces : List (Nat × Nat × Nat × Nat) := []
  replay : Nat := 0
  wrote : NSet := []
  early : Early := {}
  sent : Bool := false
deriving DecidableEq, Repr

/-- A translation-cache entry of a station (R274): the CID, the page's first VA, the log of its size and its two entry words. -/
structure Tlb where
  cid : Nat := 0
  va : Nat := 0
  sh : Nat := 0
  w0 : Nat := 0
  w1 : Nat := 0
deriving DecidableEq, Repr

/-- A unit held in a cistern's bank row buffer (R289): the context and VA by which a bank operation read it, and where it lies. -/
structure RowBuf where
  cid : Nat := 0
  va : Nat := 0
  key : Nat := 0
  data : List (BitVec 8) := []
  poison : NSet := []
deriving DecidableEq, Repr

/-- A change of a mapping in progress (R276): the page, when each station dropped its entry, and the frames given up. `pkt` names the
queue packet that waits for it. -/
structure MapChange where
  va : Nat := 0
  sh : Nat := 0
  dropped : FMap Nat := []
  key : Option Nat := none
  pkt : Nat := 0
deriving DecidableEq, Repr

/-- Steps of a migration (R294). -/
inductive MigSt
  | freeze | drain | copy | switch
deriving DecidableEq, Repr

/-- A page in migration (R294): its VA, the log of its size, the address of its entry, and where it goes. -/
structure Migration where
  va : Nat := 0
  sh : Nat := 0
  at_ : Nat := 0
  st : MigSt := .freeze
  home : Nat := 0
  stack : Nat := 0
  frame : Nat := 0
  pkt : Nat := 0
deriving DecidableEq, Repr

/-! ## Contexts, queues and kernels -/

/-- Queue states (R354). -/
inductive QSt
  | free | active | blocked | error | suspended
deriving DecidableEq, Repr

/-- A queue record (R354) with the queue role's own tables: the TAIL it has `seen`, and the LSNs accepted, each with the packet that
bore it; `prev` is the state before Suspended. -/
structure Queue where
  base : Nat := 0
  prio : Nat := 0
  size : Nat := 0
  head : Nat := 0
  tail : Nat := 0
  seen : Nat := 0
  err : Nat := 0
  st : QSt := .free
  prev : QSt := .free
  lsn : Nat := 0
  lsns : FMap Nat := []
  destroy : Bool := false
deriving DecidableEq, Repr

/-- Where an admitted packet stands (R358). -/
inductive HSt
  | ready | running | depParked | waiting | done
deriving DecidableEq, Repr

/-- A queue packet in the pump house (R357–R365). -/
structure HPkt where
  id : Nat := 0
  cid : Nat := 0
  q : Nat := 0
  slot : Nat := 0
  words : List Nat := []
  st : HSt := .ready
  order : Nat := 0
  since : Nat := 0
  status : Nat := 0
  reason : Nat := 0
  effects : Bool := false
  aux : Nat := 0
deriving DecidableEq, Repr

/-- Kernel states (R352). -/
inductive KSt
  | queued | checking | loading | running | triggered | complete | refused | aborted
deriving DecidableEq, Repr

/-- A group entry as a kernel image defines it (R238, R344): index, NB, COLL, the four words, and the list as it was read (R241). -/
structure GroupDef where
  k : Nat := 0
  nb : Nat := 0
  coll : Bool := false
  w : List Nat := []
  list : Option (List Nat) := none
deriving DecidableEq, Repr

/-- A launched kernel (R345–R352): its image and arguments as read at the check, its footprint by logical place, the marks of its
tiles (triggers and done acknowledgements as sent and as arrived, by place), its group definitions with their lists, the entries its
launch bound, whether it has passed its checks, whether its dependants are released (R349), and the status it ended with. -/
structure Kern where
  cid : Nat := 0
  pkt : Nat := 0
  lsn : Nat := 0
  imgid : W64 := 0
  img : List (BitVec 8) := []
  args : List (BitVec 8) := []
  tiles : List Nat := []
  scope : Nat := 1
  early : Bool := false
  st : KSt := .queued
  loaded : NSet := []
  kicked : NSet := []
  trig : NSet := []
  done : NSet := []
  trigArr : NSet := []
  doneArr : NSet := []
  defs : List GroupDef := []
  groups : List Nat := []
  checked : Bool := false
  released : Bool := false
  status : Nat := 0
deriving DecidableEq, Repr

/-- Context states (R375). -/
inductive CtxSt
  | free | created | residentIdle | residentRunning | preempting | savedHeld | savedStored | restoring | faulted | destroyed
deriving DecidableEq, Repr

/-- A group-table entry's binding state (R243). -/
inductive GSt
  | unbound | binding | bound | releasing
deriving DecidableEq, Repr

/-- A packet in a context's overflow store (R210, R382): a message, or the reply of a memory request. -/
inductive Parked
  | msg (m : Msg)
  | reply (m : Pkt)
deriving DecidableEq, Repr

/-- A context record (R372) with what the pump house keeps beside it. `site` is the aligned block of physical tiles that its partition takes on this
device, those that stand elsewhere for disabled ones not counted (R13, R16): its first tile and its length; `claimed`: another context claims its held
tiles (R379). `m` is the measurement chain head. `saved` holds the
tile blocks' live contents by logical place while the context is Saved (R378, R379); `pins` the pages pinned, each with what pins
it (R293): 0 the MAP flag, 1 + k group entry k's list, 1000 + j aperture slot j. `comb`, `ccomb` and `scheds` are what a save has
copied from the switches, by logical position, and from the engines, with their tiles' places (R260, R342). -/
structure Ctx where
  st : CtxSt := .free
  func : Nat := 0
  shape : Nat := 0
  maxbudget : Nat := 0xFFFF
  restartmax : Nat := 3
  overlayOk : Bool := false
  debugOk : Bool := false
  root : Nat := 0
  saveva : Nat := 0
  ovfva : Nat := 0
  ovfsize : Nat := 1
  fringva : Nat := 0
  frlog : Nat := 6
  frvec : Nat := 0
  cnonce : List (BitVec 8) := []
  eptab : Nat := 0
  hwtab : Nat := 0
  job : Nat := 0
  pid : Nat := 0
  m : List (BitVec 8) := []
  events : Nat := 0
  slot : Nat := 0
  slice : Nat := 0
  sliceStart : Nat := 0
  site : Option (Nat × Nat) := none
  claimed : Bool := false
  queues : FMap Queue := []
  groups : FMap Group := []
  gst : FMap GSt := []
  inbox : List (Nat × List Nat) := []
  base : Nat := 0
  tiles : List Nat := []
  saved : FMap Tile := []
  captured : NSet := []
  evicted : NSet := []
  channelDrained : Bool := false
  parked : List Parked := []
  comb : FMap CombEnt := []
  ccomb : FMap CollEnt := []
  scheds : FMap Sched := []
  overflowUnits : Nat := 1
  lostParked : Nat := 0
  schedTrap : Bool := false
  trapTaken : Bool := false
  attached : Bool := false
  attachedEver : Bool := false
  restoredEver : Bool := false
  restarted : Bool := false
  traceva : Nat := 0
  tracelog : Nat := 0
  traceOn : Bool := false
  changes : List MapChange := []
  migs : List Migration := []
  pins : List (Nat × Nat) := []
  vecLost : Nat := 0
deriving DecidableEq, Repr

/-- A hash of an object in progress (R385, R387), with the sectors of leaves that are not done that have been read already (`early`, by their place
in the object): what it measures (bytes, or a range at `va`), the leaves done, the packet it is for
(`batch` likewise), and `fin`, the place of its digest's completion among all, 0 while leaves are missing. -/
structure Hashing where
  cid : Nat := 0
  ty : Nat := 0
  len : Nat := 0
  va : Nat := 0
  chunks : List (List (BitVec 8)) := []
  leaves : FMap (List (BitVec 8)) := []
  n : Nat := 0
  pkt : Nat := 0
  batch : Nat := 0
  fin : Nat := 0
  early : FMap (List (BitVec 8)) := []
deriving DecidableEq, Repr

/-! ## Links and the host -/

/-- Welim port states (R402, R410). -/
inductive WSt
  | down | detect | train | up | swap | retrain | degraded | failed
deriving DecidableEq, Repr

/-- A Welim port (R391–R402, R410). `sendq` holds the flits that wait, each alone; `replay` the packets sent and not acknowledged, oldest first; `outp` the packets
put on the wire, newest last, and `sets` the training sets with their lanes; `farRx` the lanes that the far end holds locked (R400); `smap` the logical lane on S; `lost` the lost physical lanes (16 is S); `acking` by channel the header of the
message that the last acknowledged packet carried; `echo` by lane the TTX of the latest training set received and GTIME then (R400). -/
structure Welim where
  st : WSt := .down
  txseq : Nat := 0
  acked : Nat := 4095
  replay : List LinkPkt := []
  sendq : List LinkPkt := []
  outp : List LinkPkt := []
  sets : List TrainSet := []
  farRx : Nat := 0
  rxseq : Nat := 0
  naked : Bool := false
  unacked : Nat := 0
  ackAt : Nat := 0
  txAt : Nat := 0
  credits : List Nat := [0, 0, 0, 0]
  back : List Nat := [0, 0, 0, 0]
  delivered : List (Nat × Nat × Nat × Nat) := []
  crcErr : Nat := 0
  smap : Option Nat := none
  swapLane : Option Nat := none
  swapQ : Option Nat := none
  swapAt : Nat := 0
  swapRep : Nat := 0
  lost : NSet := []
  width : Nat := 0
  group : Nat := 0
  version : Nat := 0
  vers : Nat := 0
  trainAt : Nat := 0
  rxok : Nat := 0
  doneCnt : FMap Nat := []
  echo : FMap (Nat × Nat) := []
  delay : Nat := 0
  retrains : Nat := 0
  replays : Nat := 0
  naks : List Nat := []
  acking : FMap Nat := []
  reason : Nat := 0
  log : LaneSample := {}
  weak : NSet := []
  hashed : Bool := false
  rr : Bool := false
deriving DecidableEq, Repr

/-- A function's firmware mailbox (R421): BELL, the response words and results, the request still being served, and REQ0, REQ1 and the operand
words as last written, by offset. `att` is the CID that the function attached last (R429). -/
structure Mailbox where
  bell : Nat := 0
  status : Nat := 0
  tok : Nat := 0
  results : List Nat := []
  req : Option Mbx := none
  words : FMap Nat := []
  att : Option Nat := none
deriving DecidableEq, Repr

/-- An aperture map entry (R411). -/
structure Aperture where
  v : Bool := false
  va : Nat := 0
  err : Bool := false
  cid : Nat := 0
deriving DecidableEq, Repr

/-- Where the boot stands (R414, R418). -/
inductive BootSt
  | off | ready | recovery
deriving DecidableEq, Repr

/-- A message that has left by a UE port (R405, R406): the port, the JOB and PID of its source, the four words of the endpoint that it goes to (none
for an answer, which goes where the message came from), and the match bits of a tagged send. -/
structure UeTx where
  port : Nat := 0
  job : Nat := 0
  pid : Nat := 0
  entry : List Nat := []
  match_ : Nat := 0
  msg : Msg := {}
deriving DecidableEq, Repr

/-- SHA3-384 of no byte (R384): the fused root-key digests of a device on which nothing has been fused, the model's choice (log 60). -/
def emptyDigest : List (BitVec 8) :=
  (List.range 48).map fun (i : Nat) => BitVec.ofNat 8
    (0x0c63a75b845e4f7d01107d852e4c2485c51a50aaaa94fc61995e71bbee983a2ac3713831264adb47fb6bd1e058d5f004 / 2 ^ (8 * (47 - i)))

/-- Boot, capabilities and service state (R414–R425). `roles` lists, by role (R367: queue, loader, pager, switcher, attestor, linker,
checkpoint), the primary and the standby service tile, each as 16·die + tile, and `widths` the pump-house tiles of each die; `laneErr` and
`laneMargin` are the thresholds of a weak lane (R394); `rootDigests` and `minVersion` are fused (R415); `spares` is the count that HEALTH shows;
`volts` is the DVFS point's voltage in mV; `units` are the 2 MiB units of function 0's reserve that are left (R382); `msixTable` holds
the MSI-X table words as last written (R413); `ueOut` are the messages that have left by a UE port. -/
structure Service where
  boot : BootSt := .off
  reason : Nat := 0
  did : List (BitVec 8) := []
  fwm : List (BitVec 8) := []
  abi : Nat := 2
  ceiling : Nat := 2200
  limit : Nat := 2200
  watts : Nat := 0
  capped : Bool := false
  throttled : NSet := []
  shutdown : Bool := false
  dvfs : Nat := 1600
  volts : Nat := 750
  stacksOk : Nat := 0
  clustersOk : Nat := 0
  roles : List (Nat × Nat) := []
  widths : List Nat := []
  rootDigests : List (BitVec 8) × List (BitVec 8) := (emptyDigest, emptyDigest)
  minVersion : Nat := 0
  spares : Nat := 0
  units : Nat := 0
  laneErr : Nat × Nat := (1, 100000)
  laneMargin : Nat := 150
  bw : Nat := 0
  rw : Nat := 0
  synced : Bool := false
  syncAt : Nat := 0
  gbase : Nat := 0
  flash : Mem := []
  idekey : Option Nat := none
  mailboxes : FMap Mailbox := []
  apertures : FMap Aperture := []
  jobs : FMap Nat := []
  msixPending : NSet := []
  msixSent : FMap Nat := []
  msixMask : NSet := []
  msixTable : FMap Nat := []
  reserve : List Nat := []
  hostReplies : List (Nat × List (BitVec 8)) := []
  hostSeq : Nat := 0
  ueOut : List UeTx := []
  ueReplies : List (Nat × Nat × List (BitVec 8)) := []
deriving DecidableEq, Repr

/-! ## The device -/

/-- Who moves next: a tile's thread, block `k` of the yoke that tile `p` leads, or one step of an engine (a row of the opcode table that is no instruction). -/
inductive Agent
  | thread (p : Nat)
  | block (p k : Nat)
  | joins (p : Nat)
  | saveAt (p : Nat)
  | watchHit (p k off wr : Nat)
  | watchTrap (p : Nat)
  | memberFault (p m : Nat)
  | ctxFault (c : Nat)
  | flush (p : Nat)
  | engineEcc (p : Nat)
  | accEcc (p : Nat)
  | unparkAt (k : Nat)
  | bar0Write (f o v : Nat)
  | eccOne (p : Nat)
  | door (c o : Nat) (d : List (BitVec 8))
  | trainSend (q lane : Nat)
  | readAhead (j i k : Nat)
  | earlyReply (n k : Nat)
  | earlySource (n k : Nat)
  | earlyData (n k : Nat)
  | earlyDrain (p k : Nat)
  | earlyRead (p k : Nat)
  | earlySend (p d k : Nat)
  | earlyTrough (p j k : Nat)
  | event (i : Instr)
deriving DecidableEq, Repr, Inhabited

/-- The pump house (R354–R370). `journal` lists, by packet, its admission, start and completion marks (R369); `unparks` the counters
(CID and VA) from which a dropped packet (queue and slot) is still to be taken (R361). -/
structure Pump where
  pkts : List HPkt := []
  nextId : Nat := 0
  kernels : FMap Kern := []
  signals : FMap (List Nat) := []
  hashes : List Hashing := []
  journal : FMap Nat := []
  unparks : List (Nat × Nat × Nat × Nat) := []
deriving DecidableEq, Repr

/-- The tree and the memory edge. `isolation` counts what each port discarded, `reports` are the CIDs and source places reported to the
pump house (R17); `firewall` is each die's firewall register (R368), a bit for each header class that it passes. `notices` are the stations'
fault notices to the pager (CID, VA, request kind; R275) and `malformed` the entries reported to it (CID and VA; R270). -/
structure Fabric where
  net : List Msg := []
  pkts : List Pkt := []
  nextPkt : Nat := 0
  comb : FMap CombEnt := []
  ccomb : FMap CollEnt := []
  scheds : FMap Sched := []
  member : NSet := []
  isolation : FMap Nat := []
  reports : List (Nat × Nat) := []
  firewall : FMap Nat := []
  notices : List (Nat × Nat × RKind) := []
  malformed : List (Nat × Nat) := []
  remap : FMap Nat := []
  rankCache : FMap (List (Nat × Nat × Nat × Nat)) := []
  tlb : FMap (List Tlb) := []
  hbm : Mem := []
  hpoison : NSet := []
  host : Mem := []
  ue : Mem := []
  rows : FMap (List RowBuf) := []
  cdtc : FMap (List (Nat × Nat × List Nat)) := []
  trace : FMap (List (List Nat)) := []
  traceLost : FMap Nat := []
deriving DecidableEq, Repr

/-- The whole device and the model's own scheduling fields: `agenda` the steps that follow at once, `picks` how many free
choices have been made, `free` how many free values have been taken, `cur` the tile whose bundle issues; `phase` and `issued` what has moved in
this clock cycle (R189): 0 arrivals, 1 completions, 2 threads, and the tiles whose threads have; `choices` the tiles that choose a record at the
end of the cycle (R221). -/
structure State where
  dev : Nat := 0
  tiles : FMap Tile := []
  fab : Fabric := {}
  ctxs : FMap Ctx := []
  pump : Pump := {}
  ports : FMap Welim := []
  svc : Service := {}
  now : Nat := 0
  clk : Nat := 0
  agenda : List Agent := []
  picks : Nat := 0
  free : Nat := 0
  cur : Nat := 0
  phase : Nat := 0
  issued : NSet := []
  choices : List Nat := []
deriving DecidableEq, Repr

/-- Why the machine stops with a fault. -/
inductive Fault where
  /-- An engine of the device was asked to move an object of a device that this one does not hold (another device of the
  domain). Raised by no step of this model; kept so that the type is not empty. Safe. -/
  | otherDevice
deriving DecidableEq, Repr

/-- Why a step has no meaning here. -/
inductive Refusal where
  /-- No meaning has been written for the instruction. Raised by the refused arms of exec only. Safe. -/
  | notModelled (mnemonic : String)
deriving DecidableEq, Repr

/-- The outcome of one step. -/
abbrev Out := Host.Outcome State Fault Refusal

/-- The device after power-good, before the boot sequence (R33, R35, R414). -/
def State.reset : State := {}

end Sys2Proof.Machine
end

