-- ==== Sys2Proof/Config.lean ====
section
/-!
DEFINITION. Sys2Proof/Config.lean: what the spec leaves open. Every name here is a constant without a body: nothing can be
proved of its value, so a claim holds whatever it is.
-/

namespace Sys2Proof.Config

/-- Who moves next when no step follows at once: the order of the tiles, engines and inputs is free (log 2). -/
opaque pick : Nat → Machine.Agent

/-- Tile clock cycles that pass before the n-th free choice (log 3). -/
opaque cycles : Nat → Nat

/-- Nanoseconds of GTIME that pass before the n-th free choice (log 3). -/
opaque nanos : Nat → Nat

/-- The n-th undefined 32-bit lane (R22, R139: a VFIL of a slot not spilled; log 5). -/
opaque lane : Nat → W32

/-- The n-th undefined byte (R33: SRAM, IMEM and HBM contents the spec calls undefined; log 5). -/
opaque byte : Nat → Byte

/-- The result of an instruction on operands for which the spec states none, by rule number and operand (log 6). -/
opaque unstated : Nat → Nat → Nat

/-- The Ed25519 signature of a message under the device's key (R389): 64 bytes (log 7). -/
opaque ed25519 : List Byte → List Byte

/-- The hedged ML-DSA-65 signature of a message under the device's key (R389): the n-th one made (log 7). -/
opaque mldsa : Nat → List Byte → List Byte

/-- The two public keys of the device (R389), Ed25519 then ML-DSA-65 (log 7). -/
opaque keys : List Byte × List Byte

/-- The table memory that the firmware keeps for page tables (R275, R293): free pairs of 4 KiB tables by device address (log 8). -/
opaque reserve : List Nat

/-- The 2 MiB units that function 0 sets aside for overflow stores (R382; log 8). -/
opaque units : Nat

/-- BW and RW of the board and rack switches (R14, R420): the installation's (log 8). -/
opaque topology : Nat × Nat

/-- This device's index in its domain (R10), which the fabric configuration decides (log 8). -/
opaque device : Nat

/-- The certificate chains of the capability list (R420), Ed25519 then ML-DSA-65 (log 7). -/
opaque certs : List Byte × List Byte

end Sys2Proof.Config
end

