-- ==== Sys2Proof/Machine/Place.lean ====
section
/-!
DEFINITION. Sys2Proof/Machine/Place.lean: places (R10, R11, R12): the endpoints of a device by their service index, the dies of tiles
and stacks, and which switches an endpoint hangs from (R14).
-/

namespace Sys2Proof.Machine

/-- The service tile `i` of a die among the device's tiles: the compute tiles are 0 to 2047, the service tiles follow by die (R9). -/
def serviceTile (die i : Nat) : Nat := 2048 + 16 * (die % 4) + i % 16

/-- The die of a physical tile (R9, R10). -/
def tileDie (p : Nat) : Nat := if p < 2048 then p / 512 else (p - 2048) / 16 % 4

/-- The die of a stack (R12). -/
def stackDie (st : Nat) : Nat := st / 3

/-- The place of a service endpoint by its die and service index (R10). -/
def svcPlace (dev die i : Nat) : Nat := 2 ^ 31 + dev * 2048 + die * 512 + i

/-- The physical place of a tile: a compute tile's, or a service-cluster tile's, service index 0 to 15 (R10, R11). -/
def tilePlace (dev p : Nat) : Nat := if p < 2048 then dev * 2048 + p else svcPlace dev (tileDie p) (p % 16)

/-- The place of a cistern by its stack and channel pair (R11, R12). -/
def cisternPlace (dev st c : Nat) : Nat := svcPlace dev (stackDie st) (16 + 16 * (st % 3) + c % 16)

/-- The place of the station of a stack (R11). -/
def stationPlace (dev st : Nat) : Nat := svcPlace dev (stackDie st) (64 + st % 3)

/-- The place of a Welim Link port, of a UE port, of the PCI Express endpoint and of a die collective engine (R11). -/
def welimPlace (dev q : Nat) : Nat := svcPlace dev (q / 2) (80 + q % 2)
def uePlace (dev q : Nat) : Nat := svcPlace dev (q / 2) (88 + q % 2)
def pciePlace (dev : Nat) : Nat := svcPlace dev 0 96
def enginePlace (dev die : Nat) : Nat := svcPlace dev die 100

/-- What a place names on its device (R11). -/
inductive Endpoint
  | tile (p : Nat)
  | cistern (stack pair : Nat)
  | station (stack : Nat)
  | welim (port : Nat)
  | ue (port : Nat)
  | pcie
  | engine (die : Nat)
deriving DecidableEq, Repr

/-- The endpoint of a place; a reserved service index names none (R10, R11). -/
def endpointOf (place : Nat) : Option Endpoint :=
  let die := bits place 10 9
  let i := place % 512
  if !bit place 31 then some (.tile (place % 2048))
  else if i < 16 then some (.tile (serviceTile die i))
  else if i < 64 then some (.cistern (3 * die + (i - 16) / 16) (i % 16))
  else if i < 67 then some (.station (3 * die + (i - 64)))
  else if i = 80 ∨ i = 81 then some (.welim (2 * die + (i - 80)))
  else if i = 88 ∨ i = 89 then some (.ue (2 * die + (i - 88)))
  else if i = 96 ∧ die = 0 then some .pcie
  else if i = 100 then some (.engine die)
  else none

/-- The levels of the switches above an endpoint (R14): a tile hangs from its cluster switch; a service tile from the service cluster's
switch, which hangs from the die root; every other service endpoint from the die root. -/
def levelsOf (place : Nat) : List Nat :=
  if !bit place 31 then [0, 1, 2, 3, 4, 5]
  else if place % 512 < 16 then [0, 2, 3, 4, 5]
  else [2, 3, 4, 5]

/-- Whether a list word is a remote endpoint reference (R240). -/
def ueRef (w : Nat) : Bool := bit w 31 && bits w 8 1 == 0xC0

end Sys2Proof.Machine
end

