-- ==== Sys2Proof/Machine/Ops.lean ====
section
/-!
DEFINITION. Sys2Proof/Machine/Ops.lean: the named operations of the tile that meanings share: registers, traps and the
trap path (R226), counters and the ready queue (R218–R221), the task boundary (R33, R34), sectors (R123).
-/

namespace Sys2Proof.Machine

/-! ## Tiles and agenda -/

/-- Tile `p` of the device. -/
def State.tile (s : State) (p : Nat) : Tile := FMap.get {} s.tiles p

/-- The device with tile `p` replaced. -/
def State.setTile (s : State) (p : Nat) (t : Tile) : State := { s with tiles := FMap.put s.tiles p t }

/-- The tile whose bundle issues. -/
def State.t (s : State) : Tile := s.tile s.cur

/-- The issuing tile replaced. -/
def State.setT (s : State) (t : Tile) : State := s.setTile s.cur t

/-- A change of one tile. -/
def State.onTile (s : State) (p : Nat) (f : Tile → Tile) : State := s.setTile p (f (s.tile p))

/-- A change of the issuing tile. -/
def State.onT (s : State) (f : Tile → Tile) : State := s.onTile s.cur f

/-- Steps that follow at once, before any other. -/
def State.push (s : State) (l : List Agent) : State := { s with agenda := l ++ s.agenda }

/-- The next free value's number. -/
def State.takeFree (s : State) : Nat × State := (s.free, { s with free := s.free + 1 })

/-- Context `c`. -/
def State.ctx (s : State) (c : Nat) : Ctx := FMap.get {} s.ctxs c

/-- A change of one context. -/
def State.onCtx (s : State) (c : Nat) (f : Ctx → Ctx) : State :=
  { s with ctxs := FMap.put s.ctxs c (f (s.ctx c)) }

/-- A change of the tree and the memory edge. -/
def State.onFab (s : State) (f : Fabric → Fabric) : State := { s with fab := f s.fab }

/-- A change of the pump house. -/
def State.onPump (s : State) (f : Pump → Pump) : State := { s with pump := f s.pump }

/-- GTIME (R28, R398). -/
def State.gtime (s : State) : Nat := (s.now + s.svc.gbase) % 2 ^ 64

/-- A tile's own logical place (R10, R13): where none has been given, the place of the physical tile. -/
def State.placeOf (s : State) (p : Nat) : Nat := ((s.tile p).place).getD (tilePlace s.dev p)

/-- The physical tile on which a context's logical tile place stands (R13). -/
def State.physOf (s : State) (cid place : Nat) : Nat :=
  FMap.get (place % 2048) s.fab.remap (cid * 2 ^ 32 + place)

/-! ## Tiles that are free (R9, R13, R16) -/

/-- Whether a physical tile's cluster is there (R420: HEALTH); the 33rd of a die is its service cluster. -/
def clusterOk (s : State) (p : Nat) : Bool := bit s.svc.clustersOk (33 * tileDie p + (if p < 2048 then p % 512 / 16 else 32))

/-- Whether a service tile stands as a repair spare: it is none of its die's pump-house tiles, and the pump house does not use it (R9, R367). -/
def isSpare (s : State) (p : Nat) : Bool :=
  decide (2048 ≤ p) && decide (p < 2112) && decide (s.svc.widths.getD (tileDie p) 16 ≤ p % 16) && !(s.svc.roles.any fun e => serviceTile (e.1 / 16) e.1 == p || serviceTile (e.2 / 16) e.2 == p)

/-- Whether a physical tile may join a partition: healthy and nobody's, with no gate pending (R425), and a service tile a spare. -/
def tileFree (s : State) (p : Nat) : Bool :=
  let t := s.tile p
  clusterOk s p && t.place.isNone && (t.life == .off || t.life == .reset || t.life == .idle) && !t.pend.gate && (decide (p < 2048) || isSpare s p)

/-- The service tiles that stand as free repair spares (R9, R420). -/
def spareTiles (s : State) : List Nat := ((List.range 64).map (2048 + ·)).filter (tileFree s)

/-! ## Traps: causes and their priority (R65) -/

/-- Cause codes of R65. -/
def cIllegalOp : Nat := 0x01
def cIllegalBundle : Nat := 0x02
def cBundleMem : Nat := 0x03
def cIllegalReg : Nat := 0x04
def cPriv : Nat := 0x05
def cAlign : Nat := 0x06
def cLocalRange : Nat := 0x07
def cWindow : Nat := 0x08
def cBank : Nat := 0x09
def cPoison : Nat := 0x0A
def cEccLocal : Nat := 0x0B
def cBudget : Nat := 0x0C
def cTrapi : Nat := 0x0D
def cBkpt : Nat := 0x0E
def cWatch : Nat := 0x0F
def cStep : Nat := 0x10
def cMemFault : Nat := 0x11
def cTenant : Nat := 0x12
def cGroup : Nat := 0x13
def cYoke : Nat := 0x14
def cReq : Nat := 0x15
def cTable : Nat := 0x16

/-- The rank of a precise cause in the order of R65. ECC_LOCAL, which a syllable raises for another bundle's fetch (R87), is asynchronous and
meets them first (R66); YOKE of a block's syllable (R316) stands after the list. -/
def rank (c : Nat) : Nat :=
  if c = 0x0B then 0 else if c = 0x02 then 1 else if c = 0x01 then 2 else if c = 0x04 then 3 else if c = 0x05 then 4
  else if c = 0x08 then 5 else if c = 0x07 then 6 else if c = 0x06 then 7 else if c = 0x09 then 8
  else if c = 0x16 then 9 else if c = 0x0A then 10 else if c = 0x03 then 11 else if c = 0x12 then 12
  else if c = 0x13 then 13 else if c = 0x0D then 14 else if c = 0x0E then 15 else 16

/-- The better of two traps by R65, the first where the ranks are equal. -/
def betterTrap (a b : TrapInfo) : TrapInfo := if rank b.cause < rank a.cause then b else a

/-- The first trap by R65 among the conditions that hold, in the list's order among equals. -/
def firstTrap : List (Bool × TrapInfo) → Option TrapInfo
  | [] => none
  | (c, x) :: r =>
    match c, firstTrap r with
    | false, o => o
    | true, none => some x
    | true, some y => some (betterTrap x y)

/-- A trap without subcode. -/
def tr (cause : Nat) (daddr : Nat := 0) : TrapInfo := { cause := cause, sub := 0, daddr := daddr }

/-! ## Groups: ranks to places (R239, R244) -/

/-- The five digits of SHAPE, tile first: width, stride, the coordinate's place in a place word, and its extent (R239). -/
def digits (shape : Nat) : List (Nat × Nat × Nat × Nat) :=
  [(bits shape 2 0, bits shape 35 32, 0, 16), (bits shape 6 4, bits shape 38 36, 4, 8), (bits shape 9 8, bits shape 41 40, 7, 4),
   (bits shape 13 12, bits shape 45 44, 9, 4), (bits shape 20 16, bits shape 63 48, 11, 2 ^ 20)]

/-- The place of a rank of an AFFINE group and whether every coordinate stays below its extent (R239). -/
def affine (base shape r : Nat) : Nat × Bool :=
  let x := (digits shape).foldl (fun (st : Nat × Nat × Bool) d =>
    let c := base / 2 ^ d.2.2.1 % d.2.2.2 + r / 2 ^ st.1 % 2 ^ d.1 * d.2.1
    (st.1 + d.1, st.2.1 + c * 2 ^ d.2.2.1, st.2.2 && decide (c < d.2.2.2))) (0, 0, true)
  x.2

/-- The membership slot that holds a group (R242), with its number. -/
def memberOf (t : Tile) (grp : Nat) : Option (Nat × Member) := t.comm.slots.find? fun e => decide (e.1 < 4) && e.2.grp == grp

/-- GRP unbound, or no membership slot holds it (R184, R250). -/
def groupBad (t : Tile) (grp : Nat) : Bool := !NSet.mem t.comm.bound grp || (memberOf t grp).isNone

/-- The size of a group the tile is a member of. -/
def groupSize (t : Tile) (grp : Nat) : Nat := match memberOf t grp with | some (_, m) => m.desc.size | none => 0

/-! ## The rank cache (R244) -/

/-- The word the cluster's rank cache holds for a rank. -/
def cached (s : State) (cl cid grp r : Nat) : Option Nat :=
  ((FMap.get [] s.fab.rankCache cl).find? fun e => e.1 == cid && e.2.1 == grp && e.2.2.1 == r).map fun e => e.2.2.2

/-- The entry of a rank made the most recently used. -/
def touch (cl cid grp r : Nat) (f : Fabric) : Fabric :=
  let l := FMap.get [] f.rankCache cl
  let hit := l.filter fun e => e.1 == cid && e.2.1 == grp && e.2.2.1 == r
  { f with rankCache := FMap.put f.rankCache cl (hit ++ l.filter fun e => !(e.1 == cid && e.2.1 == grp && e.2.2.1 == r)) }

/-- Words installed for ranks, the least recently used leaving beyond 64 entries. -/
def install (cl : Nat) (new : List (Nat × Nat × Nat × Nat)) (f : Fabric) : Fabric :=
  let l := (FMap.get [] f.rankCache cl).filter fun e => !new.any fun n => n.1 == e.1 && n.2.1 == e.2.1 && n.2.2.1 == e.2.2.1
  { f with rankCache := FMap.put f.rankCache cl ((new ++ l).take 64) }

/-- A rank resolved to its place (R244): by arithmetic, or from the rank cache; none on a miss. -/
def resolve (s : State) (p grp r : Nat) : Option Nat :=
  match memberOf (s.tile p) grp with
  | some (_, m) =>
    if m.desc.kind = 1 then some (affine m.desc.base m.desc.shape r).1 else cached s (p / 16) (s.tile p).sys.cid grp r
  | none => none

/-- The fields of an envelope word (R184). -/
def ewTag (w : Nat) : Nat := bits w 63 32
def ewGrp (w : Nat) : Nat := bits w 27 20
def ewRank (w : Nat) : Nat := bits w 19 0

/-- A send descriptor changed. -/
def setSend (d : Nat) (f : Send → Send) (t : Tile) : Tile :=
  { t with net := { t.net with sends := FMap.put t.net.sends d (f (FMap.get {} t.net.sends d)) } }

/-! ## Fences (R285, R290) -/

/-- Whether an open fence holds what was issued at `iss`. -/
def fenceHolds (t : Tile) (iss : Nat) : Bool := t.mreq.fences.any fun f => decide (f.seq < iss)

/-- Whether an open BFENCE holds it. -/
def bfenceHolds (t : Tile) (iss : Nat) : Bool := t.mreq.reqs.any fun e => e.2.kind == .bfence && decide (e.2.seq < iss)

/-! ## Held work (R224, R262, R334) -/

/-- A held thing discarded: its descriptor freed, its arrival taken back, its contribution's record Idle. -/
def dropHeld (t : Tile) : Held → Tile
  | .send d => { t with net := { t.net with sends := FMap.drop t.net.sends d } }
  | .arrive k _ =>
    { t with comm := { t.comm with bars := FMap.put t.comm.bars k { FMap.get {} t.comm.bars k with arrived := 0 } } }
  | .contrib k _ => { t with comm := { t.comm with colls := FMap.drop t.comm.colls k } }

/-- The task's held sends, arrivals and contributions discarded (R226 step 2). -/
def discardHeld (t : Tile) : Tile :=
  let t' := t.net.heldq.foldl dropHeld t
  { t' with net := { t'.net with heldq := [] } }

/-- One thing that waits to be sent released at GTIME `now` (R199, R262, R338), if it is not yet. -/
def releaseOne (now : Nat) (t : Tile) : Held → Tile
  | .send d => if (FMap.get {} t.net.sends d).state = 1 then setSend d (fun x => { x with state := 2, rtime := now }) t else t
  | .arrive k _ =>
    if (FMap.get {} t.comm.bars k).arrived = 1 then
      { t with comm := { t.comm with bars := FMap.put t.comm.bars k { FMap.get {} t.comm.bars k with arrived := 2 } } }
    else t
  | .contrib k _ =>
    { t with comm := { t.comm with colls := FMap.put t.comm.colls k { FMap.get {} t.comm.colls k with held := false } } }

/-- A thing whose release is asked for now: its place among the tile's requests and fences is that of its release (R285, R290). -/
def stamped (seq : Nat) : Held → Held
  | .send d => .send d
  | .arrive k _ => .arrive k seq
  | .contrib k _ => .contrib k seq

/-- Things that join `outq` in their order, each with its place. -/
def queueOut (l : List Held) (t : Tile) : Tile :=
  let t' := l.foldl (fun t h => match h with | .send d => setSend d (fun x => { x with iss := t.mreq.seq }) t | _ => t) t
  { t' with net := { t'.net with outq := t'.net.outq ++ l.map (stamped t.mreq.seq) } }

/-- Whether an open fence holds the release of something in `outq` (R285, R290). -/
def heldBack (t : Tile) (h : Held) : Bool :=
  let i := match h with | .send d => (FMap.get {} t.net.sends d).iss | .arrive _ i => i | .contrib _ i => i
  fenceHolds t i || bfenceHolds t i

/-- What is in `outq` and no fence holds is released, in its order. -/
def releaseOut (now : Nat) (t : Tile) : Tile :=
  t.net.outq.foldl (fun t h => if heldBack t h then t else releaseOne now t h) t

/-- The released sends resolved in release order, as far as no rank is missing from the rank cache (R244). -/
def resolveOut (p : Nat) (s : State) : State :=
  let t := s.tile p
  (t.net.outq.foldl (fun (st : State × Bool) h =>
    match st.2, h with
    | true, .send d =>
      let x := FMap.get ({} : Send) (st.1.tile p).net.sends d
      if x.res || x.state != 2 then st
      else match resolve st.1 p (ewGrp x.ew) (ewRank x.ew) with
        | some v =>
          ((st.1.onTile p (setSend d fun x => { x with res := true, dest := v })).onFab
            (touch (p / 16) t.sys.cid (ewGrp x.ew) (ewRank x.ew)), true)
        | none => (st.1, false)
    | _, _ => st) (s, true)).1

/-- The releases that are due take place: what no fence holds is released at this GTIME, and the sends among it are resolved. -/
def settle (p : Nat) (s : State) : State := resolveOut p (s.onTile p (releaseOut s.gtime))

/-- The task's held work released in issue order (R224): the network interface takes it from `outq`. -/
def releaseHeld (p : Nat) (s : State) : State :=
  settle p (s.onTile p fun t =>
    let t' := queueOut t.net.heldq t
    { t' with net := { t'.net with heldq := [] } })

/-- The task made Exposed (R224). -/
def expose (t : Tile) : Tile := { t with task := { t.task with run := { t.task.run with exposed := true } } }

/-- Something held with the task's sends, or its release asked for at once if the task is Exposed (R224); what the task holds already stays
held (R188). -/
def hold (h : Held) (t : Tile) : Tile :=
  if t.task.run.exposed then queueOut [h] t else { t with net := { t.net with heldq := t.net.heldq ++ [h] } }

/-- Something held on tile `p` with the task's sends; released, as far as no fence holds it, where the task is Exposed. -/
def holdAt (p : Nat) (h : Held) (s : State) : State :=
  let s' := s.onTile p (hold h)
  if (s.tile p).task.run.exposed then settle p s' else s'

/-! ## The ready queue and dispatch (R218–R223) -/

/-- The lowest of the first `n` keys that a table does not list (log 110: the order in which free entries are taken). -/
def freeKey {α : Type} (m : FMap α) (n : Nat) : Option Nat :=
  (List.range n).find? fun k => m.all fun e => e.1 != k

/-- A record pushed for slot `i` with a cause and the slot's present ENTRY and PRIO (R218, R220), in the lowest free record; `info` is the
message that its TAG and GROUP name (R435), and `acct` holds where a zero event pushes it (R436). -/
def pushSlot (i cause : Nat) (info : Option MsgInfo) (acct : Bool) (k : Task) : Option Task :=
  let d := FMap.get {} k.slots i
  match freeKey k.recs 128 with
  | none => none
  | some r => some { k with
      recs := FMap.put k.recs r { seq := k.seq, entry := d.entry, cause := cause, prio := d.prio, slot := i, info := info, acct := acct },
      seq := k.seq + 1 }

/-- Counter `i`'s zero event kept as PENDING, with the message that made it. -/
def keepPending (i : Nat) (k : Task) : Task :=
  let c := FMap.get {} k.ctrs i
  { k with ctrs := FMap.put k.ctrs i { c with pending := true, pinfo := c.info } }

/-- The zero event that PENDING keeps for counter `i` pushed as a record with a cause, while records are free. -/
def pushPending (i cause : Nat) (k : Task) : Task :=
  let c := FMap.get {} k.ctrs i
  match pushSlot i cause c.pinfo true k with
  | some k' => { k' with ctrs := FMap.put k'.ctrs i { c with pending := false, pinfo := none } }
  | none => k

/-- Records made for bound slots with PENDING = 1, in ascending slot order, while records are free (R218). -/
def drainPending (k : Task) : Task :=
  (List.range 64).foldl (fun k i =>
    if (FMap.get {} k.ctrs i).pending && (FMap.get {} k.slots i).bound then
      pushPending i 0 k
    else k) k

/-- A zero event of counter `i` on the task unit (R218). -/
def zeroEvent (i : Nat) (k : Task) : Task :=
  let d := FMap.get {} k.slots i
  let c := FMap.get {} k.ctrs i
  let c := if d.bound && d.ar then { c with count := d.reload } else c
  if c.pending then { k with ctrs := FMap.put k.ctrs i { c with overrun := true } }
  else
    let k' := { k with ctrs := FMap.put k.ctrs i c }
    if d.bound then (pushSlot i 0 c.info true k').getD (keepPending i k') else keepPending i k'

/-- One decrement of counter `i` (R218): the task unit after it, and whether it was a zero event. -/
def decTask (i : Nat) (k : Task) : Task × Bool :=
  let c := FMap.get {} k.ctrs i
  if c.count = 0 then ({ k with ctrs := FMap.put k.ctrs i { c with overrun := true } }, false)
  else if c.count = 1 then (zeroEvent i { k with ctrs := FMap.put k.ctrs i { c with count := 0 } }, true)
  else ({ k with ctrs := FMap.put k.ctrs i { c with count := c.count - 1 } }, false)

/-- A sleeping bundle sees a zero event of counter `i` (R93). -/
def sleepSees (i : Nat) (w : Nat × Wait) : Nat × Wait :=
  match w with
  | (pos, .sleep dl m seen) => if bit m i && !bit seen i then (pos, .sleep dl m (seen + 2 ^ i)) else w
  | _ => w

/-- A dispatchable record exists (R221). -/
def dispatchable (k : Task) : Bool := k.recs.any fun e => !e.2.hold && !e.2.run

/-- A tile that may dispatch: Idle, its context resident, nothing pending, a record ready (R221). -/
def canDispatch (t : Tile) : Bool :=
  t.life == .idle && t.resident && !t.pend.save && !t.pend.stop && !t.pend.gate && !t.pend.halt && t.pend.join.isEmpty && dispatchable t.task

/-- A tile that may dispatch chooses its record at the end of this cycle (R221). -/
def wakeDispatch (p : Nat) (s : State) : State :=
  if canDispatch (s.tile p) && !s.choices.contains p then { s with choices := s.choices ++ [p] } else s

/-- One decrement of counter `i` of tile `p` by an event that names it (R217, R218); `info` is a receive's message. -/
def decCounterBy (p i : Nat) (info : Option MsgInfo) (s : State) : State :=
  let t := s.tile p
  let r := decTask i { t.task with ctrs := FMap.put t.task.ctrs i { FMap.get {} t.task.ctrs i with info := info } }
  wakeDispatch p (s.setTile p { t with task := r.1, wait := if r.2 then t.wait.map (sleepSees i) else t.wait })

/-- One decrement by anything but a receive. -/
def decCounter (p i : Nat) (s : State) : State := decCounterBy p i none s

/-- A decrement where a counter field has CE = 1 (R183 bits [63:56], R176 bits [7:0]: bit 7 CE, [5:0] CNT). -/
def decField (p cntf : Nat) (s : State) : State :=
  if bit cntf 7 then decCounter p (cntf % 64) s else s

/-- The key of the best of some records: the highest level, the oldest of it, or the oldest of all when DC = 7 (R221). -/
def chooseRec (dc seq : Nat) (l : List (Nat × Rec)) : Option (Nat × Rec) :=
  let age (r : Rec) : Nat := seq - r.seq
  let better (a b : Nat × Rec) : Bool :=
    if dc = 7 || a.2.prio = b.2.prio then age b.2 > age a.2 || (age b.2 = age a.2 && b.1 < a.1)
    else b.2.prio > a.2.prio
  l.foldl (fun o e => match o with | none => some e | some b => if better b e then some e else o) none

/-! ## The task boundary (R33, R34) -/

/-- A trace record's 8 words (R435): place and tag; group, kind, entry, cycles; ACTW; start; end; how and cause. -/
def traceRec (place kind entry cycles : Nat) (actw start fin how cause : Nat) (m : Option MsgInfo) : List Nat :=
  let v := match m with | some x => (x.tag, x.grp, 16) | none => (0, 0, 0)
  [place + v.1 * 2 ^ 32, v.2.1 + (kind + v.2.2) * 2 ^ 8 + entry * 2 ^ 16 + cycles % 2 ^ 32 * 2 ^ 32, actw, start, fin,
   how + cause * 256, 0, 0]

/-- A record appended, with its context, to the tile's cluster trace buffer; the first record written after some were lost is a LOST record
with their number; what finds no space is dropped and counted (R434). -/
def addTrace (p : Nat) (r : List Nat) (s : State) : State :=
  let b := FMap.get [] s.fab.trace (p / 16)
  let lost := FMap.get 0 s.fab.traceLost (p / 16)
  let cid := (s.tile p).sys.cid
  let told := decide (lost ≠ 0) && decide (b.length < 1024)
  let b := if told then b ++ [traceRec (s.placeOf p) 1 0 lost 0 0 s.gtime 0 0 none ++ [cid]] else b
  let lost := if told then 0 else lost
  let room := decide (b.length < 1024)
  s.onFab fun f => { f with
    trace := FMap.put f.trace (p / 16) (if room then b ++ [r ++ [cid]] else b)
    traceLost := FMap.put f.traceLost (p / 16) (if room then lost else lost + 1) }

/-- Cycles the running task has run (R225): the count starts with its first bundle and stands still while the tile does not run it. -/
def ranCycles (s : State) (t : Tile) : Nat :=
  t.task.run.used + (if t.life == .running && !t.task.run.fresh then s.clk - t.task.run.start else 0)

/-- The record of an activation that ends (R435): 0 TEND, 1 TYIELD, 2 trap with its cause, 3 step-suspended. -/
def traceEnd (p how cause : Nat) (s : State) : State :=
  let t := s.tile p
  let r := FMap.get {} t.task.recs t.task.run.idx
  addTrace p (traceRec (s.placeOf p) 0 r.entry (ranCycles s t) t.sys.actw.toNat t.task.run.gstart s.gtime how cause r.info) s

/-- The tile's next life-cycle state at a task boundary: save, then debug stop, then yoke join, then Idle (R33, R34). -/
def boundaryLife (t : Tile) : Life :=
  if t.pend.save then .saving else if t.pend.stop then .stopped else if !t.pend.join.isEmpty then .member else .idle

/-- A STOP record where the boundary takes a debug stop (R432, R435). -/
def stopTrace (p : Nat) (s : State) : State :=
  let t := s.tile p
  if !t.pend.save && t.pend.stop then
    addTrace p (traceRec (s.placeOf p) 2 0 t.dbg.stopSkid t.sys.actw.toNat 0 s.gtime 0 0 none) s
  else s

/-- The end of a task (R33, R34): the pending request is taken, or the tile is Idle; the watchdog's count stops (R225). With `choose` the next
record is chosen at the end of the cycle (R221); after an asynchronous cause, for which R221 names no cycle, at some later time (log 106). A
matrix command that runs as the tile is Stopped is finished (R432); in step mode none runs (R433). -/
def boundaryThen (choose : Bool) (p : Nat) (s : State) : State :=
  let s := stopTrace p s
  let t := s.tile p
  let life := if t.dbg.stepping then Life.stopped else boundaryLife t
  let t' := { t with
    life := life,
    pend := { t.pend with save := t.pend.save && life != .saving, stop := t.pend.stop && life != .stopped },
    dbg := { t.dbg with stepN := 0, stepping := false, suspended := false, watch := none, skid := 0 },
    task := { t.task with run := { t.task.run with used := ranCycles s t, start := s.clk } },
    mx := { t.mx with started := if t.dbg.stepping then t.mx.started else life == .stopped && !t.mx.queue.isEmpty },
    bun := {}, wait := [], woken := [], issuePre := none, async := [] }
  let s := s.setTile p t'
  match life with
  | .member => s.push [.joins p]
  | .saving => s.push [.saveAt p]
  | _ => if choose then wakeDispatch p s else s

/-- The task boundary after which the next record is chosen. -/
def boundary (p : Nat) (s : State) : State := boundaryThen true p s

/-! ## The yoke's end (R325, R326) -/

/-- Member `k` of the yoke that tile `p` leads: tile L + k of its cluster (R314). -/
def yokeTile (s : State) (p k : Nat) : Nat := if k = 0 then p else s.physOf (s.tile p).sys.cid (s.placeOf p + k)

/-- The members of a yoke of `n` tiles other than the leader. -/
def yokeMembers (s : State) (p n : Nat) : List Nat := (List.range (n - 1)).map fun i => yokeTile s p (i + 1)

/-- Whether tile `q` has joined the yoke that tile `p` leads: a member in the same logical cluster of the same context (R13) that shows p's number as
its LEADER (R314). -/
def isMember (s : State) (p q : Nat) : Bool :=
  let t := s.tile q
  (t.life == .member || t.life == .faulted) && t.yk.st == .yoked && t.sys.cid == (s.tile p).sys.cid && s.placeOf q / 16 == s.placeOf p / 16
    && t.yk.leader == s.placeOf p % 16 && q != p

/-- Tile `p` no longer asks tile `q` to join; a member that it has is released: it returns to Idle, takes a pending request, and
dispatches (R312, R325, R326). Other leaders' requests stay. -/
def releaseMember (p : Nat) (s : State) (q : Nat) : State :=
  let t := s.tile q
  let t' := { t with pend := { t.pend with join := t.pend.join.filter (· != p) } }
  if t.life == .member && (isMember s p q || t.yk.st == .single) then boundary q (s.setTile q { t' with yk := {} })
  else s.setTile q { t' with yk := if isMember s p q then {} else t.yk }

/-- A tile whose allotted v registers hold free values (R325, R326; log 5). -/
def undefinedV (q : Nat) (s : State) : State :=
  let k := s.free
  { s.onTile q fun t => { t with regs := { t.regs with v := (List.range (16 * t.sys.va)).foldl (fun m i => FMap.put m i (Config.lane (k + i))) t.regs.v } } with
    free := k + 512 }

/-- The accumulators of a tile that are not allotted hold free values (R165, R182; log 5). -/
def undefinedAcc (p : Nat) (s : State) : State :=
  let k := s.free
  { s.onTile p fun t => { t with regs := { t.regs with
      acc := (List.range (1024 * (16 - t.sys.aa))).foldl (fun m i => FMap.put m (1024 * t.sys.aa + i) (Config.lane (k + i))) t.regs.acc } } with
    free := k + 16384 }

/-- A member of a yoke that has been formed is released: its v registers are undefined (R325, R326). -/
def releaseYoked (p : Nat) (s : State) (q : Nat) : State :=
  releaseMember p (if isMember s p q && (s.tile q).life == .member then undefinedV q s else s) q

/-- The yoke that tile `p` leads, ended: the window squashed, the members released. -/
def endYoke (p : Nat) (s : State) : State :=
  let y := (s.tile p).yk
  let s := s.onTile p fun t => { t with yk := { pred := t.yk.pred } }
  if y.st == .single then s
  else (yokeMembers s p y.n).foldl (if y.st == .forming then releaseMember p else releaseYoked p) s

/-- The yoke ended without a gather, by a trap or by TEND (R325, R326): the leader, member 0, has undefined v registers too once blocks
have run. Before the debug causes the registers are gathered. -/
def dissolveYoke (gather : Bool) (p : Nat) (s : State) : State :=
  let y := (s.tile p).yk
  endYoke p (if gather || y.st == .single || !y.blocks then s else undefinedV p s)

/-! ## The trap path (R226, R227) -/

/-- FAULTC's word (R30). -/
def faultcWord (sub skid slot : Nat) (blk asy : Bool) (cause : Nat) : W64 :=
  BitVec.ofNat 64 (sub * 2 ^ 32 + skid * 2 ^ 16 + slot * 2 ^ 10 + b2n blk * 2 ^ 9 + b2n asy * 2 ^ 8 + cause)

/-- FAULTA's word (R30). -/
def faultaWord (daddr baddr : Nat) : W64 := BitVec.ofNat 64 (daddr % 2 ^ 32 * 2 ^ 32 + baddr % 2 ^ 15)

/-- The fault record of R227 as eight words. -/
def faultRecord (s : State) (p : Nat) (yoked : Bool) : List Nat :=
  let t := s.tile p
  [t.sys.faultc.toNat, t.sys.faulta.toNat, t.sys.actw.toNat,
   s.placeOf p + (b2n t.task.run.exposed + 2 * b2n t.task.run.nr + 4 * b2n yoked) * 2 ^ 32,
   s.gtime, t.sys.imgid.toNat, t.task.run.idx, 0]

/-- A fault record sent to the pager of the tile's context (R226 step 4). -/
def toPager (p : Nat) (r : List Nat) (s : State) : State :=
  s.onCtx (s.tile p).sys.cid fun c => { c with inbox := c.inbox ++ [(s.placeOf p, r)] }

/-- A fault of an activation that no longer runs (R280, R340): its record goes to the pager with index 0xFFFF_FFFF; the pager then faults
the context (R228). -/
def orphanFault (p : Nat) (ti : TrapInfo) (actw : W64) (s : State) : State :=
  let t := s.tile p
  let r := [(faultcWord ti.sub 0 (actw.toNat % 64) false true ti.cause).toNat, (faultaWord ti.daddr 0).toNat, actw.toNat, s.placeOf p,
            s.gtime, t.sys.imgid.toNat, 0xFFFFFFFF, 0]
  toPager p r s

/-- The record of the running task after a trap: RUN = 0, HOLD = 1 (R226 step 3). -/
def holdRec (t : Tile) (ti : TrapInfo) : Tile :=
  let r := FMap.get {} t.task.recs t.task.run.idx
  let r' := { r with run := false, hold := true, asn := t.task.asn, exposed := t.task.run.exposed, nr := t.task.run.nr,
                     trapc := ti.cause, imem := ti.imem }
  { t with task := { t.task with recs := FMap.put t.task.recs t.task.run.idx r' } }

/-- TAKING A TRAP (R226) on tile `p`: FAULTC and FAULTA written, the held sends discarded, the record held, the fault
record sent to the pager, the tile Idle and dispatching on (R221). `blk` marks a trap of a yoked block (R325), whose header is then
BADDR; `asy` an asynchronous cause, as YOKE and ECC_LOCAL always are (R65). The yoke, if there is one, is dissolved. -/
def takeTrapAt (p : Nat) (ti : TrapInfo) (skid baddr : Nat) (blk asy : Bool) (s : State) : State :=
  let y := (s.tile p).yk.st == .yoked || (s.tile p).yk.st == .draining
  let s := s.onTile p fun t => { t with sys := { t.sys with
    faultc := faultcWord ti.sub skid t.task.run.slot blk (asy || ti.cause == cYoke || ti.cause == cEccLocal) ti.cause, faulta := faultaWord ti.daddr baddr } }
  let s := s.onTile p fun t => holdRec (discardHeld t) ti
  let s := toPager p (faultRecord s p y) s
  boundaryThen (!(asy || ti.cause == cYoke || ti.cause == cEccLocal)) p
    (dissolveYoke (ti.cause == cBkpt || ti.cause == cWatch || ti.cause == cStep) p (traceEnd p 2 ti.cause s))

/-- The running task abandoned at a bundle boundary (R376 step 1): its held work is discarded and every record freed, and no fault
record is sent. The activation of a step-suspended task ends so (R435: HOW 3). -/
def abandon (p : Nat) (s : State) : State :=
  let s := if (s.tile p).dbg.suspended then traceEnd p 3 0 s else s
  let s := s.onTile p fun t =>
    let t := discardHeld t
    { t with task := { t.task with recs := [] } }
  boundary p (dissolveYoke false p s)

/-- A precise trap of the syllable in execution (R65, R226): in a bundle of one syllable it is taken at once; in a bundle of
several the first by R65 is kept until the bundle closes. -/
def raise (ti : TrapInfo) (s : State) : State :=
  let b := s.t.bun
  let ti := if ti.cause = cEccLocal then ti else { ti with sub := ti.sub + b.pos }
  if b.coll || b.blk.isSome then
    match b.trap with
    | none => s.onT fun t => { t with bun := { t.bun with trap := some (b.pos, ti) } }
    | some (pos, o) =>
      if rank ti.cause < rank o.cause || (rank ti.cause = rank o.cause && b.pos < pos) then
        s.onT fun t => { t with bun := { t.bun with trap := some (b.pos, ti) } }
      else s
  else takeTrapAt s.cur ti 0 b.addr false false s

/-- An asynchronous cause kept for the next bundle boundary (R66). -/
def raiseAsync (p : Nat) (ti : TrapInfo) (s : State) : State :=
  s.onTile p fun t => { t with async := t.async ++ [ti] }

/-! ## Registers (R20, R73) -/

/-- The system registers as they stood before the bundle (R39). -/
def preSys (t : Tile) : Sys := match t.bun.pre with | some x => x.sys | none => t.sys

/-- A tile as it stood before the bundle, in all that its syllables read (R7, R42). -/
def preTile (t : Tile) : Tile :=
  match t.bun.pre with
  | some x => { t with sys := x.sys, sram := x.sram, full := x.full, poison := x.poison, regs := x.regs, spill := x.spill, task := x.task, net := x.net }
  | none => t

/-- What a bundle of several syllables keeps of the tile before it. -/
def preOf (t : Tile) : Pre :=
  { sys := t.sys, sram := t.sram, full := t.full, poison := t.poison, regs := t.regs, spill := t.spill, task := t.task, net := t.net }

/-- The registers as they stood before the bundle (R7, R42). -/
def preRegs (t : Tile) : Regs := match t.bun.pre with | some x => x.regs | none => t.regs

/-- g[n]; g0 reads zero. -/
def rg (s : State) (n : Nat) : W64 := if n = 0 then 0 else FMap.get 0 s.t.regs.g n

/-- p[n]; p0 reads true. -/
def rp (s : State) (n : Nat) : Bool := n % 8 == 0 || NSet.mem s.t.regs.p (n % 8)

/-- q[n]; q0 reads all ones. -/
def rq (s : State) (n : Nat) : BitVec 16 := if n % 8 = 0 then 0xFFFF else FMap.get 0 s.t.regs.q (n % 8)

/-- Lane i of v[n] as it stood before the bundle: a control-space store of the bundle may change a lane that no syllable names (R7, R26). -/
def rv (s : State) (n i : Nat) : W32 := FMap.get 0 (preRegs s.t).v (16 * n + i)

/-- The guard (R44): GN negates. -/
def guardOf (g : Nat) (n : Bool) (s : State) : Bool := rp s g != n

/-- The YOKE trap with its subcode (R325). -/
def yokeTrap (sub : Nat) : TrapInfo := { cause := cYoke, sub := sub * 256, daddr := 0 }

/-- Whether a yoked block's write mask shuts register `n` out (R316). -/
def maskedG (s : State) (n : Nat) : Bool := match s.t.bun.blk with | some b => !bit b.gmask n | none => false
def maskedV (s : State) (n : Nat) : Bool := match s.t.bun.blk with | some b => !bit b.vmask n | none => false

/-- g[n] written; a write to g0 is discarded (R20); outside a yoked block's mask it raises YOKE MASK (R316). -/
def wg (n : Nat) (v : W64) (s : State) : State :=
  if n = 0 then s
  else if maskedG s n then raise (yokeTrap 2) s
  else s.onT fun t => { t with regs := { t.regs with g := FMap.put t.regs.g n v } }

/-- p[n] written; a write to p0 is discarded. -/
def wp (n : Nat) (v : Bool) (s : State) : State :=
  if n % 8 = 0 then s else s.onT fun t => { t with regs := { t.regs with p := FMap.set false t.regs.p (n % 8) v } }

/-- q[n] written; a write to q0 is discarded. -/
def wq (n : Nat) (v : BitVec 16) (s : State) : State :=
  if n % 8 = 0 then s else s.onT fun t => { t with regs := { t.regs with q := FMap.put t.regs.q (n % 8) v } }

/-- The lanes of v[n] that `f` gives are written; the others keep their values. -/
def wv (n : Nat) (f : Nat → Option W32) (s : State) : State :=
  if maskedV s n then raise (yokeTrap 2) s
  else s.onT fun t => { t with regs := { t.regs with
    v := (List.range 16).foldl (fun m i => match f i with | some x => FMap.put m (16 * n + i) x | none => m) t.regs.v } }

/-! ## Stalls (R43) -/

/-- The syllable in execution stalls its bundle (R43). -/
def stall (w : Wait) (s : State) : State := s.onT fun t => { t with wait := t.wait ++ [(t.bun.pos, w)] }

/-- What a finished wait of this syllable brought. -/
def wokenVal (s : State) : Option Nat := (s.t.woken.find? fun e => e.1 == s.t.bun.pos).map (·.2)

/-- The waits of tile `p` that a test accepts are over; with none left the thread goes on at once. -/
def wake (p : Nat) (f : Wait → Bool) (s : State) : State :=
  let t := s.tile p
  let left := t.wait.filter fun e => !f e.2
  if left.length = t.wait.length then s
  else
    let s := s.setTile p { t with wait := left }
    if left.isEmpty then s.push [.thread p] else s

/-- The waits of tile `p` for which a test finds a value are over, and the value is what they brought. -/
def wakeVal (p : Nat) (f : Wait → Option Nat) (s : State) : State :=
  let t := s.tile p
  let vals := t.wait.filterMap fun e => (f e.2).map fun v => (e.1, v)
  wake p (fun w => (f w).isSome) (s.setTile p { t with woken := t.woken ++ vals })

/-! ## Stopped and frozen tiles (R432, R433) -/

/-- The waits of a stepped bundle for which the engines run (R433): those of LDF, LDFC, VLDF, SLEEP, MWAIT, MRDF, RWAIT, GPLACE, BWAIT, a fetch
atomic and PQRY. -/
def engineWait : Wait → Bool
  | .full _ => true
  | .sleep _ _ _ => true
  | .mwait _ => true
  | .mrdf _ => true
  | .rwait _ => true
  | .gplace _ _ => true
  | .bwait _ _ => true
  | .atomic _ => true
  | .pqry _ => true
  | .allot _ _ => false
  | .tload _ => false
  | .mqueue => false
  | .yoke => false
  | .fence => false

/-- Whether a tile's engines run: not while it is Stopped, and in step mode only while its stepped bundle waits on an engine event. -/
def engLive (t : Tile) : Bool :=
  t.life != .stopped && t.life != .off && t.life != .faulted && (!t.dbg.stepping || t.wait.any fun e => engineWait e.2)

/-! ## Sectors and SRAM (R122–R125) -/

/-- The sectors that `n` bytes from offset `o` touch. -/
def sectorsOf (o n : Nat) : List Nat := if n = 0 then [] else (List.range ((o + n - 1) / 32 + 1 - o / 32)).map (· + o / 32)

/-- The sectors that the pieces of one write touch. -/
def pieceSectors (ps : List (Nat × List Byte)) : List Nat := (ps.flatMap fun e => sectorsOf e.1 e.2.length).eraseDups

/-- Whether the pieces of one write cover every byte of a sector ("clean cover", R123). -/
def covers (ps : List (Nat × List Byte)) (sec : Nat) : Bool :=
  (List.range 32).all fun j => ps.any fun e => decide (e.1 ≤ 32 * sec + j) && decide (32 * sec + j < e.1 + e.2.length)

/-- One write of several pieces, in their order, with its FULL and poison changes (R123). -/
def Tile.writeAll (t : Tile) (ps : List (Nat × List Byte)) (fe carry : Bool) : Tile :=
  let secs := pieceSectors ps
  { t with
    sram := ps.foldl (fun m e => Mem.setBytes m e.1 e.2) t.sram
    poison := if carry then NSet.addAll t.poison secs else NSet.delAll t.poison (secs.filter (covers ps))
    full := if fe then NSet.addAll t.full secs else t.full }

/-- One write of consecutive bytes. -/
def Tile.write (t : Tile) (o : Nat) (d : List Byte) (fe carry : Bool) : Tile := t.writeAll [(o, d)] fe carry

/-- Whether any sector that the bytes touch is poisoned (R124). -/
def Tile.poisoned (t : Tile) (o n : Nat) : Bool := (sectorsOf o n).any (NSet.mem t.poison)

/-- The accesses a watchpoint counts and its range (R430): whether watchpoint k of a tile is touched, and where first. -/
def watchHit (t : Tile) (k : Nat) (eng wr : Bool) (o n : Nat) : Option Nat :=
  let c := (FMap.get 0 t.sys.wpc k).toNat
  let lo := (FMap.get 0 t.sys.wpa k).toNat / 2 ^ bits c 12 8 * 2 ^ bits c 12 8
  let hi := lo + 2 ^ bits c 12 8
  if bit c 0 && bit c (if wr then 2 else 1) && bit c (if eng then 4 else 3) && decide (0 < n) && decide (o < hi) && decide (lo < o + n)
  then some (if o < lo then lo else o) else none

/-- The tile whose task a watchpoint of tile `p` stops (R431): its own, or the leader of the yoke that it has joined (R325). -/
def watchTile (s : State) (p : Nat) : Nat :=
  let t := s.tile p
  if t.life == .member && t.yk.st == .yoked then s.physOf t.sys.cid (s.placeOf p - t.yk.idx) else p

/-- An access to a tile's SRAM noted for its watchpoints (R431): each hit follows at once, and after the last of
them a thread's trap. -/
def noteAccess (p : Nat) (eng wr : Bool) (o n : Nat) (s : State) : State :=
  let hits := (List.range 4).filterMap fun k =>
    (watchHit (s.tile p) k eng wr o n).map fun a => Agent.watchHit p k a (b2n wr + 2 * b2n eng)
  let l := watchTile s p
  if hits.isEmpty then s else s.push (hits ++ (if eng || s.agenda.contains (.watchTrap l) then [] else [Agent.watchTrap l]))

/-- A sector of a tile's SRAM read early by an engine, if it has not been. -/
def Early.take (t : Tile) (k : Nat) (e : Early) : Early :=
  if NSet.mem e.took k || decide (65536 ≤ k) then e
  else { took := NSet.add e.took k, part := Mem.setBytes e.part (32 * k) (Mem.bytes t.sram (32 * k) 32)
         bad := FMap.set false e.bad k (NSet.mem t.poison k) }

/-- A tile's memory as an engine sees it that has read some sectors early. -/
def Early.view (e : Early) (t : Tile) : Tile :=
  { t with
    sram := e.took.foldl (fun m x => Mem.setBytes m (32 * x.1) (Mem.bytes e.part (32 * x.1) 32)) t.sram
    poison := e.took.foldl (fun m x => FMap.set false m x.1 (NSet.mem e.bad x.1)) t.poison }

/-- An action of an engine on its tile that reads memory, with the sectors that it has read early. -/
def Early.run (e : Early) (f : Tile → Tile) (t : Tile) : Tile :=
  if e.took.isEmpty then f t else { f (e.view t) with sram := t.sram, poison := t.poison }

/-- An engine of tile `p` reads `n` bytes from offset `o`: the bytes and whether any sector was poisoned (R25). -/
def engineReadE (e : Early) (p o n : Nat) (s : State) : List Byte × Bool × State :=
  let t := if e.took.isEmpty then s.tile p else e.view (s.tile p)
  (Mem.bytes t.sram o n, t.poisoned o n, noteAccess p true false o n s)

/-- The same with nothing read early. -/
def engineRead (p o n : Nat) (s : State) : List Byte × Bool × State := engineReadE {} p o n s

/-- Engine writes of pieces in their order, with their FULL and poison effects (R123), noted for the watchpoints. -/
def engineWriteAll (p : Nat) (ps : List (Nat × List Byte)) (fe carry : Bool) (s : State) : State :=
  ps.foldl (fun s e => noteAccess p true true e.1 e.2.length s) (s.onTile p fun t => t.writeAll ps fe carry)

/-- The parts of pieces that lie in a block of `g` bytes. -/
def clip (g k : Nat) (ps : List (Nat × List Byte)) : List (Nat × List Byte) :=
  (ps.map fun e =>
    let lo := Nat.max e.1 (g * k)
    (lo, (e.2.drop (lo - e.1)).take (Nat.min (e.1 + e.2.length) (g * k + g) - lo))).filter fun e => !e.2.isEmpty

/-- The blocks of `g` bytes that pieces touch. -/
def blocksOf (g : Nat) (ps : List (Nat × List Byte)) : List Nat :=
  (ps.flatMap fun e => if e.2.isEmpty then [] else (List.range ((e.1 + e.2.length - 1) / g + 1 - e.1 / g)).map (· + e.1 / g)).eraseDups

/-- What a write does to the Full bits and the poison of its sectors, without its bytes. -/
def Tile.sectorFlags (ps : List (Nat × List Byte)) (fe carry : Bool) (t : Tile) : Tile := { t.writeAll ps fe carry with sram := t.sram }

/-- An engine's write of pieces of which the blocks in `w` have been written already (R297, R299); those of a sector change together, and of
smaller blocks (R213) each alone, the sectors' bits with the last. -/
def engineWriteBut (g : Nat) (w : NSet) (p : Nat) (ps : List (Nat × List Byte)) (fe carry : Bool) (s : State) : State :=
  if w.isEmpty then engineWriteAll p ps fe carry s
  else
    let s := engineWriteAll p (((blocksOf g ps).filter fun k => !NSet.mem w k).flatMap fun k => clip g k ps) fe carry s
    if g = 32 then s else s.onTile p (Tile.sectorFlags ps fe carry)

/-- One block of an engine's write before the others. -/
def engineWriteOne (g k p : Nat) (ps : List (Nat × List Byte)) (fe carry : Bool) (s : State) : State :=
  engineWriteAll p (clip g k ps) (fe && g == 32) carry s

/-- An engine of tile `p` writes bytes (R123). -/
def engineWrite (p o : Nat) (d : List Byte) (fe carry : Bool) (s : State) : State := engineWriteAll p [(o, d)] fe carry s

end Sys2Proof.Machine
end

