-- ==== Sys2Proof/Machine/Operands.lean ====
section
/-!
DEFINITION. Sys2Proof/Machine/Operands.lean: the operand forms that many instructions share: guards (R44), the 32-bit forms
(R73), immediates (R46), lane masks (R45), tile addresses (R23, R46) and window descriptors (R113, R114).
-/

namespace Sys2Proof.Machine

/-- A guarded effect (R44): nothing happens where the guard reads false. -/
def guarded (g : Nat) (n : Bool) (f : State → State) (s : State) : State := if guardOf g n s then f s else s

/-- The first of the traps whose condition holds is raised; without one the effect takes place. -/
def checked (l : List (Bool × TrapInfo)) (f : State → State) (s : State) : State :=
  match firstTrap l with
  | some x => raise x s
  | none => f s

/-- An instruction that yoked execution shuts out whatever its operands hold: where `b` holds it raises YOKE with subcode STATE (R312, R324);
else its own checks `l` apply. -/
def unlessState (b : Bool) (l : List (Bool × TrapInfo)) (f : State → State) (s : State) : State :=
  if b then raise (yokeTrap 4) s else checked l f s

/-- Bits [31:0] of a g operand (R73). -/
def lo32 (a : W64) : W32 := a.setWidth 32

/-- A 32-bit result, sign-extended (R73). -/
def sx32 (a : W32) : W64 := a.signExtend 64

/-- A two-operand operation at the width W selects (R74). -/
def atW (w : Nat) (f : (k : Nat) → BitVec k → BitVec k → BitVec k) (a b : W64) : W64 :=
  if w = 1 then sx32 (f 32 (lo32 a) (lo32 b)) else f 64 a b

/-- A relation at the width W selects (R75). -/
def relW (w : Nat) (f : (k : Nat) → BitVec k → BitVec k → Bool) (a b : W64) : Bool :=
  if w = 1 then f 32 (lo32 a) (lo32 b) else f 64 a b

/-- A signed immediate as a 64-bit operand (R46). -/
def immW (i : Int) : W64 := BitVec.ofInt 64 i

/-- SignExtend(IMM32, 32) as a 64-bit operand (R79). -/
def immL (i : Nat) : W64 := sx32 (BitVec.ofNat 32 i)

/-- Whether lane i is selected by q[n] (R45). -/
def lane (s : State) (n i : Nat) : Bool := (rq s n).getLsbD i

/-! ## Tile addresses and windows -/

/-- Window n's descriptor as it stood before the bundle (R39, R116). -/
def wdOf (t : Tile) (n : Nat) : Nat := (FMap.get 0 (preSys t).wd n).toNat

/-- The fields of a window descriptor (R113). -/
def wFmt (w : Nat) : Nat := bits w 3 0
def wTbl (w : Nat) : Nat := bits w 5 4
def wRnd (w : Nat) : Nat := bits w 7 6
def wSat (w : Nat) : Bool := bit w 8
def wFe (w : Nat) : Bool := bit w 9
def wSpb (w : Nat) : Nat := bits w 36 16

/-- Whether a descriptor may be written (R113). -/
def wdOk (w : Nat) : Bool :=
  decide (wFmt w < 10) && decide (wRnd w < 2) && bits w 63 37 == 0 && bits w 15 10 == 0

/-- Bits per element of a storage format (R101); RAW elements are 4 bytes. -/
def fmtBits (f : Nat) : Nat :=
  if f = 1 ∨ f = 5 ∨ f = 7 ∨ f = 8 then 8 else if f = 2 ∨ f = 6 then 4 else if f = 3 ∨ f = 4 ∨ f = 9 then 16 else 32

/-- Formats decoded or encoded through a table (R114). -/
def fmtCode (f : Nat) : Bool := f == 1 || f == 2 || f == 5 || f == 6

/-- Formats with a block scale (R102). -/
def fmtScaled (f : Nat) : Bool := f == 5 || f == 6

/-- 4-bit formats. -/
def fmtNib (f : Nat) : Bool := f == 2 || f == 6

/-- Formats of the float family (R163). -/
def fmtFloat (f : Nat) : Bool := f == 1 || f == 2 || f == 3 || f == 4 || f == 5 || f == 6

/-- Formats of the integer family (R163). -/
def fmtInt (f : Nat) : Bool := f == 7 || f == 8

/-- The vector unit alignment of R127, as a byte multiple. -/
def fmtAlign (f : Nat) : Nat :=
  if f = 0 then 4 else if f = 3 ∨ f = 4 ∨ f = 9 then 2 else if f = 5 then 4 else if f = 6 then 2 else 1

/-- The top of SRAM. -/
def sramTop : Nat := 0x200000

/-- The spaces of a tile address (R23). -/
inductive Space
  | sram (win : Nat)
  | ctl
  | yoke
  | bad
deriving DecidableEq, Repr

/-- The space a tile address lies in: SRAM only with TA[23:21] = 0, the yoke window only with TA[27:24] = 0 and below
n·SIZE of a yoke in force (R23, R321). -/
def spaceOf (t : Tile) (ta : Nat) : Space :=
  if bits ta 31 28 = 0 then (if bits ta 23 21 = 0 then .sram (bits ta 27 24) else .bad)
  else if bits ta 31 28 = 1 then .ctl
  else if bits ta 31 28 = 2 then
    (if (t.yk.st == .yoked || t.yk.st == .draining) && bits ta 27 24 == 0 && decide (bits ta 23 0 < t.yk.n * t.yk.size)
     then .yoke else .bad)
  else .bad

/-- Whether an exact address sum lies outside 0 to 0xFFFF_FFFF (R46, R126). -/
def badSum (a : Int) : Bool := decide (a < 0) || decide (a ≥ 2 ^ 32)

/-- An exact address as a number for FAULTA.DADDR (R30). -/
def daddrOf (a : Int) : Nat := wrapN 32 a

/-- The member and the local offset of a yoke-window offset, n = 2^k (R321). -/
def yokeMap (t : Tile) (o : Nat) : Nat × Nat :=
  let k := Nat.log2 t.yk.n
  let gr := o / 256
  let m := Nat.xor (gr % 2 ^ k) (gr / 2 ^ k % 2 ^ k)
  (m, t.yk.base + o / 2 ^ (8 + k) * 256 + o % 256)

end Sys2Proof.Machine
end

