-- ==== Sys2Proof/Machine/Fetch.lean ====
section
/-!
DEFINITION. Sys2Proof/Machine/Fetch.lean: the words of a bundle in IMEM (R27, R36, R45).
-/

namespace Sys2Proof.Machine

/-- The word at an IMEM address; a word that nothing has written reads 0 (log 4). -/
def imemAt (t : Tile) (a : Nat) : Nat := (FMap.get 0 t.imem a).toNat

/-- Whether a syllable's first word takes a second one (R36). -/
def isLong (w : Nat) : Bool := bits w 30 27 == 15

/-- The words of a bundle from address `a`, syllable by syllable as (first word, second word), within `n` more words: none
where no E ends it within them (R36, R37). -/
def takeSyllables (t : Tile) (a : Nat) : Nat → List (Nat × Nat) × Bool
  | 0 => ([], false)
  | 1 =>
    let w := imemAt t a
    ([(w, if isLong w then imemAt t (a + 1) else 0)], bit w 31 && !isLong w)
  | n + 2 =>
    let w := imemAt t a
    if isLong w then
      if bit w 31 then ([(w, imemAt t (a + 1))], true)
      else
        let r := takeSyllables t (a + 2) n
        ((w, imemAt t (a + 1)) :: r.1, r.2)
    else if bit w 31 then ([(w, 0)], true)
    else
      let r := takeSyllables t (a + 1) (n + 1)
      ((w, 0) :: r.1, r.2)

/-- The syllables of the bundle at `a`, and whether an E ends it within 16 words (R37). -/
def syllables (t : Tile) (a : Nat) : List (Nat × Nat) × Bool := takeSyllables t a 16

/-- Words of a syllable. -/
def sylLen (w : Nat × Nat) : Nat := if isLong w.1 then 2 else 1

/-- Words of a list of syllables. -/
def sylsLen (l : List (Nat × Nat)) : Nat := l.foldl (fun n w => n + sylLen w) 0

/-- The length in words of the bundle at `a` (R36). -/
def bundleLen (t : Tile) (a : Nat) : Nat := sylsLen (syllables t a).1

/-- An uncorrectable error in the words of the bundle at `a` (R27). -/
def fetchBad (t : Tile) (a : Nat) : Bool := (List.range (bundleLen t a)).any fun i => NSet.mem t.imemBad (a + i)

end Sys2Proof.Machine
end

