-- ==== Sys2Proof/Machine/Branch.lean ====
section
/-!
DEFINITION. Sys2Proof/Machine/Branch.lean: branches and the hardware loop (R84–R88).
-/

namespace Sys2Proof.Machine

/-- BA of R84. -/
def bundleAt (s : State) : Nat := s.t.bun.addr

/-- BA + LEN. -/
def bundleNext (s : State) : Nat := s.t.bun.addr + s.t.bun.len

/-- A branch taken to a target: LOCAL_RANGE outside words 0–0x7FFF (R27, R84), else the link and the new address. -/
def branchTo (t : Int) (link : Bool) (s : State) : State :=
  if t < 0 ∨ 0x7FFF < t then raise (tr cLocalRange (wrapN 32 t)) s
  else
    let s := s.onT fun x => { x with bun := { x.bun with next := some t.toNat, taken := true } }
    if link then wg 1 (BitVec.ofNat 64 (bundleNext s)) s else s

/-- BR (R84). -/
def execBr (x : Br) (s : State) : Out :=
  .next (guarded x.g x.n (fun s => branchTo ((bundleAt s : Int) + x.off) false s) s)

/-- CALL (R84): writes g1. -/
def execCall (x : Br) (s : State) : Out :=
  .next (guarded x.g x.n (fun s => branchTo ((bundleAt s : Int) + x.off) true s) s)

/-- BZ (R84). -/
def execBz (x : Bg) (s : State) : Out :=
  .next (guarded x.g x.n (fun s => if rg s x.a = 0 then branchTo ((bundleAt s : Int) + x.off) false s else s) s)

/-- BNZ (R84). -/
def execBnz (x : Bg) (s : State) : Out :=
  .next (guarded x.g x.n (fun s => if rg s x.a = 0 then s else branchTo ((bundleAt s : Int) + x.off) false s) s)

/-- LOOP (R87): a last bundle before the body traps ILLEGAL_OP whatever the guard; in a yoke LOOP raises YOKE STATE (R324). With count 0 a bundle at e
without an end counts as the syllables that fit into 16 words (log 98). -/
def execLoop (x : Bg) (s : State) : Out :=
  .next (
    let e : Int := (bundleAt s : Int) + x.off
    checked [(decide (e < (bundleNext s : Int)), tr cIllegalOp)] (guarded x.g x.n fun s =>
      unlessState s.t.bun.blk.isSome [(decide (0x7FFF < e), tr cLocalRange (wrapN 32 e))] (fun s =>
        let n := rg s x.a
        let e := e.toNat
        if n = 0 && fetchBad s.t e then raise { tr cEccLocal with imem := true } s
        else
          let s' := s.onT fun t => { t with sys := { t.sys with
            lstart := BitVec.ofNat 64 (bundleNext s), lend := BitVec.ofNat 64 e, lcount := n } }
          if n = 0 then s'.onT fun t => { t with bun := { t.bun with next := some (e + bundleLen t e) } } else s') s) s)

/-- BRR (R84). -/
def execBrr (x : Bg) (s : State) : Out :=
  .next (guarded x.g x.n (fun s => branchTo (rg s x.a).toNat false s) s)

/-- CALLR (R84): the target is read before the link is written. -/
def execCallr (x : Bg) (s : State) : Out :=
  .next (guarded x.g x.n (fun s => branchTo (rg s x.a).toNat true s) s)

/-- RET (R84). -/
def execRet (x : Bg) (s : State) : Out :=
  .next (guarded x.g x.n (fun s => branchTo (rg s 1).toNat false s) s)

end Sys2Proof.Machine
end

