-- ==== Sys2Proof/Machine/Caps.lean ====
section
/-!
DEFINITION. Sys2Proof/Machine/Caps.lean: the capability list (R419, R420).
-/

namespace Sys2Proof.Machine

/-- Bytes padded with zero to a multiple of `n`. -/
def padTo (n : Nat) (l : List Byte) : List Byte := l ++ List.replicate ((n - l.length % n) % n) 0

/-- Bytes brought to a length. -/
def fitBytes (n : Nat) (l : List Byte) : List Byte := (l ++ List.replicate n 0).take n

/-- Words as bytes. -/
def wordBytes (l : List Nat) : List Byte := l.flatMap (natLe 8)

/-- The BOOT state and its reason: the manual does not place them in their 8 bytes (log 40). -/
def bootWord (v : Service) : Nat := match v.boot with | .ready => 0 | _ => 1 + v.reason * 256

/-- The bodies of the structures by ID (R420). A certificate chain is at most 16 KiB here, so that the list holds both (log 40). -/
def capsBodies (s : State) : List (Nat × List Byte) :=
  let v := s.svc
  [(1, wordBytes [s.dev, 0x0432, bootWord v]),
   (2, wordBytes [2, 2, v.abi, 2]),
   (3, wordBytes [32 + 32 * 2 ^ 16 + 8 * 2 ^ 32 + 8 * 2 ^ 48]),
   (4, wordBytes [b2n v.synced]),
   (5, fitBytes 48 v.fwm),
   (6, padTo 8 (Config.certs.1.take 0x4000)),
   (7, padTo 8 (Config.certs.2.take 0x4000)),
   (8, wordBytes [2200, v.limit, b2n v.capped + 2 * b2n !v.throttled.isEmpty]),
   (9, wordBytes [v.stacksOk % 2 ^ 64, v.clustersOk % 2 ^ 64, v.clustersOk / 2 ^ 64 % 2 ^ 64, v.clustersOk / 2 ^ 128 % 16, v.spares]),
   (10, wordBytes [v.bw % 32 + v.rw % 32 * 2 ^ 5])]

/-- The structures one after another, each from a multiple of 64 bytes (R419; the place is the model's, log 40). -/
def capsFrom : Nat → List (Nat × List Byte) → List Byte
  | _, [] => []
  | o, (id, b) :: r =>
    let n := 16 + b.length
    let next := o + (n + 63) / 64 * 64
    padTo 64 (natLe 2 id ++ natLe 1 1 ++ natLe 1 0 ++ natLe 2 n ++ natLe 2 (if r.isEmpty then 0 else next) ++ natLe 8 0 ++ b) ++ capsFrom next r

/-- The capability list from byte 0; what follows it in its 64 KiB reads zero. -/
def capsList (s : State) : List Byte := if s.svc.boot = .off then [] else capsFrom 0 (capsBodies s)

end Sys2Proof.Machine
end

