-- ==== Sys2Proof/Machine/Flags.lean ====
section
/-!
DEFINITION. Sys2Proof/Machine/Flags.lean: the flags: VFLAGS (R28, R111, R145, R146) and the sticky bits of ACCSTc (R164). The
flags an operation raises are computed with its result, in Formats.lean.
-/

namespace Sys2Proof.Machine

/-- IEEE flags (R28, R145): NV, DZ, OF, UF, NX. -/
def fNV : BitVec 5 := 1
def fDZ : BitVec 5 := 2
def fOF : BitVec 5 := 4
def fUF : BitVec 5 := 8
def fNX : BitVec 5 := 16

/-- IEEE flags ORed into VFLAGS (R111); in a bundle of several syllables they outlive the bundle's own clear (R146), and a
yoked block keeps them for its commit (R320). -/
def orFlags (f : BitVec 5) (s : State) : State :=
  s.onT fun t => { t with
    sys := if t.bun.blk.isSome then t.sys else { t.sys with vflags := t.sys.vflags ||| f },
    bun := if t.bun.coll || t.bun.blk.isSome then { t.bun with raised := t.bun.raised ||| f } else t.bun }

/-! ## ACCSTc (R164) -/

/-- The accumulation bits NV, OF, UF, NX of some flags. -/
def accBits (f : BitVec 5) : Nat :=
  let x := f.toNat
  b2n (bit x 0) + b2n (bit x 2) * 2 + b2n (bit x 3) * 4 + b2n (bit x 4) * 8

/-- The drain bits DNV, DOF, DUF, DNX of some flags. -/
def drainBits (f : BitVec 5) : Nat := accBits f * 2 ^ 8

/-- SAT, PSN and PD. -/
def accSat : Nat := 2 ^ 4
def accPsn : Nat := 2 ^ 12
def accPd : Nat := 2 ^ 15

/-- The bits an ACCSTc image carries: [15], [12:8], [4:0] (R175). -/
def accMask : Nat := 0x9F1F

/-- The sticky bits [12:8] and [4:0], which only MCLRF clears (R179). -/
def accSticky : Nat := 0x1F1F

/-- ACCSTc with bits ORed in. -/
def accOr (r : Regs) (c v : Nat) : Regs := { r with accst := FMap.put r.accst c (Nat.lor (FMap.get 0 r.accst c) v) }

/-- ACCSTc with PD set or cleared. -/
def accSetPd (r : Regs) (c : Nat) (v : Bool) : Regs :=
  let w := FMap.get 0 r.accst c
  { r with accst := FMap.put r.accst c (w % 2 ^ 15 + b2n v * 2 ^ 15) }

end Sys2Proof.Machine
end

