-- ==== Sys2Proof/Machine/Formats.lean ====
section
/-!
DEFINITION. Sys2Proof/Machine/Formats.lean: number formats (R99–R112): exact values, rounding with IEEE flags, decode tables,
encoding and block scales.
-/

namespace Sys2Proof.Machine

/-! ## Exact values -/

/-- A value before rounding: NaN (`sig`: signalling), ±Inf, or the exact (−1)^neg × m × 2^e. -/
inductive FV
  | nan (sig : Bool)
  | inf (neg : Bool)
  | fin (neg : Bool) (m : Nat) (e : Int)
deriving DecidableEq, Repr

/-- A binary format: fraction bits and exponent bits. -/
structure Fmt where
  m : Nat
  e : Nat
deriving DecidableEq, Repr

def f32 : Fmt := ⟨23, 8⟩
def f16 : Fmt := ⟨10, 5⟩
def bf16 : Fmt := ⟨7, 8⟩
def sf19 : Fmt := ⟨10, 8⟩

/-- The exponent bias of a format. -/
def Fmt.bias (f : Fmt) : Int := 2 ^ (f.e - 1) - 1

/-- The exponent of the least significant bit of a subnormal. -/
def Fmt.emin (f : Fmt) : Int := 1 - f.bias - f.m

/-- The pattern of +Inf. -/
def Fmt.infPat (f : Fmt) : Nat := (2 ^ f.e - 1) * 2 ^ f.m

/-- The canonical quiet NaN (R100, R144). -/
def Fmt.nanPat (f : Fmt) : Nat := f.infPat + 2 ^ (f.m - 1)

/-- The sign bit's weight. -/
def Fmt.sign (f : Fmt) : Nat := 2 ^ (f.m + f.e)

/-- The value of a pattern (R99, R100, R144). -/
def Fmt.unpack (f : Fmt) (w : Nat) : FV :=
  let neg := bit w (f.m + f.e)
  let ex := w / 2 ^ f.m % 2 ^ f.e
  let fr := w % 2 ^ f.m
  if ex = 2 ^ f.e - 1 then (if fr = 0 then .inf neg else .nan (!bit fr (f.m - 1)))
  else if ex = 0 then .fin neg fr f.emin
  else .fin neg (2 ^ f.m + fr) ((ex : Int) - f.bias - f.m)

/-- Whether a magnitude with kept part `q` and cut part `r` of `2^sh` is rounded up under a mode: 0 RNE, 1 RZ, 2 RU, 3 RD. -/
def roundUp (mode : Nat) (neg : Bool) (q r sh : Nat) : Bool :=
  if mode = 0 then decide (2 * r > 2 ^ sh) || (decide (2 * r = 2 ^ sh) && q % 2 == 1)
  else if mode = 2 then !neg && r != 0
  else if mode = 3 then neg && r != 0
  else false

/-- m × 2^e cut to a multiple of 2^q and rounded: the new multiple, and whether anything was cut. Past three bits above
the top of m the cut is the same for every q. -/
def cutAt (mode : Nat) (neg : Bool) (m : Nat) (e q : Int) : Nat × Bool :=
  if q ≤ e then (m * 2 ^ (e - q).toNat, false)
  else
    let sh := Nat.min (q - e).toNat (Nat.log2 m + 3)
    let k := m / 2 ^ sh
    let r := m % 2 ^ sh
    (k + b2n (roundUp mode neg k r sh), r != 0)

/-- The exact (−1)^neg × m × 2^e rounded to a format under a mode (R8, R143): the pattern, and OF, UF (tiny after rounding
and inexact) and NX. -/
def Fmt.round (f : Fmt) (mode : Nat) (neg : Bool) (m : Nat) (e : Int) : Nat × BitVec 5 :=
  let sg := if neg then f.sign else 0
  if m = 0 then (sg, 0)
  else
    let top := e + (Nat.log2 m : Int)
    let nat := top - f.m
    let q := if nat < f.emin then f.emin else nat
    let c := cutAt mode neg m e q
    let pat := (q - f.emin).toNat * 2 ^ f.m + c.1
    if f.infPat ≤ pat then
      (sg + (if mode = 0 || (mode = 2 && !neg) || (mode = 3 && neg) then f.infPat else f.infPat - 1), fOF ||| fNX)
    else
      let tiny := decide (nat < f.emin) &&
        !(decide (nat = f.emin - 1) && decide ((cutAt mode neg m e nat).1 = 2 ^ (f.m + 1)))
      (sg + pat, (if c.2 then fNX else 0) ||| (if tiny && c.2 then fUF else 0))

/-- A value delivered in a format: NaN canonical, Inf by sign, a finite value rounded. -/
def Fmt.deliver (f : Fmt) (mode : Nat) : FV → Nat × BitVec 5
  | .nan _ => (f.nanPat, 0)
  | .inf neg => ((if neg then f.sign else 0) + f.infPat, 0)
  | .fin neg m e => f.round mode neg m e

/-- A result with the invalid flag that the operation raised. -/
def Fmt.finish (f : Fmt) (mode : Nat) (x : FV × Bool) : Nat × BitVec 5 :=
  let r := f.deliver mode x.1
  (r.1, r.2 ||| (if x.2 then fNV else 0))

/-- An inexact quotient or root: the bits found, with a last bit that says whether more follow. -/
def withSticky (neg : Bool) (q : Nat) (more : Bool) (e : Int) : FV := .fin neg (2 * q + b2n more) (e - 1)

def FV.isNan : FV → Bool | .nan _ => true | _ => false
def FV.isSig : FV → Bool | .nan s => s | _ => false
def FV.isInf : FV → Bool | .inf _ => true | _ => false
def FV.isZero : FV → Bool | .fin _ m _ => m == 0 | _ => false
def FV.isNeg : FV → Bool | .inf n => n | .fin n _ _ => n | .nan _ => false
def FV.neg : FV → FV | .inf n => .inf (!n) | .fin n m e => .fin (!n) m e | x => x
def FV.abs : FV → FV | .inf _ => .inf false | .fin _ m e => .fin false m e | x => x

/-- A value times 2^k, exactly. -/
def FV.scale (k : Int) : FV → FV | .fin n m e => .fin n m (e + k) | x => x

/-- The exact product; its invalid flag for 0 × ∞ (signalling inputs are counted apart). -/
def FV.mul (a b : FV) : FV × Bool :=
  match a, b with
  | .nan _, _ => (.nan false, false)
  | _, .nan _ => (.nan false, false)
  | .inf x, .inf y => (.inf (x != y), false)
  | .inf x, .fin y m _ => if m = 0 then (.nan false, true) else (.inf (x != y), false)
  | .fin x m _, .inf y => if m = 0 then (.nan false, true) else (.inf (x != y), false)
  | .fin x m e, .fin y k d => (.fin (x != y) (m * k) (e + d), false)

/-- The signed significand of a finite value at exponent `q` ≤ its own. -/
def FV.atExp (q : Int) : FV → Int
  | .fin n m e => (if n then -1 else 1) * (m * 2 ^ (e - q).toNat : Nat)
  | _ => 0

/-- The lowest exponent among some values. -/
def minExp (l : List FV) : Int :=
  l.foldl (fun q x => match x with | .fin _ _ e => if e < q then e else q | _ => q) 0

/-- The exact sum of some addends (R8): NaN if one is NaN or two infinities differ (invalid), and the sign of a zero sum. -/
def FV.sum (mode : Nat) (l : List FV) : FV × Bool :=
  if l.any FV.isNan then (.nan false, (l.any fun x => x == .inf true) && (l.any fun x => x == .inf false))
  else if (l.any fun x => x == .inf true) && (l.any fun x => x == .inf false) then (.nan false, true)
  else if l.any FV.isInf then (.inf (l.any fun x => x == .inf true), false)
  else
    let q := minExp l
    let t : Int := l.foldl (fun t x => t + x.atExp q) 0
    if t = 0 then
      let neg := if l.all fun x => x.isZero && x.isNeg then true
        else if l.all fun x => x.isZero && !x.isNeg then false
        else mode == 3
      (.fin neg 0 0, false)
    else (.fin (decide (t < 0)) t.natAbs q, false)

/-- The exact sum that RoundF32 rounds (R8): a zero sum is −0 where every addend is −0, otherwise +0, or −0 under RD. (Of two addends of one
sign, R143 keeps the sign.) -/
def FV.sumMany (mode : Nat) (l : List FV) : FV × Bool :=
  match FV.sum mode l with
  | (.fin _ 0 _, f) => (.fin ((l.all fun x => x.isZero && x.isNeg) || mode == 3) 0 0, f)
  | r => r

/-- Comparison of two values that are not NaN: −1, 0 or 1; −0 equals +0. -/
def FV.cmp (a b : FV) : Int :=
  match a, b with
  | .inf x, .inf y => if x = y then 0 else if x then -1 else 1
  | .inf x, _ => if x then -1 else 1
  | _, .inf y => if y then 1 else -1
  | a, b =>
    let q := minExp [a, b]
    let d := a.atExp q - b.atExp q
    if d < 0 then -1 else if d = 0 then 0 else 1

/-- a + b (R150). -/
def fpAdd (f : Fmt) (mode : Nat) (a b : FV) : Nat × BitVec 5 :=
  let r := FV.sum mode [a, b]
  f.finish mode (r.1, r.2 || a.isSig || b.isSig)

/-- a × b (R150). -/
def fpMul (f : Fmt) (mode : Nat) (a b : FV) : Nat × BitVec 5 :=
  let r := a.mul b
  f.finish mode (r.1, r.2 || a.isSig || b.isSig)

/-- The exact sum of an addend and some products, rounded once (R150, R151): invalid for 0 × ∞ whatever the addend. -/
def fpDot (f : Fmt) (mode : Nat) (d : FV) (ps : List (FV × FV)) : Nat × BitVec 5 :=
  let ms := ps.map fun p => p.1.mul p.2
  let r := (if ps.length = 1 then FV.sum else FV.sumMany) mode (d :: ms.map (·.1))
  f.finish mode (r.1, r.2 || (ms.any (·.2)) || d.isSig || (ps.any fun p => p.1.isSig || p.2.isSig))

/-- The integer square root. -/
def isqrt (n : Nat) : Nat :=
  (List.range (Nat.log2 n / 2 + 1)).foldr (fun i r => if (r + 2 ^ i) * (r + 2 ^ i) ≤ n then r + 2 ^ i else r) 0

/-- The quotient of two finite values, the divisor not zero. -/
def divExact (f : Fmt) (neg : Bool) (m : Nat) (e : Int) (k : Nat) (d : Int) : FV :=
  let sh := f.m + 5 + Nat.log2 k
  let n := m * 2 ^ sh
  withSticky neg (n / k) (n % k != 0) (e - d - sh)

/-- a / b (R154). -/
def fpDiv (f : Fmt) (mode : Nat) (a b : FV) : Nat × BitVec 5 :=
  let nv := a.isSig || b.isSig
  match a, b with
  | .nan _, _ => f.finish mode (.nan false, nv)
  | _, .nan _ => f.finish mode (.nan false, nv)
  | .inf _, .inf _ => f.finish mode (.nan false, true)
  | .inf x, .fin y _ _ => f.finish mode (.inf (x != y), false)
  | .fin x _ _, .inf y => f.finish mode (.fin (x != y) 0 0, false)
  | .fin x m e, .fin y k d =>
    if k = 0 then
      if m = 0 then f.finish mode (.nan false, true)
      else
        let r := f.finish mode (.inf (x != y), false)
        (r.1, fDZ)
    else if m = 0 then f.finish mode (.fin (x != y) 0 0, false)
    else f.finish mode (divExact f (x != y) m e k d, false)

/-- √a (R154). -/
def fpSqrt (f : Fmt) (mode : Nat) (a : FV) : Nat × BitVec 5 :=
  match a with
  | .nan s => f.finish mode (.nan false, s)
  | .inf n => if n then f.finish mode (.nan false, true) else f.finish mode (.inf false, false)
  | .fin n m e =>
    if m = 0 then f.finish mode (.fin n 0 0, false)
    else if n then f.finish mode (.nan false, true)
    else
      let m' := if e % 2 = 0 then m else 2 * m
      let e' := if e % 2 = 0 then e else e - 1
      let x := m' * 4 ^ (f.m + 4)
      let q := isqrt x
      f.finish mode (withSticky false q (q * q != x) (e' / 2 - (f.m + 4)), false)

/-- 1 / √a (R154). -/
def fpRsq (f : Fmt) (mode : Nat) (a : FV) : Nat × BitVec 5 :=
  match a with
  | .nan s => f.finish mode (.nan false, s)
  | .inf n => if n then f.finish mode (.nan false, true) else f.finish mode (.fin false 0 0, false)
  | .fin n m e =>
    if m = 0 then
      let r := f.finish mode (.inf n, false)
      (r.1, fDZ)
    else if n then f.finish mode (.nan false, true)
    else
      let m' := if e % 2 = 0 then m else 2 * m
      let e' := if e % 2 = 0 then e else e - 1
      let k := f.m + 6 + Nat.log2 m'
      let q := isqrt (2 ^ (2 * k) / m')
      f.finish mode (withSticky false q (q * q * m' != 2 ^ (2 * k)) (- (e' / 2) - k), false)

/-- A finite value rounded to an integer under a mode: the magnitude, and whether anything was cut. -/
def toIntegral (mode : Nat) (neg : Bool) (m : Nat) (e : Int) : Nat × Bool := cutAt mode neg m e 0

/-- MIN or MAX of two floats (R150, R327): a NaN if either is one; −0 below +0. -/
def fpMinMax (f : Fmt) (max : Bool) (x y : Nat) : Nat × BitVec 5 :=
  let a := f.unpack x
  let b := f.unpack y
  if a.isNan || b.isNan then (f.nanPat, if a.isSig || b.isSig then fNV else 0)
  else
    let c := a.cmp b
    let aless := decide (c < 0) || (decide (c = 0) && a.isNeg && !b.isNeg)
    (if aless = max then y else x, 0)

/-- Widening to F32, exact (R99, R100). -/
def widen (f : Fmt) (w : Nat) : Nat := (f32.deliver 0 (f.unpack w)).1

/-! ## Decode tables (R103–R108) -/

/-- Entry `c` of table `t` as it stood before the bundle (R116). -/
def tblEntry (y : Sys) (t c : Nat) : Nat := (FMap.get 0 y.tbl (256 * t + c)).toNat

/-- The header DTSt (R104) and its fields. -/
def dtsOf (y : Sys) (t : Nat) : Nat := (FMap.get 0 y.dts t).toNat
def dtsEmax (h : Nat) : Int := sext (bits h 55 48) 8
def dtsMode (h : Nat) : Nat := bits h 0 0
def dtsOrder (h : Nat) : Nat := bits h 3 2
def dtsNan (h : Nat) : Nat := bits h 16 8
def dtsValid (h : Nat) : Bool := bit h 24

/-- Whether a code window's table may be encoded through: its MODE fits and EVALID = 1 (R115). -/
def tableOk (y : Sys) (t : Nat) (nib : Bool) : Bool :=
  dtsValid (dtsOf y t) && dtsMode (dtsOf y t) == b2n nib

/-- Decode(t, code) (R108): the entry's SF19 value. -/
def decodeCode (y : Sys) (t c : Nat) : FV := sf19.unpack (bits (tblEntry y t c) 18 0)

/-- The lane of a decoded code without a scale: exact, NaN canonical (R99). -/
def codeLane (y : Sys) (t c : Nat) : Nat := (f32.deliver 0 (decodeCode y t c)).1

/-- A decoded value with the scale byte applied exactly; 0xFF makes it NaN (R108, R173). -/
def scaled (v : FV) (sb : Nat) : FV := if sb = 0xFF then .nan false else v.scale ((sb : Int) - 127)

/-- The number of codes of a table header's mode, and H of R105. -/
def codesOf (h : Nat) : Nat := if dtsMode h = 1 then 16 else 256
def halfOf (h : Nat) : Nat := codesOf h / 2

/-- The codes in encode order on which the search runs (R105). -/
def searchCodes (h : Nat) : List Nat :=
  if dtsOrder h = 0 then List.range (halfOf h)
  else if dtsOrder h = 1 then List.range (codesOf h)
  else (List.range (halfOf h)).map (· + halfOf h) ++ List.range (halfOf h)

/-- The encodable codes of the search with their values. -/
def encodable (y : Sys) (t : Nat) (h : Nat) : List (Nat × FV) :=
  ((searchCodes h).filter fun c => !bit (tblEntry y t c) 31).map fun c => (c, decodeCode y t c)

/-- The encodable codes with finite values. -/
def finiteCodes (y : Sys) (t : Nat) (h : Nat) : List (Nat × FV) :=
  (encodable y t h).filter fun e => match e.2 with | .fin _ _ _ => true | _ => false

/-- |y − v| against |y − w| for finite values: the comparison of the two distances. -/
def distCmp (y v w : FV) : Int := ((FV.sum 0 [y, v.neg]).1.abs).cmp ((FV.sum 0 [y, w.neg]).1.abs)

/-- The best of some codes by a relation on their values. -/
def pickBy (better : FV → FV → Bool) (l : List (Nat × FV)) : Option (Nat × FV) :=
  l.foldl (fun o e => match o with | none => some e | some b => if better e.2 b.2 then some e else some b) none

/-- The code between or at the neighbours of `y` (R109). Where the rule does not decide between two of equal magnitude the lower value is taken
(DESIGN CHOICE, log 91). -/
def nearCode (l : List (Nat × FV)) (y : FV) (rnd : Nat) : Nat :=
  let a := pickBy (fun v w => decide (v.cmp w > 0)) (l.filter fun e => decide (e.2.cmp y ≤ 0))
  let b := pickBy (fun v w => decide (v.cmp w < 0)) (l.filter fun e => decide (e.2.cmp y ≥ 0))
  match a, b with
  | none, none => 0
  | none, some b => b.1
  | some a, none => a.1
  | some a, some b =>
    let small := if a.2.abs.cmp b.2.abs ≤ 0 then a.1 else b.1
    if a.2.cmp y = 0 then a.1
    else if rnd = 1 then small
    else if distCmp y a.2 b.2 < 0 then a.1
    else if distCmp y a.2 b.2 > 0 then b.1
    else if a.1 % 2 ≠ b.1 % 2 then (if a.1 % 2 = 0 then a.1 else b.1)
    else small

/-- Encode of a value that is not NaN through table t (R109); in SIGNMAG the matching infinity is that of the magnitude. -/
def encodeNum (y : Sys) (t : Nat) (x : FV) (rnd : Nat) (sat : Bool) : Nat × BitVec 5 :=
  let h := dtsOf y t
  let l := finiteCodes y t h
  let sm := dtsOrder h == 0
  let v := if sm then x.abs else x
  let hi := pickBy (fun a b => decide (a.cmp b > 0)) l
  let lo := pickBy (fun a b => decide (a.cmp b < 0)) l
  match hi, lo with
  | some hi, some lo =>
    let above := decide (v.cmp hi.2 > 0)
    let r : Nat × BitVec 5 :=
      if above || decide (v.cmp lo.2 < 0) then
        let up := above || sm
        let has := if up then bit h 25 else bit h 26
        let code := if up then bits h 39 32 else bits h 47 40
        if v.isInf && has && !sat then (code, 0)
        else ((if !sat && has then code else if above then hi.1 else lo.1), fOF)
      else (nearCode l v rnd, 0)
    let c := if sm && x.isNeg then r.1 + halfOf h else r.1
    let w := decodeCode y t c
    (c, r.2 ||| (if w.isNan || w.cmp x != 0 then fNX else 0))
  | _, _ => (0, 0)

/-- Encode(t, x, rnd, sat) through a decode table (R109); the TABLE test is the syllable's (R115). -/
def encodeCode (y : Sys) (t : Nat) (x : FV) (rnd : Nat) (sat : Bool) : Nat × BitVec 5 :=
  if x.isNan then
    if dtsNan (dtsOf y t) ≠ 0x100 then (dtsNan (dtsOf y t), 0)
    else
      let r := encodeNum y t (.fin false 0 0) rnd sat
      (r.1, r.2 ||| fNV)
  else encodeNum y t x rnd sat

/-- Encoding into F16 or BF16 (R110). -/
def encodeIeee (f : Fmt) (x : FV) (rnd : Nat) (sat : Bool) : Nat × BitVec 5 :=
  match x with
  | .nan s => (f.nanPat, if s then fNV else 0)
  | .inf n =>
    let sg := if n then f.sign else 0
    if sat then (sg + f.infPat - 1, fOF ||| fNX) else (sg + f.infPat, 0)
  | .fin n m e =>
    let r := f.round rnd n m e
    if sat && (r.2 &&& fOF) != 0 then ((if n then f.sign else 0) + f.infPat - 1, r.2) else r

/-- An I32 value stored in `w` bits, clamped to the range of a signed or unsigned format when SAT is set (R110). -/
def encodeInt (signed : Bool) (w : Nat) (x : Int) (sat : Bool) : Nat :=
  let lo : Int := if signed then -(2 ^ (w - 1)) else 0
  let hi : Int := if signed then 2 ^ (w - 1) - 1 else 2 ^ w - 1
  wrapN w (if sat then (if x < lo then lo else if x > hi then hi else x) else x)

/-- floor(log2) of a finite non-zero value. -/
def floorLog2 : FV → Int
  | .fin _ m e => e + (Nat.log2 m : Int)
  | _ => 0

/-- The scale byte of a group of F32 values (R112). -/
def blockScale (emax : Int) (l : List FV) : Nat :=
  let r := l.filter fun x => !x.isNan
  match pickBy (fun a b => decide (a.cmp b > 0)) (r.map fun x => (0, x.abs)) with
  | none => 0
  | some (_, m) =>
    if m.isInf then 254 else if m.isZero then 0
    else
      let v := floorLog2 m - emax + 127
      if v < 0 then 0 else if v > 254 then 254 else v.toNat

/-- The element of a format widened to a 32-bit lane, `sb` its scale byte (R101, R108, R114). -/
def widenElem (y : Sys) (w raw sb : Nat) : Nat :=
  let f := wFmt w
  if f = 1 || f = 2 then codeLane y (wTbl w) raw
  else if f = 5 || f = 6 then (f32.deliver 0 (scaled (decodeCode y (wTbl w) raw) sb)).1
  else if f = 3 then widen f16 raw
  else if f = 4 then widen bf16 raw
  else if f = 7 then wrapN 32 (sext raw 8)
  else if f = 8 then raw % 256
  else if f = 9 then wrapN 32 (sext raw 16)
  else raw % 2 ^ 32

/-- A 32-bit lane narrowed to an element without a block scale: the raw element and its flags (R109, R110). -/
def narrowElem (y : Sys) (w lane : Nat) : Nat × BitVec 5 :=
  let f := wFmt w
  if f = 1 || f = 2 then encodeCode y (wTbl w) (f32.unpack lane) (wRnd w) (wSat w)
  else if f = 3 then encodeIeee f16 (f32.unpack lane) (wRnd w) (wSat w)
  else if f = 4 then encodeIeee bf16 (f32.unpack lane) (wRnd w) (wSat w)
  else if f = 7 then (encodeInt true 8 (sext lane 32) (wSat w), 0)
  else if f = 8 then (encodeInt false 8 (sext lane 32) (wSat w), 0)
  else if f = 9 then (encodeInt true 16 (sext lane 32) (wSat w), 0)
  else (lane % 2 ^ 32, 0)

/-- A value encoded against a scale byte (R112): x × 2^−(S−127), exact; 0xFF encodes as NaN. -/
def narrowScaled (y : Sys) (w : Nat) (x : FV) (sb : Nat) : Nat × BitVec 5 :=
  encodeCode y (wTbl w) (if sb = 0xFF then .nan false else x.scale (127 - (sb : Int))) (wRnd w) (wSat w)

/-! ## Table validation (R106) -/

/-- The largest finite encodable magnitude (R106). -/
def maxMag (y : Sys) (t h : Nat) : Option FV :=
  (pickBy (fun a b => decide (a.cmp b > 0)) ((finiteCodes y t h).map fun e => (e.1, e.2.abs))).map (·.2)

/-- Values strictly ascending in the list's order, NaN entries passed over. -/
def ascending : List FV → Bool
  | [] => true
  | [_] => true
  | a :: b :: r => decide (a.cmp b < 0) && ascending (b :: r)

/-- EMAX of R106. -/
def emaxOf (y : Sys) (t h : Nat) : Int :=
  match maxMag y t h with
  | some m => if m.isZero then 0 else if floorLog2 m < -128 then 0 else floorLog2 m
  | none => 0

/-- REASON of R106: 0 or the first check that fails. -/
def tableReason (y : Sys) (t h : Nat) : Nat :=
  let codes := List.range (codesOf h)
  let enc := encodable y t h
  let vals := (enc.map (·.2)).filter fun x => !x.isNan
  let c1 := codes.all fun c => bits (tblEntry y t c) 30 19 == 0
  let c2 := ascending vals && (dtsOrder h != 0 || enc.all fun e => e.2.isNan || !bit (tblEntry y t e.1) 18)
  let c3 := dtsNan h == 0x100 || (decide (dtsNan h < codesOf h) && (decodeCode y t (dtsNan h)).isNan)
  let c4 := match maxMag y t h with | some m => !m.isZero && decide (floorLog2 m ≥ -128) | none => false
  let c5 := codes.all fun c => bit (tblEntry y t c) 31 || !(decodeCode y t c).isNan
  let c6 := dtsOrder h != 0 || (List.range (halfOf h)).all fun c =>
    bits (tblEntry y t (halfOf h + c)) 17 0 == bits (tblEntry y t c) 17 0
      && bit (tblEntry y t (halfOf h + c)) 18 != bit (tblEntry y t c) 18
      && bit (tblEntry y t (halfOf h + c)) 31 == bit (tblEntry y t c) 31
  if !c1 then 1 else if !c2 then 2 else if !c3 then 3 else if !c4 then 4 else if !c5 then 5 else if !c6 then 6 else 0

/-- The code of an encodable infinity of one sign, among the codes of the mode; the lowest of several (DESIGN CHOICE, log 91). -/
def infCode (y : Sys) (t h : Nat) (neg : Bool) : Option Nat :=
  (List.range (codesOf h)).find? fun c => !bit (tblEntry y t c) 31 && decodeCode y t c == .inf neg

/-- The header that a table loaded with the word `gb` of TLOAD takes (R104, R106). -/
def tableHeader (y : Sys) (t gb : Nat) : W64 :=
  let h := bits gb 2 2 + bits gb 4 3 * 4 + bits gb 16 8 * 256
  let y' : Sys := { y with dts := FMap.put y.dts t (BitVec.ofNat 64 h) }
  let r := tableReason y' t h
  let pi := infCode y' t h false
  let ni := infCode y' t h true
  BitVec.ofNat 64 (h + b2n (r == 0) * 2 ^ 24 + b2n pi.isSome * 2 ^ 25 + b2n ni.isSome * 2 ^ 26 + r * 2 ^ 28
    + pi.getD 0 * 2 ^ 32 + ni.getD 0 * 2 ^ 40 + wrapN 8 (emaxOf y' t h) * 2 ^ 48)

/-- A table's entries replaced from 32-bit words and its header made (R118): C4 mode takes 16 and fills the rest. -/
def loadTable (y : Sys) (gb : Nat) (entry : Nat → Nat) : Sys :=
  let t := bits gb 1 0
  let c4 := bit gb 2
  let tbl := (List.range 256).foldl (fun m c =>
    FMap.put m (256 * t + c) (BitVec.ofNat 32 (if c4 && decide (16 ≤ c) then 0x80000000 else entry c))) y.tbl
  let y' := { y with tbl := tbl }
  { y' with dts := FMap.put y'.dts t (tableHeader y' t gb) }

/-- G[B] of TLOAD outside its limits (R118). -/
def tloadBad (gb : Nat) : Bool :=
  gb / 2 ^ 17 != 0 || bits gb 7 5 != 0 || bits gb 4 3 == 3 || decide (bits gb 16 8 > 0x100)

/-! ## The presets of R107 -/

/-- An entry of 32 bits: SF19 from sign, a magnitude m × 2^e, and X. -/
def sfEntry (x neg : Bool) (m : Nat) (e : Int) : Nat := (sf19.round 0 neg m e).1 + b2n x * 2 ^ 31

/-- T0: OCP FP8 E4M3. The NaN entries are the canonical SF19 NaN with the code's sign (DESIGN CHOICE, log 92). -/
def presetE4m3 (c : Nat) : Nat :=
  let neg := bit c 7
  let ex := bits c 6 3
  let fr := bits c 2 0
  if c % 128 = 127 then sf19.nanPat + b2n neg * sf19.sign + 2 ^ 31
  else if ex = 0 then sfEntry false neg fr (-9) else sfEntry false neg (8 + fr) (ex - 10)

/-- T1: OCP FP8 E5M2. -/
def presetE5m2 (c : Nat) : Nat :=
  let neg := bit c 7
  let ex := bits c 6 2
  let fr := bits c 1 0
  if ex = 31 then
    (if fr = 0 then sf19.infPat + b2n neg * sf19.sign else sf19.nanPat + b2n neg * sf19.sign + 2 ^ 31)
  else if ex = 0 then sfEntry false neg fr (-16) else sfEntry false neg (4 + fr) (ex - 17)

/-- T2: E2M1 in C4 mode. -/
def presetE2m1 (c : Nat) : Nat :=
  let neg := bit c 3
  let ex := bits c 2 1
  let fr := bits c 0 0
  if ex = 0 then sfEntry false neg fr (-1) else sfEntry false neg (2 + fr) (ex - 2)

/-- T3: the integers −128 to 127. -/
def presetI8 (c : Nat) : Nat := if c < 128 then sfEntry false false c 0 else sfEntry false true (256 - c) 0

/-- The four presets loaded (R107). -/
def loadPresets (y : Sys) : Sys :=
  let y := loadTable y (0x7F00) presetE4m3
  let y := loadTable y (0x7F01) presetE5m2
  let y := loadTable y (0x10000 + 4 + 2) presetE2m1
  loadTable y (0x10000 + 16 + 3) presetI8

end Sys2Proof.Machine
end

