-- ==== Sys2Proof/Machine/Control.lean ====
section
/-!
DEFINITION. Sys2Proof/Machine/Control.lean: the tile control space (R26): the words of its tables as R214, R216, R220, R446,
R138, R103, R122, R163 lay them out, read and written.
-/

namespace Sys2Proof.Machine

/-- Word 0 of a task descriptor (R214). -/
def slotWord0 (d : Slot) : Nat :=
  b2n d.bound * 2 ^ 63 + b2n d.ar * 2 ^ 49 + b2n d.nr * 2 ^ 48 + d.budget % 2 ^ 16 * 2 ^ 32 + d.prio % 4 * 2 ^ 16 + d.entry % 2 ^ 15

/-- A descriptor with one of its words stored (R214): BOUND is read-only. -/
def slotSet (d : Slot) (w v : Nat) : Slot :=
  if w = 0 then { d with ar := bit v 49, nr := bit v 48, budget := bits v 47 32, prio := bits v 17 16, entry := bits v 14 0 }
  else if w = 1 then { d with reload := bits v 15 0 }
  else if w = 2 then { d with arg := BitVec.ofNat 64 v }
  else d

/-- One word of a task descriptor. -/
def slotWord (d : Slot) (w : Nat) : Nat :=
  if w = 0 then slotWord0 d else if w = 1 then d.reload % 2 ^ 16 else if w = 2 then d.arg.toNat else 0

/-- A counter word (R216). -/
def ctrWord (c : Ctr) : Nat := b2n c.overrun * 2 ^ 17 + b2n c.pending * 2 ^ 16 + c.count % 2 ^ 16

/-- A counter from its word. -/
def ctrOf (v : Nat) : Ctr := { count := bits v 15 0, pending := bit v 16, overrun := bit v 17 }

/-- A ready-queue word (R220); a free record reads zero. -/
def recWord (k : Task) (r : Nat) : Nat :=
  if k.recs.any fun e => e.1 == r then
    let x := FMap.get {} k.recs r
    x.seq % 2 ^ 16 * 2 ^ 48 + 2 ^ 47 + b2n x.run * 2 ^ 46 + x.entry % 2 ^ 15 * 2 ^ 17 + b2n x.hold * 2 ^ 16
      + x.cause % 256 * 2 ^ 8 + x.prio % 4 * 2 ^ 6 + x.slot % 64
  else 0

/-- The last number before `now` that the 16 bits of a SEQ field show (R446): the tables keep their whole numbers. -/
def liftSeq (now v : Nat) : Nat := now - 1 - (now + 65535 - v) % 65536

/-- A ready-queue record loaded from the word of an image (R220, R378). -/
def recLoad (k : Task) (r v : Nat) : Task :=
  if bit v 47 then
    let x := FMap.get {} k.recs r
    { k with recs := FMap.put k.recs r { x with seq := liftSeq k.seq (bits v 63 48), run := bit v 46, entry := bits v 31 17, hold := bit v 16,
                                                cause := bits v 15 8, prio := bits v 7 6, slot := bits v 5 0 } }
  else { k with recs := FMap.drop k.recs r }

/-- A posted-receive entry's words (R446). -/
def recvWord (x : Recv) (w : Nat) : Nat :=
  if w = 2 then
    (if x.state = 15 then 15 * 2 ^ 40 + x.gen % 256 * 2 ^ 32
     else x.seq % 2 ^ 16 * 2 ^ 48 + b2n x.psn * 2 ^ 47 + b2n x.fe * 2 ^ 46 + x.state % 16 * 2 ^ 40 + x.gen % 256 * 2 ^ 32 + x.mask % 2 ^ 32)
  else if x.state = 15 then 0
  else if w = 0 then x.bw else if w = 1 then x.ew
  else x.sdesc % 2 ^ 16 * 2 ^ 48 + x.done % 2 ^ 24 * 2 ^ 24 + x.length % 2 ^ 24

/-- A posted-receive entry with one word written (R446), `now` being the tile's next posting number; a Free entry keeps only GEN. -/
def recvSet (now : Nat) (x : Recv) (w v : Nat) : Recv :=
  if w = 0 then { x with bw := v } else if w = 1 then { x with ew := v }
  else if w = 2 then
    if bits v 43 40 = 15 then { gen := bits v 39 32 }
    else { x with seq := liftSeq now (bits v 63 48), psn := bit v 47, fe := bit v 46, state := bits v 43 40, gen := bits v 39 32, mask := bits v 31 0 }
  else { x with sdesc := bits v 63 48, done := bits v 47 24, length := bits v 23 0 }

/-- An unexpected-header entry's words (R446). -/
def unexpWord (x : Unexp) (w : Nat) : Nat :=
  if w = 0 then x.ew
  else if w = 1 then x.length % 2 ^ 24 * 2 ^ 32 + x.src % 2 ^ 32
  else if w = 2 then
    x.seq % 2 ^ 16 * 2 ^ 48 + x.sdesc % 2 ^ 16 * 2 ^ 32 + b2n x.relaxed * 2 ^ 28 + b2n x.poison * 2 ^ 27 + x.state % 4 * 2 ^ 25
      + x.cells.headD 0 % 2 ^ 13
  else x.cells.getLastD 0 % 2 ^ 13

/-- A chain of cells with the ends that FIRST and LAST give for a payload of `len` bytes; the cells between them are the trough map's (R446). -/
def chainOf (first last len : Nat) (old : List Nat) : List Nat :=
  if first = 0 ∧ last = 0 ∧ len = 0 then []
  else if first = last ∧ len ≤ 256 then [first]
  else first :: (old.drop 1).dropLast ++ [last]

/-- An unexpected-header entry with one word written (R446), `now` being the tile's next arrival number: FIRST and LAST are the ends of its
chain of cells. Word 2 with STATE 0 frees the entry. -/
def unexpSet (now : Nat) (x : Unexp) (w v : Nat) : Unexp :=
  let first := x.cells.headD 0
  let last := x.cells.getLastD 0
  if w = 0 then { x with ew := v }
  else if w = 1 then { x with length := bits v 55 32, src := bits v 31 0, cells := chainOf first last (bits v 55 32) x.cells }
  else if w = 2 then
    if bits v 26 25 = 0 then {}
    else { x with seq := liftSeq now (bits v 63 48), sdesc := bits v 47 32, relaxed := bit v 28, poison := bit v 27, state := bits v 26 25
                  cells := chainOf (bits v 12 0) last x.length x.cells }
  else { x with cells := chainOf first (bits v 12 0) x.length x.cells }

/-- A send-queue entry's words (R446). -/
def sendWord (x : Send) (w : Nat) : Nat :=
  if w = 0 then x.bw else if w = 1 then x.ew
  else if w = 2 then
    x.seq % 2 ^ 16 * 2 ^ 48 + x.state % 16 * 2 ^ 44 + b2n x.rel * 2 ^ 43 + b2n x.rdv * 2 ^ 42 + b2n x.vec * 2 ^ 41 + b2n x.ctl * 2 ^ 40
      + b2n x.resume * 2 ^ 39 + x.dest % 2 ^ 32
  else x.sent % 2 ^ 24 * 2 ^ 40 + x.accepted % 2 ^ 24 * 2 ^ 16 + x.handle % 2 ^ 16

/-- A send-queue entry with one word written (R446), `now` being the tile's next issue number. Word 2 with STATE 0 frees the entry; from Released
on DEST is resolved (R244), and a Streaming or Refused message has had its header answered (R193). -/
def sendSet (now : Nat) (x : Send) (w v : Nat) : Send :=
  if w = 0 then { x with bw := v } else if w = 1 then { x with ew := v }
  else if w = 2 then
    if bits v 47 44 = 0 then {}
    else { x with seq := liftSeq now (bits v 63 48), res := decide (2 ≤ bits v 47 44), answered := x.answered || decide (4 ≤ bits v 47 44), state := bits v 47 44, rel := bit v 43, rdv := bit v 42, vec := bit v 41, ctl := bit v 40,
                              resume := bit v 39, dest := bits v 31 0 }
  else { x with sent := bits v 63 40, accepted := bits v 39 16, handle := bits v 15 0 }

/-- A spill-map entry as it may be written (R138): its reserved bits [12:10] are zero. -/
def spillField (v : Nat) : Nat := v % 2 ^ 10 + bits v 15 13 * 2 ^ 13

/-- Whether an offset lies in the map of R26. -/
def ctlMapped (o : Nat) : Bool :=
  decide (o < 0xA00) || (decide (0x1000 ≤ o) && decide (o < 0x1400)) || (decide (0x2000 ≤ o) && decide (o < 0x5800))
    || (decide (0x6000 ≤ o) && decide (o < 0x6200)) || (decide (0x8000 ≤ o) && decide (o < 0x9000))
    || (decide (0x10000 ≤ o) && decide (o < 0x14000)) || (decide (0x20000 ≤ o) && decide (o < 0x30800))

/-- 64 bits of a bitmap as a word (R122). -/
def bitmapWord (m : NSet) (k : Nat) : Nat :=
  (List.range 64).foldr (fun j n => n * 2 + b2n (NSet.mem m (64 * k + j))) 0

/-- A bitmap with one word written (R122). -/
def bitmapSet (m : NSet) (k v : Nat) : NSet :=
  (List.range 64).foldl (fun m j => FMap.set false m (64 * k + j) (bit v j)) m

/-- Two 32-bit entries of a table as a word. -/
def pairWord (m : FMap W32) (k : Nat) : Nat := (FMap.get 0 m (2 * k)).toNat + (FMap.get 0 m (2 * k + 1)).toNat * 2 ^ 32

/-- Two 32-bit entries written. -/
def pairSet (m : FMap W32) (k v : Nat) : FMap W32 :=
  FMap.put (FMap.put m (2 * k) (BitVec.ofNat 32 v)) (2 * k + 1) (BitVec.ofNat 32 (v / 2 ^ 32))

/-- Two entries of a decode table written: the bits [30:19] of each stay zero (R3, R103). -/
def tblSet (m : FMap W32) (k v : Nat) : FMap W32 :=
  pairSet m k (bits v 18 0 + bits v 31 31 * 2 ^ 31 + (bits v 50 32 + bits v 63 63 * 2 ^ 31) * 2 ^ 32)

/-- The 8-byte word at a control-space offset (R26). -/
def ctlRead (t : Tile) (o : Nat) : Nat :=
  let w := o % 32 / 8
  if o < 0x800 then slotWord (FMap.get {} t.task.slots (o / 32)) w
  else if o < 0x1000 then ctrWord (FMap.get {} t.task.ctrs ((o - 0x800) / 8))
  else if o < 0x2000 then recWord t.task ((o - 0x1000) / 8)
  else if o < 0x4000 then recvWord (FMap.get {} t.net.recvs ((o - 0x2000) / 32)) w
  else if o < 0x5000 then unexpWord (FMap.get {} t.net.unexp ((o - 0x4000) / 32)) w
  else if o < 0x6000 then sendWord (FMap.get {} t.net.sends ((o - 0x5000) / 32)) w
  else if o < 0x8000 then
    (List.range 4).foldr (fun j n => n * 2 ^ 16 + FMap.get 0 t.spill ((o - 0x6000) / 8 * 4 + j) % 2 ^ 16) 0
  else if o < 0x10000 then pairWord t.sys.tbl ((o - 0x8000) / 8)
  else if o < 0x12000 then bitmapWord t.full ((o - 0x10000) / 8)
  else if o < 0x20000 then bitmapWord t.poison ((o - 0x12000) / 8)
  else if o < 0x30000 then pairWord t.regs.acc ((o - 0x20000) / 8)
  else pairWord t.regs.v ((o - 0x30000) / 8)

/-- Whether the word at a control-space offset carries an uncorrectable accumulator error, as poison (R179). -/
def ctlPoison (t : Tile) (o : Nat) : Bool :=
  decide (0x20000 ≤ o) && decide (o < 0x30000) && t.accBad.any fun e => e.1 / 2 == (o - 0x20000) / 8

/-- A send put into a queue of held things before the first send issued later (R188, R446), or taken out of it. -/
def queueSend (m : FMap Send) (k : Nat) (there : Bool) (l : List Held) : List Held :=
  let l := l.filter (· != .send k)
  let later (h : Held) : Bool := match h with
    | .send d => decide ((FMap.get ({} : Send) m k).seq < (FMap.get ({} : Send) m d).seq)
    | _ => false
  if there then l.takeWhile (fun h => !later h) ++ .send k :: l.dropWhile (fun h => !later h) else l

/-- The order in which posted-receive entries became free, after an entry's state was written (R185). -/
def freedOrder (k : Nat) (old new : Recv) (l : List Nat) : List Nat :=
  if new.state = 15 then (if old.state = 15 then l else l.filter (· != k) ++ [k]) else l.filter (· != k)

/-- The tile with the 8-byte word at a control-space offset stored (R26): fields that are RO keep their values (R4), except those of the
counters, which firmware writes (R216), and reserved fields stay zero (R3). A send written as Held or Released is in the queue of
its state, in issue order; a Refused one blocks its place (R193); the cells that a written chain names are in use. -/
def ctlWrite (t : Tile) (o v : Nat) : Tile :=
  let w := o % 32 / 8
  if o < 0x800 then
    { t with task := { t.task with slots := FMap.put t.task.slots (o / 32) (slotSet (FMap.get {} t.task.slots (o / 32)) w v) } }
  else if o < 0x1000 then { t with task := { t.task with ctrs := FMap.put t.task.ctrs ((o - 0x800) / 8) (ctrOf v) } }
  else if o < 0x2000 then t
  else if o < 0x4000 then
    let k := (o - 0x2000) / 32
    let x : Recv := FMap.get {} t.net.recvs k
    let y := recvSet t.net.rseq x w v
    { t with net := { t.net with recvs := FMap.put t.net.recvs k y, rorder := freedOrder k x y t.net.rorder } }
  else if o < 0x5000 then
    let k := (o - 0x4000) / 32
    let x : Unexp := FMap.get {} t.net.unexp k
    let y := unexpSet t.net.useq x w v
    { t with net := { t.net with unexp := FMap.set {} t.net.unexp k y, cells := NSet.addAll (NSet.delAll t.net.cells x.cells) y.cells } }
  else if o < 0x6000 then
    let k := (o - 0x5000) / 32
    let x := sendSet t.net.sseq (FMap.get {} t.net.sends k) w v
    let m := FMap.set {} t.net.sends k x
    { t with net := { t.net with
        sends := m
        blocked := if w = 2 ∧ x.state = 5 then NSet.add t.net.blocked x.dest else t.net.blocked
        heldq := if w = 2 then queueSend m k (x.state == 1) t.net.heldq else t.net.heldq
        outq := if w = 2 then queueSend m k (x.state == 2) t.net.outq else t.net.outq } }
  else if o < 0x8000 then
    { t with spill := (List.range 4).foldl (fun m j => FMap.set 0 m ((o - 0x6000) / 8 * 4 + j) (spillField (v / 2 ^ (16 * j)))) t.spill }
  else if o < 0x10000 then { t with sys := { t.sys with tbl := tblSet t.sys.tbl ((o - 0x8000) / 8) v } }
  else if o < 0x12000 then { t with full := bitmapSet t.full ((o - 0x10000) / 8) v }
  else if o < 0x20000 then { t with poison := bitmapSet t.poison ((o - 0x12000) / 8) v }
  else if o < 0x30000 then
    { t with regs := { t.regs with acc := pairSet t.regs.acc ((o - 0x20000) / 8) v }
             accBad := t.accBad.filter fun e => e.1 / 2 != (o - 0x20000) / 8 }
  else { t with regs := { t.regs with v := pairSet t.regs.v ((o - 0x30000) / 8) v } }

/-- The tile with the 8-byte word at a control-space offset loaded from an image of the same layout by the restore engine (R26, R378): the
RO fields too. -/
def ctlLoad (t : Tile) (o v : Nat) : Tile :=
  if o < 0x800 then
    let t := ctlWrite t o v
    if o % 32 < 8 then
      { t with task := { t.task with slots := FMap.put t.task.slots (o / 32) { FMap.get {} t.task.slots (o / 32) with bound := bit v 63 } } }
    else t
  else if 0x1000 ≤ o ∧ o < 0x2000 then { t with task := recLoad t.task ((o - 0x1000) / 8) v }
  else ctlWrite t o v

end Sys2Proof.Machine
end

