-- ==== Sys2Proof/Machine/Local.lean ====
section
/-!
DEFINITION. Sys2Proof/Machine/Local.lean: local memory (R122–R139): the checks of an access, scalar loads and stores, the
full-bit instructions, vector loads and stores, local atomics and spill slots.
-/

namespace Sys2Proof.Machine

/-! ## Bytes as the thread sees them -/

/-- A byte under the waiting stores of older blocks and of its own (R323): the youngest that covers it. -/
def overByte (l : List Eff) (q a : Nat) (b : Byte) : Byte :=
  l.foldl (fun b e => match e with
    | .write q' ps _ => if q' = q then ps.foldl (fun b p => if p.1 ≤ a ∧ a < p.1 + p.2.length then p.2.getD (a - p.1) b else b) b else b
    | .full _ _ _ => b
    | .poison _ _ _ => b) b

/-- `n` bytes of tile `q`'s SRAM from offset `o`, as the issuing thread sees them. -/
def readLoc (s : State) (q o n : Nat) : List Byte :=
  let base := Mem.bytes (s.tile q).sram o n
  match s.t.bun.blk with
  | none => base
  | some b => (List.range n).map fun i => overByte b.seen q (o + i) (base.getD i 0)

/-- The Full bit that LDF, LDFC and VLDF test: as it stood before the bundle, under the block's waiting stores. -/
def fullLoc (s : State) (q sec : Nat) : Bool :=
  let base := match s.t.bun.pre with | some x => if q = s.cur then NSet.mem x.full sec else NSet.mem (s.tile q).full sec
                                      | none => NSet.mem (s.tile q).full sec
  match s.t.bun.blk with
  | none => base
  | some b => b.seen.foldl (fun v e => match e with
      | .full q' k w => if q' = q ∧ k = sec then w else v
      | .write q' ps fe => if fe ∧ q' = q ∧ sec ∈ pieceSectors ps then true else v
      | .poison _ _ _ => v) base

/-- Whether a sector of a tile reads as poisoned to the issuing thread: as before the bundle (R7, R42), under the waiting stores of its
block and of older ones, of which a clean cover clears it (R123). -/
def poisonLoc (s : State) (q sec : Nat) : Bool :=
  let base := if q = s.cur then NSet.mem (preTile s.t).poison sec else NSet.mem (s.tile q).poison sec
  match s.t.bun.blk with
  | none => base
  | some b => b.seen.foldl (fun v e => match e with
      | .write q' ps _ => if q' = q ∧ covers ps sec then false else v
      | .poison q' k w => if q' = q ∧ k = sec then w else v
      | .full _ _ _ => v) base

/-- Whether any sector of some bytes of a tile reads as poisoned to the issuing thread (R124). -/
def poisonedLoc (s : State) (q o n : Nat) : Bool := (sectorsOf o n).any (poisonLoc s q)

/-- Effects of a yoked block kept for its commit (R323); the bundle that makes them does not see them (R42). -/
def addEffs (l : List Eff) (s : State) : State :=
  s.onT fun t => { t with bun := { t.bun with blk := t.bun.blk.map fun b => { b with effs := b.effs ++ l } } }

/-- The slice that holds a byte of tile `q` for the yoke that tile `p` leads (R323): 0 for the leader's SRAM outside its share, else the
member's. -/
def sliceOf (y : Yoke) (p q o : Nat) : Nat := if q = p ∧ ¬(y.base ≤ o ∧ o < y.base + y.size) then 0 else q + 1

/-- A yoked block's read noted (R323: a store that finds a younger load performed squashes it). -/
def noteRead (q o n : Nat) (s : State) : State :=
  if s.t.bun.blk.isSome then
    s.onT fun t => { t with bun := { t.bun with blk := t.bun.blk.map fun b =>
      { b with reads := b.reads ++ [(q, o, n)], ents := b.ents ++ [(t.bun.pos, sliceOf t.yk s.cur q o)] } } }
  else noteAccess q false false o n s

/-- Bytes that a yoked block's store reads as it makes its own (R323): a later store of an older block squashes it too. -/
def noteMixed (q o n : Nat) (s : State) : State := if s.t.bun.blk.isSome then noteRead q o n s else s

/-- One write of pieces of tile `q` by the thread. -/
def writeLoc (q : Nat) (ps : List (Nat × List Byte)) (fe : Bool) (s : State) : State :=
  if s.t.bun.blk.isSome then
    addEffs [.write q ps fe] (s.onT fun t => { t with bun := { t.bun with blk := t.bun.blk.map fun b =>
      { b with ents := b.ents ++ ps.map fun e => (t.bun.pos, sliceOf t.yk s.cur q e.1) } } })
  else ps.foldl (fun s e => noteAccess q false true e.1 e.2.length s) (s.onTile q fun t => t.writeAll ps fe false)

/-- One write of pieces that may lie in several tiles (the yoke window). -/
def writeLocs (ps : List (Nat × Nat × List Byte)) (fe : Bool) (s : State) : State :=
  (ps.map (·.1)).eraseDups.foldl
    (fun s q => writeLoc q ((ps.filter fun e => e.1 == q).map fun e => (e.2.1, e.2.2)) fe s) s

/-- A Full bit set or cleared by the thread. -/
def setFull (q sec : Nat) (v : Bool) (s : State) : State :=
  if s.t.bun.blk.isSome then addEffs [.full q sec v] s
  else s.onTile q fun t => { t with full := FMap.set false t.full sec v }

/-- The tile and the offset of a tile address in SRAM or in the yoke window (R23, R321). -/
def locOf (s : State) (ta : Nat) : Nat × Nat :=
  if bits ta 31 28 = 2 then
    let m := yokeMap s.t (bits ta 23 0)
    (yokeTile s s.cur m.1, m.2)
  else (s.cur, bits ta 20 0)

/-! ## BUNDLE_MEM (R41) -/

/-- The key under which a byte is compared by R41: SRAM offsets, control-space offsets, yoke-window offsets, slots. -/
def memKey (ta : Nat) : Nat :=
  if bits ta 31 28 = 0 then bits ta 20 0 else if bits ta 31 28 = 1 then 2 ^ 33 + bits ta 27 0 else 2 ^ 34 + bits ta 27 0

/-- The bytes an L syllable of a bundle of several accesses: BUNDLE_MEM where they overlap an earlier syllable's and one of
the two writes. Its DADDR is 0, as for a cause that names no address (log 107). -/
def noteMem (wr : Bool) (key len : Nat) (s : State) : State :=
  let b := s.t.bun
  if !b.coll || len == 0 then s
  else
    let hit := b.mem.any fun e => match e with
      | (pos, w, k, n) => pos != b.pos && (wr || w) && decide (k < key + len) && decide (key < k + n)
    let s := if hit then raise (tr cBundleMem) s else s
    s.onT fun t => { t with bun := { t.bun with mem := t.bun.mem ++ [(b.pos, wr, key, len)] } }

/-! ## The checks of an access -/

/-- The descriptor that governs an access: the window's in space 0, RAW elsewhere (R23, R114). -/
def winFor (s : State) (a : Int) : Nat :=
  let ta := a.toNat
  if !badSum a && bits ta 31 28 = 0 then wdOf s.t (bits ta 27 24) else 0

/-- The scale byte of the element at offset `o` (R102). -/
def scaleOff (w o : Nat) : Nat := wSpb w + (if wFmt w = 6 then o / 2 else o / 4)

/-- Where an access of `n` bytes lies outside what its address decodes to (R23, R102, R126, R321). `full` marks the forms that
the yoke window refuses (R126).
Of an access to the control space only the first offset is held against the map (log 88). -/
def rangeBad (s : State) (w : Nat) (a : Int) (n : Nat) (full : Bool) : Bool :=
  let ta := a.toNat
  badSum a || match spaceOf s.t ta with
    | .bad => true
    | .sram _ => decide (bits ta 20 0 + n > sramTop) || (fmtScaled (wFmt w) && decide (scaleOff w (bits ta 20 0) ≥ sramTop))
    | .ctl => !ctlMapped (bits ta 27 0) || decide (bits ta 27 0 % 2 ^ 28 + n > 2 ^ 28)
    | .yoke => full || decide (bits ta 27 0 + n > s.t.yk.n * s.t.yk.size)

/-- Whether an access misses its alignment, is not the one form that the control space admits (`ctlForm`: LDD, STD), or
crosses a 256-byte granule of the yoke window (R26, R127, R321). -/
def alignBad (s : State) (a : Int) (n al : Nat) (ctlForm : Bool) : Bool :=
  let ta := a.toNat
  match spaceOf s.t ta with
  | .ctl => !ctlForm || ta % 8 != 0
  | .yoke => ta % al != 0 || decide (ta % 256 + n > 256)
  | _ => ta % al != 0

/-- Whether an access is to the control space by a user task (R23). -/
def privBad (s : State) (a : Int) : Bool := !badSum a && bits a.toNat 31 28 == 1 && !s.t.sys.fw

/-- Whether a thread read of `n` bytes at a tile address meets poison (R124). -/
def poisonAt (s : State) (a : Int) (n : Nat) : Bool :=
  match spaceOf s.t a.toNat with
  | .ctl => ctlPoison s.t (bits a.toNat 27 0)
  | .bad => false
  | _ => let l := locOf s a.toNat; poisonedLoc s l.1 l.2 n

/-- Whether the scale byte of the element at `a` is poisoned. -/
def scalePoison (s : State) (w : Nat) (a : Int) : Bool :=
  fmtScaled (wFmt w) && poisonedLoc s s.cur (scaleOff w (bits a.toNat 20 0)) 1

/-! ## Scalar accesses (R129) -/

/-- The bytes of a scalar access: the size in RAW, one element for LDW, LDWN and STW through an element window (R114). -/
def scalarLen (w size : Nat) (word : Bool) : Nat := if word && wFmt w != 0 then fmtBits (wFmt w) / 8 else size

/-- The checks of a scalar access before any wait (R126, R127, R114, R115). -/
def scalarChecks (s : State) (a : Int) (size : Nat) (word store full : Bool) : List (Bool × TrapInfo) :=
  let w := winFor s a
  let n := scalarLen w size word
  let d := daddrOf a
  [(privBad s a, tr cPriv d),
   (wFmt w != 0 && (!word || fmtNib (wFmt w)), tr cWindow d),
   (rangeBad s w a n full, tr cLocalRange d),
   (!badSum a && alignBad s a n n (size == 8 && !full), tr cAlign d),
   (store && fmtCode (wFmt w) && !tableOk (preSys s.t) (wTbl w) (fmtNib (wFmt w)), tr cTable d)]

/-- The poison check of a scalar access (R124): the bytes read, and the scale byte. -/
def scalarPoison (s : State) (a : Int) (size : Nat) (word load : Bool) : Bool × TrapInfo :=
  let w := winFor s a
  ((load && poisonAt s a (scalarLen w size word)) || scalePoison s w a, tr cPoison (daddrOf a))

/-- The number a scalar load finds: bytes in RAW, the widened lane through an element window, the word in control space. -/
def scalarRead (s : State) (a : Int) (size : Nat) (word : Bool) : Nat :=
  let w := winFor s a
  let ta := a.toNat
  if bits ta 31 28 = 1 then ctlRead (preTile s.t) (bits ta 27 0)
  else
    let l := locOf s ta
    let raw := leNat (readLoc s l.1 l.2 (scalarLen w size word))
    if word && wFmt w != 0 then
      widenElem (preSys s.t) w raw (leNat (readLoc s s.cur (scaleOff w (bits ta 20 0)) 1))
    else raw

/-- The bytes a scalar access touches noted for R41, R323 and R431; a store reads its scale byte too. -/
def scalarNote (wr : Bool) (a : Int) (size : Nat) (word : Bool) (s : State) : State :=
  let w := winFor s a
  let ta := a.toNat
  let n := scalarLen w size word
  let s := noteMem wr (memKey ta) n s
  let s := if fmtScaled (wFmt w) then noteMem false (scaleOff w (bits ta 20 0)) 1 s else s
  let s := if fmtScaled (wFmt w) then noteRead s.cur (scaleOff w (bits ta 20 0)) 1 s else s
  if bits ta 31 28 = 1 then s
  else if wr then s
  else
    let l := locOf s ta
    noteRead l.1 l.2 n s

/-- A scalar load (R129): `ext` extends what was read. -/
def load (g : Nat) (n : Bool) (d a : Nat) (off : Int) (size : Nat) (word : Bool) (ext : Nat → W64) (s : State) : State :=
  guarded g n (fun s =>
    let ad : Int := (rg s a).toNat + off
    checked (scalarChecks s ad size word false false ++ [scalarPoison s ad size word true])
      (fun s => scalarNote false ad size word (wg d (ext (scalarRead s ad size word)) s)) s) s

/-- The bytes a scalar store writes, with the flags of its encoding (R129, R110, R112). -/
def storeData (s : State) (a : Int) (v size : Nat) (word : Bool) : List Byte × BitVec 5 :=
  let w := winFor s a
  let n := scalarLen w size word
  if word && wFmt w != 0 then
    let r := if fmtScaled (wFmt w) then
        narrowScaled (preSys s.t) w (f32.unpack (v % 2 ^ 32)) (leNat (readLoc s s.cur (scaleOff w (bits a.toNat 20 0)) 1))
      else narrowElem (preSys s.t) w (v % 2 ^ 32)
    (natLe n r.1, r.2)
  else (natLe n v, 0)

/-- A scalar store's effect (R129): the bytes, FULL through an FE window, the flags; in control space the word. -/
def storeEffect (a : Int) (v size : Nat) (word : Bool) (s : State) : State :=
  let ta := a.toNat
  if bits ta 31 28 = 1 then s.onT fun t => ctlWrite t (bits ta 27 0) v
  else
    let l := locOf s ta
    let r := storeData s a v size word
    let s' := writeLoc l.1 [(l.2, r.1)] (wFe (winFor s a)) s
    if r.2 = 0 then s' else orFlags r.2 s'

/-- A scalar store (R129). -/
def store (g : Nat) (n : Bool) (d a : Nat) (off : Int) (size : Nat) (word : Bool) (s : State) : State :=
  guarded g n (fun s =>
    let ad : Int := (rg s a).toNat + off
    checked (scalarChecks s ad size word true false ++ [scalarPoison s ad size word false])
      (fun s => storeEffect ad (rg s d).toNat size word (scalarNote true ad size word s)) s) s

/-! ## Full-bit instructions (R130, R131) -/

/-- LDF and LDFC (R130): `clr` clears the Full bit. The checks of R126 and R127 come before the wait, poison after it. -/
def loadFull (g : Nat) (n : Bool) (d a : Nat) (off : Int) (clr : Bool) (s : State) : State :=
  guarded g n (fun s =>
    let ad : Int := (rg s a).toNat + off
    checked (scalarChecks s ad 8 false false true) (fun s =>
      let l := locOf s ad.toNat
      let s := if clr then noteMem true (memKey (ad.toNat / 32 * 32)) 32 s else noteMem false (memKey ad.toNat) 8 s
      if !fullLoc s l.1 (l.2 / 32) then stall (.full [l.2 / 32]) s
      else checked [scalarPoison s ad 8 false true] (fun s =>
        let s := noteRead l.1 l.2 8 (wg d (BitVec.ofNat 64 (scalarRead s ad 8 false)) s)
        if clr then setFull l.1 (l.2 / 32) false s else s) s) s) s

/-- STF (R130). -/
def storeFull (g : Nat) (n : Bool) (d a : Nat) (off : Int) (s : State) : State :=
  guarded g n (fun s =>
    let ad : Int := (rg s a).toNat + off
    checked (scalarChecks s ad 8 false true true) (fun s =>
      let l := locOf s ad.toNat
      let s := noteMem true (memKey (ad.toNat / 32 * 32)) 32 s
      writeLoc l.1 [(l.2, natLe 8 (rg s d).toNat)] true s) s) s

/-- The checks of FCLR and FSET, which ignore the window's format (R130). -/
def fullBitChecks (s : State) (a : Int) : List (Bool × TrapInfo) :=
  [(privBad s a, tr cPriv (daddrOf a)), (rangeBad s 0 a 1 true, tr cLocalRange (daddrOf a)),
   (!badSum a && spaceOf s.t a.toNat == .ctl, tr cAlign (daddrOf a))]

/-- FCLR and FSET (R130): the Full bit of the sector holding the address. -/
def fullBit (g : Nat) (n : Bool) (a : Nat) (off : Int) (v : Bool) (s : State) : State :=
  guarded g n (fun s =>
    let ad : Int := (rg s a).toNat + off
    checked (fullBitChecks s ad) (fun s =>
      let l := locOf s ad.toNat
      setFull l.1 (l.2 / 32) v (noteMem true (memKey (ad.toNat / 32 * 32)) 32 s)) s) s

/-- Extensions of a loaded number. -/
def zx (v : Nat) : W64 := BitVec.ofNat 64 v
def sxN (n : Nat) (v : Nat) : W64 := BitVec.ofInt 64 (sext v n)

/-- LDB (R129). -/
def execLdb (x : I) (s : State) : Out := .next (load x.g x.n x.d x.a (x.imm * 1) 1 false (sxN 8) s)

/-- LDBN (R129). -/
def execLdbn (x : I) (s : State) : Out := .next (load x.g x.n x.d x.a (x.imm * 1) 1 false zx s)

/-- LDH (R129). -/
def execLdh (x : I) (s : State) : Out := .next (load x.g x.n x.d x.a (x.imm * 2) 2 false (sxN 16) s)

/-- LDHN (R129). -/
def execLdhn (x : I) (s : State) : Out := .next (load x.g x.n x.d x.a (x.imm * 2) 2 false zx s)

/-- LDW (R129). -/
def execLdw (x : I) (s : State) : Out := .next (load x.g x.n x.d x.a (x.imm * 4) 4 true (sxN 32) s)

/-- LDWN (R129). -/
def execLdwn (x : I) (s : State) : Out := .next (load x.g x.n x.d x.a (x.imm * 4) 4 true zx s)

/-- LDD (R129). -/
def execLdd (x : I) (s : State) : Out := .next (load x.g x.n x.d x.a (x.imm * 8) 8 false zx s)

/-- STB (R129). -/
def execStb (x : I) (s : State) : Out := .next (store x.g x.n x.d x.a (x.imm * 1) 1 false s)

/-- STH (R129). -/
def execSth (x : I) (s : State) : Out := .next (store x.g x.n x.d x.a (x.imm * 2) 2 false s)

/-- STW (R129). -/
def execStw (x : I) (s : State) : Out := .next (store x.g x.n x.d x.a (x.imm * 4) 4 true s)

/-- STD (R129). -/
def execStd (x : I) (s : State) : Out := .next (store x.g x.n x.d x.a (x.imm * 8) 8 false s)

/-- LDF (R130). -/
def execLdf (x : I) (s : State) : Out := .next (loadFull x.g x.n x.d x.a (x.imm * 8) false s)

/-- LDFC (R130). -/
def execLdfc (x : I) (s : State) : Out := .next (loadFull x.g x.n x.d x.a (x.imm * 8) true s)

/-- STF (R130). -/
def execStf (x : I) (s : State) : Out := .next (storeFull x.g x.n x.d x.a (x.imm * 8) s)

/-- FCLR (R130). -/
def execFclr (x : I) (s : State) : Out := .next (fullBit x.g x.n x.a (x.imm * 32) false s)

/-- FSET (R130). -/
def execFset (x : I) (s : State) : Out := .next (fullBit x.g x.n x.a (x.imm * 32) true s)

/-- LDB.L (R129). -/
def execLdbL (x : L) (s : State) : Out := .next (load x.g x.n x.d x.a (sext x.imm 32) 1 false (sxN 8) s)

/-- LDBN.L (R129). -/
def execLdbnL (x : L) (s : State) : Out := .next (load x.g x.n x.d x.a (sext x.imm 32) 1 false zx s)

/-- LDH.L (R129). -/
def execLdhL (x : L) (s : State) : Out := .next (load x.g x.n x.d x.a (sext x.imm 32) 2 false (sxN 16) s)

/-- LDHN.L (R129). -/
def execLdhnL (x : L) (s : State) : Out := .next (load x.g x.n x.d x.a (sext x.imm 32) 2 false zx s)

/-- LDW.L (R129). -/
def execLdwL (x : L) (s : State) : Out := .next (load x.g x.n x.d x.a (sext x.imm 32) 4 true (sxN 32) s)

/-- LDWN.L (R129). -/
def execLdwnL (x : L) (s : State) : Out := .next (load x.g x.n x.d x.a (sext x.imm 32) 4 true zx s)

/-- LDD.L (R129). -/
def execLddL (x : L) (s : State) : Out := .next (load x.g x.n x.d x.a (sext x.imm 32) 8 false zx s)

/-- STB.L (R129). -/
def execStbL (x : L) (s : State) : Out := .next (store x.g x.n x.d x.a (sext x.imm 32) 1 false s)

/-- STH.L (R129). -/
def execSthL (x : L) (s : State) : Out := .next (store x.g x.n x.d x.a (sext x.imm 32) 2 false s)

/-- STW.L (R129). -/
def execStwL (x : L) (s : State) : Out := .next (store x.g x.n x.d x.a (sext x.imm 32) 4 true s)

/-- STD.L (R129). -/
def execStdL (x : L) (s : State) : Out := .next (store x.g x.n x.d x.a (sext x.imm 32) 8 false s)

/-- LDF.L (R130). -/
def execLdfL (x : L) (s : State) : Out := .next (loadFull x.g x.n x.d x.a (sext x.imm 32) false s)

/-- LDFC.L (R130). -/
def execLdfcL (x : L) (s : State) : Out := .next (loadFull x.g x.n x.d x.a (sext x.imm 32) true s)

/-- STF.L (R130). -/
def execStfL (x : L) (s : State) : Out := .next (storeFull x.g x.n x.d x.a (sext x.imm 32) s)

/-- FCLR.L (R130). -/
def execFclrL (x : L) (s : State) : Out := .next (fullBit x.g x.n x.a (sext x.imm 32) false s)

/-- FSET.L (R130). -/
def execFsetL (x : L) (s : State) : Out := .next (fullBit x.g x.n x.a (sext x.imm 32) true s)

/-! ## Vector accesses (R132–R136) -/

/-- One element of a vector access: its lane, its byte address, and for a 4-bit format whether it is the high nibble. -/
structure El where
  lane : Nat
  a : Int
  hi : Bool := false
deriving DecidableEq, Repr

/-- The elements of VLD, VST and VLDF (R132): lane i takes element e0 + i of the base's window. -/
def elsSeq (s : State) (q : Nat) (w : Nat) (base : Int) : List El :=
  ((List.range 16).filter fun i => lane s q i).map fun i =>
    { lane := i, a := base + ((i * fmtBits (wFmt w) / 8 : Nat) : Int), hi := fmtNib (wFmt w) && i % 2 == 1 }

/-- The elements of VLDB: element e0 for every selected lane. -/
def elsBcast (s : State) (q : Nat) (base : Int) : List El :=
  ((List.range 16).filter fun i => lane s q i).map fun i => { lane := i, a := base }

/-- The elements of VLDS and VSTS (R134): unit k at base + k·stride, of four elements in a scaled format, else of one. -/
def elsStride (s : State) (q : Nat) (w : Nat) (base stride : Int) : List El :=
  let u := if fmtScaled (wFmt w) then 4 else 1
  ((List.range 16).filter fun i => lane s q i).map fun i =>
    { lane := i, a := base + ((i / u : Nat) : Int) * stride + ((i % u * fmtBits (wFmt w) / 8 : Nat) : Int),
      hi := fmtNib (wFmt w) && i % u % 2 == 1 }

/-- The elements of VLDX and VSTX (R135). -/
def elsIndex (s : State) (q : Nat) (base : Int) (b : Nat) : List El :=
  ((List.range 16).filter fun i => lane s q i).map fun i => { lane := i, a := base + sext (rv s b i).toNat 32 }

/-- The bytes of one element. -/
def elLen (w : Nat) : Nat := if fmtNib (wFmt w) then 1 else fmtBits (wFmt w) / 8

/-- The alignment that a lane or unit address must meet, on the unit's first byte (R127). -/
def elUnit (w : Nat) (e : El) : Int :=
  if fmtScaled (wFmt w) then e.a - ((e.lane % 4 * fmtBits (wFmt w) / 8 : Nat) : Int) else e.a

/-- Whether some of `n` bytes from an address have not the same TA[31:21] as the base (R126). -/
def otherWindow (base a : Int) (n : Nat) : Bool :=
  a.toNat / 2 ^ 21 != base.toNat / 2 ^ 21 || (a.toNat + n - 1) / 2 ^ 21 != base.toNat / 2 ^ 21

/-- The checks of the selected lanes of a vector access through the window of `base` (R126–R128). `win` marks a format
that the form refuses, `full` a form that the yoke window refuses, `load` a form that reads its bytes.
An unselected lane has no check, though a scaled store writes its group. -/
def vecChecks (s : State) (w : Nat) (base : Int) (l : List El) (win full load bc : Bool) : List (Bool × TrapInfo) :=
  l.flatMap fun e =>
    let d := daddrOf e.a
    let u := if bc then e.a else elUnit w e
    [(privBad s e.a, tr cPriv d), (win, tr cWindow d),
     (badSum base || rangeBad s w e.a (elLen w) full || otherWindow base e.a (elLen w)
        || (!bc && fmtScaled (wFmt w) && (badSum u || otherWindow base u (fmtBits (wFmt w) / 2))), tr cLocalRange d),
     (!badSum e.a && (alignBad s e.a (elLen w) 1 false || u.toNat % fmtAlign (wFmt w) != 0), tr cAlign d),
     (load && !badSum e.a && (poisonAt s e.a (elLen w) || scalePoison s w e.a), tr cPoison d)]

/-- The TABLE test of a store's window, made whatever the mask (R115). -/
def tableCheck (s : State) (w : Nat) (base : Int) : Bool × TrapInfo :=
  (fmtCode (wFmt w) && !tableOk (preSys s.t) (wTbl w) (fmtNib (wFmt w)), tr cTable (daddrOf base))

/-- The raw element at an address. -/
def rawEl (s : State) (w : Nat) (e : El) : Nat :=
  let l := locOf s e.a.toNat
  let b := leNat (readLoc s l.1 l.2 (elLen w))
  if fmtNib (wFmt w) then (if e.hi then b / 16 else b % 16) else b

/-- The widened lane of an element. -/
def elLane (s : State) (w : Nat) (e : El) : W32 :=
  let sb := if fmtScaled (wFmt w) then leNat (readLoc s s.cur (scaleOff w (bits e.a.toNat 20 0)) 1) else 0
  BitVec.ofNat 32 (widenElem (preSys s.t) w (rawEl s w e) sb)

/-- The bytes of a vector access noted for R41. -/
def vecMem (w : Nat) (wr : Bool) (l : List El) (s : State) : State :=
  l.foldl (fun s e =>
    let s := noteMem wr (memKey e.a.toNat) (elLen w) s
    if fmtScaled (wFmt w) then noteMem wr (scaleOff w (bits e.a.toNat 20 0)) 1 s else s) s

/-- The bytes a vector load reads noted for R323 and R431. -/
def vecReads (w : Nat) (l : List El) (s : State) : State :=
  l.foldl (fun s e =>
    let c := locOf s e.a.toNat
    let s := noteRead c.1 c.2 (elLen w) s
    if fmtScaled (wFmt w) then noteRead s.cur (scaleOff w (bits e.a.toNat 20 0)) 1 s else s) s

/-- The selected lanes loaded into v[d] (R128, R132). -/
def loadLanes (d w : Nat) (l : List El) (s : State) : State :=
  vecReads w l (vecMem w false l (wv d (fun i => (l.find? fun e => e.lane == i).map (elLane s w)) s))

/-- A vector load: checks, then for VLDF the wait for its data sectors, then poison, then the lanes (R128, R131, R132). -/
def vload (d : Nat) (w : Nat) (base : Int) (l : List El) (win full bc : Bool) (s : State) : State :=
  if full then
    checked (vecChecks s w base l win true false bc) (fun s =>
      let secs := (l.flatMap fun e => sectorsOf (bits e.a.toNat 20 0) (elLen w)).eraseDups
      if secs.all (fullLoc s s.cur) then checked (vecChecks s w base l win true true bc) (loadLanes d w l) s
      else stall (.full secs) (vecMem w false l s)) s
  else checked (vecChecks s w base l win false true bc) (loadLanes d w l) s

/-- A raw element's bytes put at an address; a nibble keeps the other half of its byte, of this write or of memory. -/
def elPiece (s : State) (w : Nat) (e : El) (raw : Nat) (done : List (Nat × Nat × List Byte)) : Nat × Nat × List Byte :=
  let l := locOf s e.a.toNat
  if fmtNib (wFmt w) then
    let old := match done.reverse.find? fun p => p.1 == l.1 && p.2.1 == l.2 with
      | some p => leNat p.2.2
      | none => leNat (readLoc s l.1 l.2 1)
    (l.1, l.2, natLe 1 (if e.hi then old % 16 + raw % 16 * 16 else old / 16 * 16 + raw % 16))
  else (l.1, l.2, natLe (elLen w) raw)

/-- The pieces of a store of raw elements, in ascending lane order (R134–R136). -/
def elPieces (s : State) (w : Nat) (l : List (El × Nat)) : List (Nat × Nat × List Byte) :=
  l.foldl (fun done p => done ++ [elPiece s w p.1 p.2 done]) []

/-- The elements that a scaled store writes: whole groups of four lanes with a selected lane (R133). -/
def wholeGroups (all : List El) (sel : Nat → Bool) : List El :=
  all.filter fun e => (List.range 4).any fun j => sel (e.lane / 4 * 4 + j)

/-- The scale byte of a lane's group (R112, R133). -/
def groupScale (s : State) (w d g : Nat) : Nat :=
  blockScale (dtsEmax (dtsOf (preSys s.t) (wTbl w))) ((List.range 4).map fun j => f32.unpack (rv s d (4 * g + j)).toNat)

/-- The raw element and the flags that a lane stores. -/
def laneRaw (s : State) (w d : Nat) (e : El) : Nat × BitVec 5 :=
  if fmtScaled (wFmt w) then narrowScaled (preSys s.t) w (f32.unpack (rv s d e.lane).toNat) (groupScale s w d (e.lane / 4))
  else narrowElem (preSys s.t) w (rv s d e.lane).toNat

/-- The lanes of v[d] stored (R132–R135): all data and then all scale bytes, so that where one unit's data lie on another unit's scale byte the
scale byte stays (log 108); FULL of the data sectors, flags. -/
def storeLanes (d w : Nat) (l : List El) (s : State) : State :=
  let raws := l.map fun e => (e, laneRaw s w d e)
  let s := if fmtNib (wFmt w) then l.foldl (fun s e => let c := locOf s e.a.toNat; noteMixed c.1 c.2 1 s) s else s
  let s' := writeLocs (elPieces s w (raws.map fun p => (p.1, p.2.1))) (wFe w) (vecMem w true l s)
  let scales := if fmtScaled (wFmt w) then
      (l.filter fun e => e.lane % 4 == 0).map fun e => (s.cur, scaleOff w (bits e.a.toNat 20 0), natLe 1 (groupScale s w d (e.lane / 4)))
    else []
  let s' := if scales.isEmpty then s' else writeLocs scales false s'
  let f := raws.foldl (fun f p => f ||| p.2.2) 0
  if f = 0 then s' else orFlags f s'

/-- A vector store: the TABLE test, the checks of the selected lanes `l`, the stores of the elements `st`. -/
def vstore (d w : Nat) (base : Int) (l st : List El) (win : Bool) (s : State) : State :=
  checked (tableCheck s w base :: vecChecks s w base l win false false false) (storeLanes d w st) s

/-- The sum of two g registers as an exact address (R132); both are taken unsigned (log 109). -/
def baseSum (x : V) (s : State) : Int := (rg s x.a).toNat + (rg s x.b).toNat
def baseReg (x : V) (s : State) : Int := (rg s x.a).toNat
def strideReg (x : V) (s : State) : Int := (rg s x.b).toInt

/-- All lanes, for a scaled store's groups. -/
def elsSeqAll (w : Nat) (base : Int) : List El :=
  (List.range 16).map fun i => { lane := i, a := base + ((i * fmtBits (wFmt w) / 8 : Nat) : Int), hi := fmtNib (wFmt w) && i % 2 == 1 }

def elsStrideAll (w : Nat) (base stride : Int) : List El :=
  (List.range 16).map fun i =>
    { lane := i, a := base + ((i / 4 : Nat) : Int) * stride + ((i % 4 * fmtBits (wFmt w) / 8 : Nat) : Int),
      hi := fmtNib (wFmt w) && i % 2 == 1 }

/-- VLD (R132). -/
def execVld (x : V) (s : State) : Out :=
  .next (let w := winFor s (baseSum x s); vload x.d w (baseSum x s) (elsSeq s x.q w (baseSum x s)) false false false s)

/-- VST (R132, R133). -/
def execVst (x : V) (s : State) : Out :=
  .next (
    let w := winFor s (baseSum x s)
    let l := elsSeq s x.q w (baseSum x s)
    vstore x.d w (baseSum x s) l (if fmtScaled (wFmt w) then wholeGroups (elsSeqAll w (baseSum x s)) (lane s x.q) else l) false s)

/-- VLDB (R132). -/
def execVldb (x : V) (s : State) : Out :=
  .next (let w := winFor s (baseSum x s); vload x.d w (baseSum x s) (elsBcast s x.q (baseSum x s)) false false true s)

/-- VLDS (R134). -/
def execVlds (x : V) (s : State) : Out :=
  .next (
    let w := winFor s (baseReg x s)
    vload x.d w (baseReg x s) (elsStride s x.q w (baseReg x s) (strideReg x s)) false false false s)

/-- VSTS (R134). -/
def execVsts (x : V) (s : State) : Out :=
  .next (
    let w := winFor s (baseReg x s)
    let l := elsStride s x.q w (baseReg x s) (strideReg x s)
    vstore x.d w (baseReg x s) l (if fmtScaled (wFmt w) then wholeGroups (elsStrideAll w (baseReg x s) (strideReg x s)) (lane s x.q) else l) false s)

/-- VLDX (R135). -/
def execVldx (x : V) (s : State) : Out :=
  .next (
    let w := winFor s (baseReg x s)
    vload x.d w (baseReg x s) (elsIndex s x.q (baseReg x s) x.b) (fmtScaled (wFmt w)) false true s)

/-- VSTX (R135). -/
def execVstx (x : V) (s : State) : Out :=
  .next (
    let w := winFor s (baseReg x s)
    let l := elsIndex s x.q (baseReg x s) x.b
    vstore x.d w (baseReg x s) l l (fmtScaled (wFmt w)) s)

/-- VLDF (R132): waits for the sectors of its data. -/
def execVldf (x : V) (s : State) : Out :=
  .next (let w := winFor s (baseSum x s); vload x.d w (baseSum x s) (elsSeq s x.q w (baseSum x s)) false true false s)

/-! ## The transposing forms (R136) -/

/-- The checks of the selected rows of VLDT and VSTT. -/
def rowChecks (s : State) (x : V) (load : Bool) : List (Bool × TrapInfo) :=
  let base := baseReg x s
  ((List.range 16).filter fun k => lane s x.q k).flatMap fun (k : Nat) =>
    let a := base + (k : Int) * strideReg x s
    let d := daddrOf a
    [(privBad s a, tr cPriv d), (wFmt (winFor s base) != 0, tr cWindow d),
     (badSum base || rangeBad s 0 a 64 false || a.toNat / 2 ^ 21 != base.toNat / 2 ^ 21 || (a.toNat + 63) / 2 ^ 21 != base.toNat / 2 ^ 21,
      tr cLocalRange d),
     (!badSum a && (alignBad s a 64 4 false || (rg s x.a).toNat % 4 != 0 || (rg s x.b).toNat % 4 != 0), tr cAlign d),
     (load && !badSum a && poisonAt s a 64, tr cPoison d)]

/-- The tile address of row k, as a number. -/
def rowAddr (s : State) (x : V) (k : Nat) : Nat := (baseReg x s + (k : Int) * strideReg x s).toNat

/-- VLDT (R136). -/
def execVldt (x : V) (s : State) : Out :=
  .next (checked (rowChecks s x true) (fun s =>
    let rows := (List.range 16).filter fun k => lane s x.q k
    let s' := (List.range 16).foldl (fun s' j =>
      wv (x.d + j) (fun k => if lane s x.q k then
          let l := locOf s (rowAddr s x k)
          some (BitVec.ofNat 32 (leNat (readLoc s l.1 (l.2 + 4 * j) 4))) else none) s') s
    rows.foldl (fun s' k =>
      let l := locOf s (rowAddr s x k)
      noteRead l.1 l.2 64 (noteMem false (memKey (rowAddr s x k)) 64 s')) s') s)

/-- VSTT (R136): the TABLE test whatever the mask (R115); rows in ascending k; FULL of every sector through an FE window. -/
def execVstt (x : V) (s : State) : Out :=
  .next (checked (tableCheck s (winFor s (baseReg x s)) (baseReg x s) :: rowChecks s x false) (fun s =>
    let rows := (List.range 16).filter fun k => lane s x.q k
    let s' := rows.foldl (fun s' k => noteMem true (memKey (rowAddr s x k)) 64 s') s
    writeLocs (rows.map fun k =>
      let l := locOf s (rowAddr s x k)
      (l.1, l.2, (List.range 16).flatMap fun j => natLe 4 (rv s (x.d + j) k).toNat)) (wFe (winFor s (baseReg x s))) s') s)

/-! ## Local atomics (R137) -/

/-- The address, checks and effect of a local atomic: `f old b` is the value written, or none where nothing is written; for the watchpoints it is a
read and a write either way (R431). -/
def atomicL (x : R) (f : Nat → W64 → W64 → W64 → Option W64) (s : State) : State :=
  guarded x.g x.n (fun s =>
    let a : Int := (rg s x.a).toNat
    let size := if x.m = 1 then 4 else 8
    checked ((scalarChecks s a size false false true).map (fun c =>
        if c.2.cause = cAlign then (!badSum a && alignBad s a size size false, c.2) else c)
        ++ [scalarPoison s a size false true]) (fun s =>
      let l := locOf s a.toNat
      let n := leNat (readLoc s l.1 l.2 size)
      let old : W64 := if x.m = 1 then sx32 (BitVec.ofNat 32 n) else BitVec.ofNat 64 n
      let b := if x.m = 1 then sx32 (lo32 (rg s x.b)) else rg s x.b
      let d := if x.m = 1 then sx32 (lo32 (rg s x.d)) else rg s x.d
      let s := noteRead l.1 l.2 size (noteMem true (memKey a.toNat) size s)
      let s' := match f x.m old b d with
        | some v => writeLoc l.1 [(l.2, natLe size v.toNat)] false s
        | none => noteAccess l.1 false true l.2 size s
      wg x.d old s') s) s

/-- LAADD (R137). -/
def execLaadd (x : R) (s : State) : Out := .next (atomicL x (fun _ o b _ => some (o + b)) s)
/-- LAAND (R137). -/
def execLaand (x : R) (s : State) : Out := .next (atomicL x (fun _ o b _ => some (o &&& b)) s)
/-- LAOR (R137). -/
def execLaor (x : R) (s : State) : Out := .next (atomicL x (fun _ o b _ => some (o ||| b)) s)
/-- LAXOR (R137). -/
def execLaxor (x : R) (s : State) : Out := .next (atomicL x (fun _ o b _ => some (o ^^^ b)) s)
/-- LAMIN (R137): signed. -/
def execLamin (x : R) (s : State) : Out := .next (atomicL x (fun _ o b _ => some (if b.slt o then b else o)) s)
/-- LAMAX (R137): signed. -/
def execLamax (x : R) (s : State) : Out := .next (atomicL x (fun _ o b _ => some (if o.slt b then b else o)) s)
/-- LAMINN (R137): unsigned; sign-extended 32-bit operands keep their unsigned order. -/
def execLaminn (x : R) (s : State) : Out := .next (atomicL x (fun _ o b _ => some (if b.ult o then b else o)) s)
/-- LAMAXN (R137): unsigned. -/
def execLamaxn (x : R) (s : State) : Out := .next (atomicL x (fun _ o b _ => some (if o.ult b then b else o)) s)
/-- LASWAP (R137). -/
def execLaswap (x : R) (s : State) : Out := .next (atomicL x (fun _ _ b _ => some b) s)
/-- LACAS (R137): nothing is written where the old value differs from g[D]. -/
def execLacas (x : R) (s : State) : Out := .next (atomicL x (fun _ o b d => if o = d then some b else none) s)

/-! ## Spill slots (R138, R139) -/

/-- Fields of a spill-map entry (R138). -/
def spValid (e : Nat) : Bool := bit e 15
def spKind (e : Nat) : Nat := bits e 14 13
def spAcc (e : Nat) : Nat := bits e 9 6
def spPiece (e : Nat) : Nat := bits e 5 0

/-- The entry for piece k of accumulator c, for vector register r, and for SRAM. -/
def spAccEnt (c k : Nat) : Nat := 2 ^ 15 + 1 * 2 ^ 13 + c * 2 ^ 6 + k
def spVecEnt (r : Nat) : Nat := 2 ^ 15 + 2 * 2 ^ 13 + r
def spSramEnt : Nat := 2 ^ 15

/-- Whether a valid slot occupies the place of an entry. -/
def spTaken (t : Tile) (e : Nat) : Bool := t.spill.any fun p => p.2 == e

/-- The places of R22 outside the allotments, in their order: accumulators from a15 down, piece by piece, then vector
registers from v31 down. -/
def spPlaces (t : Tile) : List Nat :=
  ((List.range 16).reverse.filter fun c => decide (t.sys.aa ≤ c)).flatMap (fun c => (List.range 64).map (spAccEnt c))
    ++ ((List.range 32).reverse.filter fun r => decide (t.sys.va ≤ r)).map spVecEnt

/-- The first free place for a slot (R22, R139). -/
def spFree (t : Tile) : Nat := ((spPlaces t).find? fun e => !spTaken t e).getD spSramEnt

/-- The SRAM place of a slot. -/
def spOff (t : Tile) (slot : Nat) : Nat := (preSys t).spbase.toNat + 64 * slot

/-- The 64 bytes at the place of an entry. -/
def spRead (t : Tile) (slot e : Nat) : List Byte :=
  if spKind e = 1 then (List.range 16).flatMap fun j => natLe 4 (FMap.get 0 t.regs.acc (1024 * spAcc e + 16 * spPiece e + j)).toNat
  else if spKind e = 2 then (List.range 16).flatMap fun j => natLe 4 (FMap.get 0 t.regs.v (16 * (spPiece e % 32) + j)).toNat
  else Mem.bytes t.sram (spOff t slot) 64

/-- 16 words written from a list of bytes. -/
def putWords (m : FMap W32) (k : Nat) (d : List Byte) : FMap W32 :=
  (List.range 16).foldl (fun m j => FMap.put m (k + j) (BitVec.ofNat 32 (leNat ((d.drop (4 * j)).take 4)))) m

/-- The 64 bytes written to the place of an entry; an SRAM place is two whole sectors (R139). -/
def spWrite (t : Tile) (slot e : Nat) (d : List Byte) : Tile :=
  if spKind e = 1 then
    { t with regs := { t.regs with acc := putWords t.regs.acc (1024 * spAcc e + 16 * spPiece e) d }
             accBad := NSet.delAll t.accBad ((List.range 16).map (1024 * spAcc e + 16 * spPiece e + ·)) }
  else if spKind e = 2 then { t with regs := { t.regs with v := putWords t.regs.v (16 * (spPiece e % 32)) d } }
  else t.write (spOff t slot) d false false

/-- The bytes of v[n]. -/
def vBytes (s : State) (n : Nat) : List Byte := (List.range 16).flatMap fun i => natLe 4 (rv s n i).toNat

/-- The two notes of a spill access for R41: the slot itself, and its SRAM bytes where its place is SRAM. -/
def spNote (wr : Bool) (slot e : Nat) (s : State) : State :=
  let s := noteMem true (2 ^ 35 + 64 * slot) 64 s
  if spKind e = 0 then noteMem wr (spOff s.t slot) 64 s else s

/-- VSPL (R139). An accumulator that a command queued before its release still uses is waited for (R98). -/
def execVspl (x : V) (s : State) : Out :=
  .next (checked [(decide ((rg s x.a).toNat > 255), tr cLocalRange (rg s x.a).toNat)] (fun s =>
    let slot := (rg s x.a).toNat
    let old := FMap.get 0 s.t.spill slot
    let e := if spValid old then old else spFree s.t
    if spKind e = 1 && s.t.mx.queue.any (fun m => m.c == spAcc e) then stall (.mwait (some (spAcc e))) s
    else
      let d := vBytes s x.d
      let s := spNote true slot e (s.onT fun t => { t with spill := FMap.set 0 t.spill slot e })
      if spKind e = 0 then writeLoc s.cur [(spOff s.t slot, d)] false s else s.onT fun t => spWrite t slot e d) s)

/-- VFIL (R139): a slot not spilled in this activation gives free values (log 5). -/
def execVfil (x : V) (s : State) : Out :=
  .next (checked [(decide ((rg s x.a).toNat > 255), tr cLocalRange (rg s x.a).toNat)] (fun s =>
    let slot := (rg s x.a).toNat
    let e := FMap.get 0 (preTile s.t).spill slot
    if !spValid e then
      let f := s.takeFree
      noteMem true (2 ^ 35 + 64 * slot) 64 (wv x.d (fun i => some (Config.lane (16 * f.1 + i))) f.2)
    else checked [(spKind e == 0 && poisonedLoc s s.cur (spOff s.t slot) 64, tr cPoison (spOff s.t slot))] (fun s =>
      let d := if spKind e = 0 then readLoc s s.cur (spOff s.t slot) 64 else spRead (preTile s.t) slot e
      let s := if spKind e = 0 then noteRead s.cur (spOff s.t slot) 64 s else s
      spNote false slot e (wv x.d (fun i => some (BitVec.ofNat 32 (leNat ((d.drop (4 * i)).take 4)))) s)) s) s)

end Sys2Proof.Machine
end

