-- ==== Sys2Proof/Machine/System.lean ====
section
/-!
DEFINITION. Sys2Proof/Machine/System.lean: system registers (R28–R32, R89, R90), TRAP, BKPT, SLEEP, the allotments (R91–R98),
WDSET and TLOAD (R117, R118).
-/

namespace Sys2Proof.Machine

/-! ## Reading (R28) -/

/-- YSTAT (R31); SIZE reads 0 while Forming (log 112). -/
def ystat (t : Tile) : Nat :=
  let st := match t.yk.st with | .single => 0 | .forming => 1 | .yoked => 2 | .draining => 3 | .dissolved => 4
  let size := if t.yk.st == .single || t.yk.st == .forming then 0 else Nat.log2 t.yk.n
  st + size * 2 ^ 4 + t.yk.leader % 16 * 2 ^ 8 + t.yk.idx % 16 * 2 ^ 12

/-- TASK (R28): the running slot and the budget left in units of 1,024 cycles. -/
def taskReg (s : State) (t : Tile) : Nat :=
  t.task.run.slot + (t.task.run.budget - ranCycles s t / 1024) % 2 ^ 16 * 2 ^ 16

/-- CAPSk (R32): 8 bytes of the capability list at CAPS0 + 8(k − 1). -/
def capsRead (s : State) (y : Sys) (k : Nat) : Nat :=
  let o := y.caps0.toNat + 8 * (k - 1)
  if o + 8 ≤ 0x10000 then leNat (((capsList s).drop o).take 8) else 0

/-- Whether a system register number is assigned (R28). -/
def sysAssigned (n : Nat) : Bool :=
  decide (n < 0xA) || (decide (0x10 ≤ n) && decide (n < 0x24)) || (decide (0x30 ≤ n) && decide (n < 0x35))
    || (decide (0x40 ≤ n) && decide (n < 0x43)) || (decide (0x50 ≤ n) && decide (n < 0x54))
    || (decide (0x60 ≤ n) && decide (n < 0x68)) || n == 0x70 || n == 0x71 || n == 0x80
    || (decide (0xA0 ≤ n) && decide (n < 0xB0)) || (decide (0x100 ≤ n) && decide (n < 0x200))

/-- The value of a system register (R28) of tile `p`, whose registers are taken from `y`. -/
def sysRead (s : State) (p : Nat) (y : Sys) (n : Nat) : W64 :=
  let t := s.tile p
  let o (v : Nat) : W64 := BitVec.ofNat 64 v
  if n = 0 then o (s.placeOf p)
  else if n = 1 then o (y.cid % 4096 + b2n y.fw * 4096)
  else if n = 2 then y.imgid
  else if n = 3 then o (taskReg s t)
  else if n = 4 then y.actw
  else if n = 5 then o (s.clk - t.cyc0)
  else if n = 6 then o s.gtime
  else if n = 7 then o (y.va + y.aa * 256)
  else if n = 8 then y.frm.setWidth 64
  else if n = 9 then y.vflags.setWidth 64
  else if n < 0x20 then FMap.get 0 y.wd (n - 0x10)
  else if n < 0x24 then FMap.get 0 y.dts (n - 0x20)
  else if n = 0x30 then y.trbase
  else if n = 0x31 then y.trsize
  else if n = 0x32 then y.eagermax
  else if n = 0x33 then y.spbase
  else if n = 0x34 then y.stktop
  else if n = 0x40 then y.lstart
  else if n = 0x41 then y.lend
  else if n = 0x42 then y.lcount
  else if n = 0x50 then y.kdim
  else if n = 0x51 then y.msa
  else if n = 0x52 then y.msb
  else if n = 0x53 then y.msd
  else if n < 0x64 then FMap.get 0 y.wpa (n - 0x60)
  else if n < 0x68 then FMap.get 0 y.wpc (n - 0x64)
  else if n = 0x70 then y.faultc
  else if n = 0x71 then y.faulta
  else if n = 0x80 then o (ystat t)
  else if n = 0xA0 then y.caps0
  else if n < 0xB0 then o (capsRead s y (n - 0xA0))
  else FMap.get 0 y.dacct (n - 0x100)

/-- Registers that only a firmware task may read (R28). -/
def sysReadPriv (n : Nat) : Bool := decide (0x60 ≤ n) && decide (n < 0x68)

/-- Registers that only a firmware task may write (R28): all but FRM, VFLAGS, the windows, the table headers, the loop and
matrix registers and CAPS0. -/
def sysWritePriv (n : Nat) : Bool :=
  !(n == 8 || n == 9 || (decide (0x10 ≤ n) && decide (n < 0x24)) || (decide (0x40 ≤ n) && decide (n < 0x43))
    || (decide (0x50 ≤ n) && decide (n < 0x54)) || n == 0xA0)

/-- The system registers that MFS sees: as before the bundle; in a yoked block FRM and the windows too, which its other syllables read
as at the block's start (R90, R320). -/
def mfsSys (t : Tile) : Sys :=
  if t.bun.blk.isSome then { preSys t with frm := t.sys.frm, wd := t.sys.wd } else preSys t

/-- MFS (R89): the value before the bundle. An unassigned number is an encoding trap, whatever the guard (R28, R44). -/
def execMfs (x : R) (s : State) : Out :=
  .next (
    let k := x.a * 32 + x.b
    checked [(!sysAssigned k, tr cIllegalOp)] (guarded x.g x.n fun s =>
      checked [(sysReadPriv k && !s.t.sys.fw, tr cPriv)]
        (fun s => wg x.d (sysRead s s.cur (mfsSys s.t) k) s) s) s)

/-! ## Writing (R29, R86, R113, R170, R430) -/

/-- Whether a trough cell is occupied (R29). -/
def cellsUsed (t : Tile) : Bool := !t.net.cells.isEmpty

/-- Whether a value is outside the limits of a register (R29, R32, R86, R170, R430). -/
def sysLimit (t : Tile) (n : Nat) (v : W64) : Bool :=
  let x := v.toNat
  let y := t.sys
  if n = 0x30 then x % 256 != 0 || decide (x + y.trsize.toNat > sramTop) || cellsUsed t
  else if n = 0x31 then x % 256 != 0 || decide (x < 1024) || decide (y.trbase.toNat + x > sramTop)
    || decide (y.eagermax.toNat > Nat.min 16384 (x / 4)) || cellsUsed t
  else if n = 0x32 then decide (x > Nat.min 16384 (y.trsize.toNat / 4))
  else if n = 0x33 then x % 64 != 0 || decide (x + 0x4000 > sramTop)
  else if n = 0x34 then x % 16 != 0
  else if n = 0x40 || n = 0x41 then decide (x ≥ 2 ^ 15)
  else if n = 0x50 then decide (x > 4096) || x % 4 != 0
  else if n = 0x51 || n = 0x52 || n = 0x53 then decide (x ≥ 2 ^ 21)
  else if 0x64 ≤ n ∧ n < 0x68 then decide (bits x 12 8 > 21)
  else if n = 0xA0 then x % 8 != 0 || decide (x ≥ 2 ^ 16)
  else false

/-- VFLAGS with the bits of a mask cleared (R4 W1C, R89); flags that the same bundle raised stay (R146). -/
def clearVflags (m : W64) (t : Tile) : Tile :=
  { t with sys := { t.sys with vflags := (t.sys.vflags &&& ~~~ m.setWidth 5) ||| (if t.bun.blk.isSome then 0 else t.bun.raised) } }

/-- CAPS0 set (R32). -/
def setCaps0 (v : W64) (t : Tile) : Tile := { t with sys := { t.sys with caps0 := v } }

/-- WPCk written (R430): HIT is cleared by a 1, the other writable fields take the value. -/
def setWpc (k : Nat) (v : W64) (t : Tile) : Tile :=
  let old := (FMap.get 0 t.sys.wpc k).toNat
  let x := v.toNat
  let w := bits x 4 0 + bits x 12 8 * 2 ^ 8 + bits x 16 16 * 2 ^ 16 + b2n (bit old 17 && !bit x 17) * 2 ^ 17
  { t with sys := { t.sys with wpc := FMap.put t.sys.wpc k (BitVec.ofNat 64 w) } }

/-- A register written by its Access column (R4, R28); writes to RO registers are ignored. -/
def sysWrite (n : Nat) (v : W64) (t : Tile) : Tile :=
  let y := t.sys
  if n = 8 then { t with sys := { y with frm := v.setWidth 2 } }
  else if n = 9 then clearVflags v t
  else if 0x11 ≤ n ∧ n < 0x20 then { t with sys := { y with wd := FMap.put y.wd (n - 0x10) v } }
  else if n = 0x30 then { t with sys := { y with trbase := v } }
  else if n = 0x31 then { t with sys := { y with trsize := v } }
  else if n = 0x32 then { t with sys := { y with eagermax := v } }
  else if n = 0x33 then { t with sys := { y with spbase := v } }
  else if n = 0x34 then { t with sys := { y with stktop := v } }
  else if n = 0x40 then { t with sys := { y with lstart := v } }
  else if n = 0x41 then { t with sys := { y with lend := v } }
  else if n = 0x42 then { t with sys := { y with lcount := v } }
  else if n = 0x50 then { t with sys := { y with kdim := v } }
  else if n = 0x51 then { t with sys := { y with msa := v } }
  else if n = 0x52 then { t with sys := { y with msb := v } }
  else if n = 0x53 then { t with sys := { y with msd := v } }
  else if 0x60 ≤ n ∧ n < 0x64 then
    { t with sys := { y with wpa := FMap.put y.wpa (n - 0x60) (v &&& 0x1FFFFF) } }
  else if 0x64 ≤ n ∧ n < 0x68 then setWpc (n - 0x64) v t
  else if n = 0x70 then { t with sys := { y with faultc := v } }
  else if n = 0x71 then { t with sys := { y with faulta := v &&& 0xFFFFFFFF00007FFF } }
  else if n = 0xA0 then setCaps0 v t
  else t

/-- MTS (R89): privilege, the window rule (R113), the limits (R29), the write. -/
def execMts (x : R) (s : State) : Out :=
  .next (
    let k := x.a * 32 + x.b
    checked [(!sysAssigned k, tr cIllegalOp)] (guarded x.g x.n fun s =>
      let v := rg s x.d
      checked [(sysLimit s.t k v, tr cIllegalOp), (sysWritePriv k && !s.t.sys.fw, tr cPriv),
               (decide (0x11 ≤ k) && decide (k < 0x20) && !wdOk v.toNat, tr cWindow)]
        (fun s => s.onT (sysWrite k v)) s) s)

/-- VFLAGS_CLEAR (R89): the sticky flags that an MTS to VFLAGS names are cleared. -/
def execVflagsClear (mask : Nat) (s : State) : Out := .next (s.onT (clearVflags (BitVec.ofNat 64 mask)))

/-- CAPS0_WRITE (R32): a cursor that is no multiple of 8 or has bits above [15:0] is refused with ILLEGAL_OP. -/
def execCaps0Write (val : Nat) (s : State) : Out :=
  .next (checked [(sysLimit s.t 0xA0 (BitVec.ofNat 64 val), tr cIllegalOp)] (fun s => s.onT (setCaps0 (BitVec.ofNat 64 val))) s)

/-- WPC_HIT_CLEAR (R430): a write of WPCk with bit [17] set clears HIT; `val` is the value written. -/
def execWpcHitClear (n val : Nat) (s : State) : Out :=
  .next (checked [(sysLimit s.t (0x64 + n % 4) (BitVec.ofNat 64 val), tr cIllegalOp)]
    (fun s => s.onT (setWpc (n % 4) (BitVec.ofNat 64 val))) s)

/-! ## TRAP, BKPT, SLEEP -/

/-- TRAP (R91): TRAPI with the code in SUB[25:16]. -/
def execTrap (x : R) (s : State) : Out :=
  .next (guarded x.g x.n (raise { cause := cTrapi, sub := (x.a * 32 + x.b) * 2 ^ 16, daddr := 0 }) s)

/-- BKPT (R92). -/
def execBkpt (x : R) (s : State) : Out := .next (guarded x.g x.n (raise (tr cBkpt)) s)

/-- SLEEP (R93, R94): done where its wait has ended or the deadline has passed, else the bundle stalls. -/
def execSleep (x : R) (s : State) : Out :=
  .next (guarded x.g x.n (fun s =>
    match wokenVal s with
    | some seen => wg x.d (BitVec.ofNat 64 seen) s
    | none =>
      if (rg s x.a).toNat ≤ s.gtime ∧ rg s x.a ≠ BitVec.allOnes 64 then wg x.d 0 s
      else stall (.sleep (rg s x.a).toNat (rg s x.b).toNat 0) s) s)

/-! ## Allotments (R95–R98) -/

/-- Slot `i` moved to its SRAM place where its place lies in storage newly allotted (R97). -/
def moveSlot (lo hi : Nat) (vec : Bool) (t : Tile) (i : Nat) : Tile :=
  let e := FMap.get 0 t.spill i
  let r := if vec then spPiece e % 32 else spAcc e
  if spValid e && spKind e == (if vec then 2 else 1) && decide (lo ≤ r) && decide (r < hi) then
    let d := spRead t i e
    spWrite { t with spill := FMap.set 0 t.spill i spSramEnt } i spSramEnt d
  else t

/-- The contents of registers `lo` to `hi` − 1 gone: they read zero when they are next allotted (R97), and an error in an accumulator's old word
is gone with it (R179). -/
def zeroRange (lo hi : Nat) (vec : Bool) (t : Tile) : Tile :=
  let keep (w : Nat) (m : FMap W32) : FMap W32 := m.filter fun e => !(decide (lo * w ≤ e.1) && decide (e.1 < hi * w))
  if vec then { t with regs := { t.regs with v := keep 16 t.regs.v } }
  else { t with regs := { t.regs with acc := keep 1024 t.regs.acc }
                accBad := t.accBad.filter fun e => !(decide (lo * 1024 ≤ e.1) && decide (e.1 < hi * 1024)) }

/-- An allotment changed (R97): a growth moves the parked slots and zeroes the registers, a shrink discards. The words of a released
accumulator stand until a growth or a slot takes its storage, for the commands that its bundle has queued (R98). -/
def setAllot (vec : Bool) (n : Nat) (t : Tile) : Tile :=
  let old := if vec then t.sys.va else t.sys.aa
  let t' := if old < n then zeroRange old n vec ((List.range 256).foldl (moveSlot old n vec) t) else if vec then zeroRange n old vec t else t
  { t' with sys := if vec then { t'.sys with va := n } else { t'.sys with aa := n } }

/-- Whether a queued command names an accumulator from `lo` to `hi` − 1 (R96). -/
def queueNames (t : Tile) (lo hi : Nat) : Bool :=
  t.mx.queue.any fun m => decide (lo ≤ m.c) && decide (m.c < hi)

/-- An allotment change at once, or at the close of a bundle of several syllables, which run on the old one (R98). -/
def applyAllot (vec : Bool) (n : Nat) (s : State) : State :=
  if s.t.bun.coll then s.onT fun t => { t with bun := { t.bun with allot := some (vec, n) } }
  else s.onT (setAllot vec n)

/-- AALLOT (R95, R96): it waits for the queued commands that name an accumulator released or taken. -/
def execAallot (x : R) (s : State) : Out :=
  .next (guarded x.g x.n (fun s =>
    let n := (rg s x.a).toNat
    let old := s.t.sys.aa
    unlessState s.t.bun.blk.isSome [(decide (n > 16), tr cIllegalOp)] (fun s =>
      let lo := Nat.min n old
      let hi := Nat.max n old
      if queueNames s.t lo hi then stall (.allot lo hi) s
      else
        let s' := wg x.d (BitVec.ofNat 64 old) s
        if n = old then s' else applyAllot false n s') s) s)

/-- VALLOT (R95). -/
def execVallot (x : R) (s : State) : Out :=
  .next (guarded x.g x.n (fun s =>
    let n := (rg s x.a).toNat
    let old := s.t.sys.va
    unlessState s.t.bun.blk.isSome [(!(n == 8 || n == 16 || n == 24 || n == 32), tr cIllegalOp)] (fun s =>
      let s' := wg x.d (BitVec.ofNat 64 old) s
      if n = old then s' else applyAllot true n s') s) s)

/-! ## WDSET and TLOAD -/

/-- WDSET (R117). -/
def execWdset (x : R) (s : State) : Out :=
  .next (guarded x.g x.n (fun s =>
    let n := (rg s x.b).toNat
    let v := rg s x.a
    checked [(decide (n > 15) || n == 0 || !wdOk v.toNat, tr cWindow)] (fun s =>
      wg x.d (FMap.get 0 s.t.sys.wd n) (s.onT fun t => { t with sys := { t.sys with wd := FMap.put t.sys.wd n v } })) s) s)

/-- Whether a captured window decodes or encodes through table n (R118). -/
def winUses (w n : Nat) : Bool := fmtCode (wFmt w) && wTbl w == n

/-- Whether a queued command uses table n: the operands of the MMA family, the destination of MDRN (R118). -/
def queueTable (t : Tile) (n : Nat) : Bool :=
  t.mx.queue.any fun m => ((m.op == 1 || m.op == 2) && (winUses m.wa n || winUses m.wb n)) || (m.op == 6 && winUses m.wa n)

/-- The checks of a bare tile address in window 0 (R118, R232, R283, R286, R334): bits [63:32], the window, the range of `n`
bytes, the alignment, and poison. -/
def win0Checks (s : State) (a : W64) (n al : Nat) (poison : Bool) : List (Bool × TrapInfo) :=
  let x := a.toNat
  let d := x % 2 ^ 32
  [(decide (x ≥ 2 ^ 32) || bits x 23 21 != 0 || decide (bits x 20 0 + n > sramTop), tr cLocalRange d),
   (bits x 31 24 != 0, tr cWindow d), (x % al != 0, tr cAlign d),
   (poison && decide (bits x 20 0 + n ≤ sramTop) && poisonedLoc s s.cur (bits x 20 0) n, tr cPoison d)]

/-- SRAM as it stood before the bundle (R42). -/
def preSram (t : Tile) : Mem := match t.bun.pre with | some x => x.sram | none => t.sram

/-- TLOAD (R118): it waits for the matrix commands that use the table; a table that fails validation is loaded with its
REASON. -/
def execTload (x : R) (s : State) : Out :=
  .next (guarded x.g x.n (fun s =>
    let gb := (rg s x.b).toNat
    let n := if bit gb 2 then 64 else 1024
    let o := bits (rg s x.a).toNat 20 0
    checked ((tloadBad gb, tr cIllegalOp) :: (win0Checks s (rg s x.a) n 4 true)) (fun s =>
      if queueTable s.t (gb % 4) then stall (.tload (gb % 4)) s
      else
        let m := preSram s.t
        let y := loadTable s.t.sys gb fun c => Mem.le m (o + 4 * c) 4
        wg x.d (FMap.get 0 y.dts (gb % 4)) (noteAccess s.cur false false o n (s.onT fun t => { t with sys := { t.sys with tbl := y.tbl, dts := y.dts } }))) s) s)

end Sys2Proof.Machine
end

