-- ==== Sys2Proof/Machine/Task.lean ====
section
/-!
DEFINITION. Sys2Proof/Machine/Task.lean: the N-T task instructions (R231 to R237), the end of an activation (R224, R236) and
its delay account (R436).
-/

namespace Sys2Proof.Machine

/-! ## Delay accounts (R436) -/

/-- The entry of DACCT for a source place (R436). -/
def dacctEntry (p : Nat) : Nat :=
  Nat.xor (bits p 9 4) (Nat.xor (bits p 15 10) (Nat.xor (bits p 21 16) (Nat.xor (bits p 27 22) (bits p 30 28))))

/-- A saturating sum. -/
def satAdd (n a b : Nat) : Nat := Nat.min (a + b) (2 ^ n - 1)

/-- One event added to DACCT (R436): transit and wait in ns, run in cycles. -/
def addDelay (src transit wait run : Nat) (m : FMap W64) : FMap W64 :=
  let e := 4 * dacctEntry src
  let r (k : Nat) : Nat := (FMap.get 0 m (e + k)).toNat
  let key := src / 16 * 16 % 2 ^ 32
  let count := bits (r 0) 63 48
  let k0 := if count = 0 then key else bits (r 0) 31 0
  let mixed := bit (r 0) 32 || (count != 0 && k0 != key)
  let put (m : FMap W64) (k v : Nat) : FMap W64 := FMap.put m (e + k) (BitVec.ofNat 64 v)
  put (put (put (put m 0 (satAdd 16 count 1 * 2 ^ 48 + b2n mixed * 2 ^ 32 + k0)) 1 (satAdd 64 (r 1) transit))
    2 (satAdd 64 (r 2) wait)) 3 (satAdd 64 (r 3) run)

/-- The activation's delay account, where a receive brought its counter to zero (R436). -/
def accountDelay (s : State) (t : Tile) : Tile :=
  let r := FMap.get {} t.task.recs t.task.run.idx
  match if r.acct then r.info else none with
  | some i => { t with sys := { t.sys with dacct := addDelay i.src i.transit (t.task.run.gstart - i.done) (ranCycles s t) t.sys.dacct } }
  | none => t

/-! ## The end of an activation (R224, R236) -/

/-- TEND frees the running record; PENDING slots get theirs (R218, R236). -/
def freeRunning (k : Task) : Task := drainPending { k with recs := FMap.drop k.recs k.run.idx }

/-- TYIELD turns the running record into a queued one (R236); the delay of its message is accounted with this activation (R436). -/
def requeue (entry : Nat) (k : Task) : Task :=
  let r := FMap.get {} k.recs k.run.idx
  { k with recs := FMap.put k.recs k.run.idx { r with run := false, cause := 2, entry := entry, seq := k.seq, acct := false, restarts := 0 },
           seq := k.seq + 1 }

/-- The loop end step (R88): the address after the bundle, and LCOUNT. -/
def loopEnd (b : Bun) (y : Sys) : Nat × Sys :=
  let next := b.next.getD (b.addr + b.len)
  if y.lcount ≠ 0 ∧ b.addr = y.lend.toNat ∧ !b.taken then
    let n := y.lcount - 1
    (if n ≠ 0 then y.lstart.toNat else next, { y with lcount := n })
  else (next, y)

/-- A bundle has completed: it is counted for a watchpoint hit and a stop that wait (R431, R432). -/
def countBundle (t : Tile) : Tile :=
  { t with dbg := { t.dbg with skid := if t.dbg.watch.isSome then t.dbg.skid + 1 else t.dbg.skid,
                               stopSkid := if t.pend.stop then t.dbg.stopSkid + 1 else t.dbg.stopSkid } }

/-- The running task ends (R236): by TEND (`none`), or by TYIELD with its continuation entry. -/
def endTask (f : Option Nat) (s : State) : State :=
  let s := releaseHeld s.cur s
  let s := traceEnd s.cur (match f with | none => 0 | some _ => 1) 0 s
  let s := s.onT (accountDelay s)
  let s := s.onT fun t => { t with task := match f with | none => freeRunning t.task | some e => requeue e t.task }
  boundary s.cur (dissolveYoke false s.cur s)

/-- The bundle of a TEND or TYIELD completes, with its loop end step (R88), and the task ends. -/
def endActivation (f : Option Nat) (s : State) : State :=
  endTask f (s.onT fun t => { countBundle t with sys := (loopEnd t.bun t.sys).2 })

/-- The end of the activation at once, or at the close of a bundle of several syllables or of a yoked block. -/
def endOrDefer (f : Option Nat) (s : State) : State :=
  if s.t.bun.coll || s.t.bun.blk.isSome then s.onT fun t => { t with bun := { t.bun with fin := some f } }
  else endActivation f s

/-- TEND (R236). -/
def execTend (x : R) (s : State) : Out := .next (guarded x.g x.n (endOrDefer none) s)

/-- TCOMMIT (R236). -/
def execTcommit (x : R) (s : State) : Out := .next (guarded x.g x.n (fun s => (releaseHeld s.cur s).onT expose) s)

/-- TYIELD (R236): an entry above 0x7FFF traps LOCAL_RANGE; in a yoke it raises YOKE STATE (R324). -/
def execTyield (x : R) (s : State) : Out :=
  .next (guarded x.g x.n (fun s =>
    let a := (rg s x.a).toNat
    unlessState s.t.bun.blk.isSome [(decide (0x7FFF < a), tr cLocalRange (a % 2 ^ 32))] (endOrDefer (some a)) s) s)

/-! ## Slots and counters -/

/-- A slot or counter operand (R231). -/
def idxBad (a : W64) : Bool := decide (a.toNat ≥ 64)

/-- The task unit of the issuing tile changed. -/
def onTask (f : Task → Task) (s : State) : State := s.onT fun t => { t with task := f t.task }

/-- Whether a descriptor image may be bound (R232): zero fields, and a budget from 1 to MAXBUDGET. -/
def imageOk (k : Task) (w0 w1 : Nat) : Bool :=
  bits w0 62 50 == 0 && bits w0 31 18 == 0 && !bit w0 15 && decide (w1 < 65536)
    && bits w0 47 32 != 0 && decide (bits w0 47 32 ≤ k.maxbudget)

/-- A slot bound to an image (R232); an event that waits gets its record with cause 4. -/
def bindSlot (i w0 w1 w2 : Nat) (k : Task) : Task :=
  let d := slotSet (slotSet (slotSet {} 0 w0) 1 w1) 2 w2
  let k := { k with slots := FMap.put k.slots i { d with bound := true } }
  if (FMap.get ({} : Ctr) k.ctrs i).pending then pushPending i 4 k else k

/-- TBIND (R232). -/
def execTbind (x : R) (s : State) : Out :=
  .next (guarded x.g x.n (fun s =>
    let i := (rg s x.a).toNat
    let o := bits (rg s x.b).toNat 20 0
    checked ((idxBad (rg s x.a), tr cIllegalOp) :: win0Checks s (rg s x.b) 24 8 true) (fun s =>
      let m := preSram s.t
      let w (k : Nat) : Nat := Mem.le m (o + 8 * k) 8
      checked [(!imageOk s.t.task (w 0) (w 1), tr cIllegalOp)] (fun s =>
        let old := slotWord0 (FMap.get {} s.t.task.slots i)
        wg x.d (BitVec.ofNat 64 old) (noteAccess s.cur false false o 24 (onTask (bindSlot i (w 0) (w 1) (w 2)) s))) s) s) s)

/-- TUNBIND (R232): the other fields stay. -/
def execTunbind (x : R) (s : State) : Out :=
  .next (guarded x.g x.n (fun s =>
    let i := (rg s x.a).toNat
    checked [(idxBad (rg s x.a), tr cIllegalOp)] (fun s =>
      let d := FMap.get {} s.t.task.slots i
      wg x.d (BitVec.ofNat 64 (slotWord0 d))
        (onTask (fun k => { k with slots := FMap.put k.slots i { d with bound := false } }) s)) s) s)

/-- A counter armed (R233): CLRO is bit 8, CLRP bit 9 of G[A]. -/
def armed (c : Ctr) (a n : Nat) : Ctr := { c with count := n, overrun := c.overrun && !bit a 8, pending := c.pending && !bit a 9 }

/-- TARM (R233); an illegal index traps only under a true guard (log 97). -/
def execTarm (x : R) (s : State) : Out :=
  .next (guarded x.g x.n (fun s =>
    let a := (rg s x.a).toNat
    let n := (rg s x.b).toNat
    let i := a % 64
    checked [(decide (a ≥ 1024) || bits a 7 6 != 0 || decide (n ≥ 65536), tr cIllegalOp)] (fun s =>
      let c := FMap.get {} s.t.task.ctrs i
      wg x.d (BitVec.ofNat 64 (ctrWord c))
        (onTask (fun k => { k with ctrs := FMap.put k.ctrs i (armed c a n) }) s)) s) s)

/-- TKICK (R234). -/
def execTkick (x : R) (s : State) : Out :=
  .next (guarded x.g x.n (fun s =>
    checked [(idxBad (rg s x.a), tr cIllegalOp)] (fun s => decCounter s.cur (rg s x.a).toNat s) s) s)

/-- TSPAWN (R235); TAG and GROUP are those of the counter's last decrement (R435). -/
def execTspawn (x : R) (s : State) : Out :=
  .next (guarded x.g x.n (fun s =>
    let i := (rg s x.a).toNat
    checked [(idxBad (rg s x.a), tr cIllegalOp)] (fun s =>
      if !(FMap.get {} s.t.task.slots i).bound then wg x.d 2 s
      else match pushSlot i 1 (FMap.get {} s.t.task.ctrs i).info false s.t.task with
        | some k => wg x.d 0 (onTask (fun _ => k) s)
        | none => wg x.d 1 s) s) s)

/-- The snapshot of TSTAT (R237). -/
def tstatWord (t : Tile) (n a : Nat) : Nat :=
  let k := t.task
  if n = 0 then ctrWord (FMap.get {} k.ctrs a)
  else if n = 1 then slotWord0 (FMap.get {} k.slots a)
  else if n = 2 then k.recs.length + (k.recs.filter fun e => e.2.hold).length * 2 ^ 8 + k.dc % 8 * 2 ^ 16 + k.asn % 2 ^ 32 * 2 ^ 32
  else k.maxbudget % 65536 + b2n k.run.exposed * 2 ^ 16 + k.restartmax % 256 * 2 ^ 17

/-- TSTAT (R237). -/
def execTstat (x : R) (s : State) : Out :=
  .next (guarded x.g x.n (fun s =>
    let a := (rg s x.a).toNat
    checked [(if x.b < 2 then idxBad (rg s x.a) else a != 0, tr cIllegalOp)]
      (fun s => wg x.d (BitVec.ofNat 64 (tstatWord s.t x.b a)) s) s) s)

end Sys2Proof.Machine
end

