-- ==== Sys2Proof/WellFormed.lean ====
section
/-!
DEFINITION. Sys2Proof/WellFormed.lean: the ranges of an instruction's fields, format by format (R45, R46). What a row
further asks of its fields (zero fields, type lists, immediate limits) is Instr.legal in Sys2Proof/Decode.lean. A step of
an engine has no encoding and nothing to check.
-/

namespace Sys2Proof

/-- Format R (R45); `m` holds at most three modifier bits of FN. -/
def R.ok (x : R) : Bool :=
  decide (x.g < 8) && decide (x.m < 8) && decide (x.d < 32) && decide (x.a < 32) && decide (x.b < 32)

/-- Format I (R45): a 9-bit two's complement immediate. -/
def I.ok (x : I) : Bool :=
  decide (x.g < 8) && decide (x.d < 32) && decide (x.a < 32) && decide (-256 ≤ x.imm) && decide (x.imm < 256)

/-- MOVI (R46): a 14-bit immediate. -/
def M.ok (x : M) : Bool :=
  decide (x.g < 8) && decide (x.d < 32) && decide (-8192 ≤ x.imm) && decide (x.imm < 8192)

/-- Format BR (R45): a 19-bit offset. -/
def Br.ok (x : Br) : Bool :=
  decide (x.g < 8) && decide (-262144 ≤ x.off) && decide (x.off < 262144)

/-- Format BRG (R45): a 14-bit offset. -/
def Bg.ok (x : Bg) : Bool :=
  decide (x.g < 8) && decide (x.a < 32) && decide (-8192 ≤ x.off) && decide (x.off < 8192)

/-- Format V (R45). -/
def V.ok (x : V) : Bool :=
  decide (x.q < 8) && decide (x.t < 8) && decide (x.d < 32) && decide (x.a < 32) && decide (x.b < 32)

/-- Format X (R45). -/
def X.ok (x : X) : Bool :=
  decide (x.g < 8) && decide (x.c < 16) && decide (x.a < 32) && decide (x.b < 32)

/-- Format L (R45): IMM32 as the unsigned word. -/
def L.ok (x : L) : Bool :=
  decide (x.g < 8) && decide (x.d < 32) && decide (x.a < 32) && decide (x.b < 32) && decide (x.imm < 4294967296)

/-- An instruction whose fields lie in the ranges of its format. -/
def Instr.wf : Instr → Bool
  | .add x => x.ok
  | .sub x => x.ok
  | .and x => x.ok
  | .or x => x.ok
  | .xor x => x.ok
  | .andn x => x.ok
  | .orn x => x.ok
  | .sll x => x.ok
  | .srl x => x.ok
  | .sra x => x.ok
  | .ror x => x.ok
  | .min x => x.ok
  | .max x => x.ok
  | .minn x => x.ok
  | .maxn x => x.ok
  | .ceq x => x.ok
  | .cne x => x.ok
  | .clt x => x.ok
  | .cle x => x.ok
  | .cltn x => x.ok
  | .clen x => x.ok
  | .pand x => x.ok
  | .por x => x.ok
  | .pxor x => x.ok
  | .pandn x => x.ok
  | .movp x => x.ok
  | .pmovg x => x.ok
  | .ext x => x.ok
  | .exts x => x.ok
  | .ins x => x.ok
  | .addi x => x.ok
  | .andi x => x.ok
  | .ori x => x.ok
  | .xori x => x.ok
  | .slli x => x.ok
  | .srli x => x.ok
  | .srai x => x.ok
  | .ceqi x => x.ok
  | .cnei x => x.ok
  | .clti x => x.ok
  | .clei x => x.ok
  | .cltni x => x.ok
  | .cleni x => x.ok
  | .addwi x => x.ok
  | .movi x => x.ok
  | .addiL x => x.ok
  | .andiL x => x.ok
  | .oriL x => x.ok
  | .xoriL x => x.ok
  | .slliL x => x.ok
  | .srliL x => x.ok
  | .sraiL x => x.ok
  | .ceqiL x => x.ok
  | .cneiL x => x.ok
  | .cltiL x => x.ok
  | .cleiL x => x.ok
  | .cltniL x => x.ok
  | .cleniL x => x.ok
  | .addwiL x => x.ok
  | .moviL x => x.ok
  | .movhiL x => x.ok
  | .mul x => x.ok
  | .mulh x => x.ok
  | .mulhn x => x.ok
  | .div x => x.ok
  | .divn x => x.ok
  | .rem x => x.ok
  | .remn x => x.ok
  | .madd x => x.ok
  | .msub x => x.ok
  | .clz x => x.ok
  | .ctz x => x.ok
  | .popc x => x.ok
  | .brev x => x.ok
  | .bswap x => x.ok
  | .br x => x.ok
  | .call x => x.ok
  | .bz x => x.ok
  | .bnz x => x.ok
  | .loop x => x.ok
  | .brr x => x.ok
  | .callr x => x.ok
  | .ret x => x.ok
  | .ldb x => x.ok
  | .ldbn x => x.ok
  | .ldh x => x.ok
  | .ldhn x => x.ok
  | .ldw x => x.ok
  | .ldwn x => x.ok
  | .ldd x => x.ok
  | .stb x => x.ok
  | .sth x => x.ok
  | .stw x => x.ok
  | .std x => x.ok
  | .ldf x => x.ok
  | .ldfc x => x.ok
  | .stf x => x.ok
  | .fclr x => x.ok
  | .fset x => x.ok
  | .ldbL x => x.ok
  | .ldbnL x => x.ok
  | .ldhL x => x.ok
  | .ldhnL x => x.ok
  | .ldwL x => x.ok
  | .ldwnL x => x.ok
  | .lddL x => x.ok
  | .stbL x => x.ok
  | .sthL x => x.ok
  | .stwL x => x.ok
  | .stdL x => x.ok
  | .ldfL x => x.ok
  | .ldfcL x => x.ok
  | .stfL x => x.ok
  | .fclrL x => x.ok
  | .fsetL x => x.ok
  | .fullWaitWake _ => true
  | .vld x => x.ok
  | .vst x => x.ok
  | .vldb x => x.ok
  | .vlds x => x.ok
  | .vsts x => x.ok
  | .vldx x => x.ok
  | .vstx x => x.ok
  | .vldt x => x.ok
  | .vstt x => x.ok
  | .vldf x => x.ok
  | .vspl x => x.ok
  | .vfil x => x.ok
  | .vadd x => x.ok
  | .vsub x => x.ok
  | .vmul x => x.ok
  | .vfma x => x.ok
  | .vfms x => x.ok
  | .vmin x => x.ok
  | .vmax x => x.ok
  | .vabs x => x.ok
  | .vneg x => x.ok
  | .vand x => x.ok
  | .vor x => x.ok
  | .vxor x => x.ok
  | .vandn x => x.ok
  | .vsll x => x.ok
  | .vsrl x => x.ok
  | .vsra x => x.ok
  | .vadds x => x.ok
  | .vsubs x => x.ok
  | .vmulh x => x.ok
  | .vdot4 x => x.ok
  | .vdot2 x => x.ok
  | .vmulw x => x.ok
  | .vcopy x => x.ok
  | .vcvt x => x.ok
  | .vdiv x => x.ok
  | .vsqrt x => x.ok
  | .vrcp x => x.ok
  | .vrsq x => x.ok
  | .vexp2 x => x.ok
  | .vlog2 x => x.ok
  | .vround x => x.ok
  | .vrsum x => x.ok
  | .vrmax x => x.ok
  | .vrmin x => x.ok
  | .vscale x => x.ok
  | .vclass x => x.ok
  | .venc8 x => x.ok
  | .vdec8 x => x.ok
  | .venc4 x => x.ok
  | .vdec4 x => x.ok
  | .vbscl x => x.ok
  | .vceq x => x.ok
  | .vcne x => x.ok
  | .vclt x => x.ok
  | .vcle x => x.ok
  | .vcltn x => x.ok
  | .vclen x => x.ok
  | .qand x => x.ok
  | .qor x => x.ok
  | .qxor x => x.ok
  | .qandn x => x.ok
  | .qmovg x => x.ok
  | .gmovq x => x.ok
  | .vsplat x => x.ok
  | .vins x => x.ok
  | .vext x => x.ok
  | .vperm x => x.ok
  | .vcompr x => x.ok
  | .vsel x => x.ok
  | .viota x => x.ok
  | .qpopc x => x.ok
  | .mcfg x => x.ok
  | .mcfgL x => x.ok
  | .mma x => x.ok
  | .mmat x => x.ok
  | .mms x => x.ok
  | .mmst x => x.ok
  | .mmaz x => x.ok
  | .mmazt x => x.ok
  | .mmsz x => x.ok
  | .mmszt x => x.ok
  | .mzero x => x.ok
  | .mldac x => x.ok
  | .mldacf x => x.ok
  | .mstac x => x.ok
  | .mstacf x => x.ok
  | .mdrn x => x.ok
  | .mhad x => x.ok
  | .msclc x => x.ok
  | .maddr x => x.ok
  | .mrdf x => x.ok
  | .mclrf x => x.ok
  | .mwait x => x.ok
  | .mwaitAc x => x.ok
  | .mjob x => x.ok
  | .mtstj x => x.ok
  | .send x => x.ok
  | .sende x => x.ok
  | .recv x => x.ok
  | .probe x => x.ok
  | .rcancel x => x.ok
  | .rtest x => x.ok
  | .rwait x => x.ok
  | .xchg x => x.ok
  | .squery x => x.ok
  | .sendv x => x.ok
  | .csend x => x.ok
  | .recvm x => x.ok
  | .probem x => x.ok
  | .recvmFe x => x.ok
  | .tbind x => x.ok
  | .tarm x => x.ok
  | .tkick x => x.ok
  | .tspawn x => x.ok
  | .tend x => x.ok
  | .tcommit x => x.ok
  | .tyield x => x.ok
  | .tunbind x => x.ok
  | .tstat x => x.ok
  | .grank x => x.ok
  | .gsize x => x.ok
  | .gplace x => x.ok
  | .barr x => x.ok
  | .bbind x => x.ok
  | .bwait x => x.ok
  | .bcancel x => x.ok
  | .cred x => x.ok
  | .cared x => x.ok
  | .cbcast x => x.ok
  | .cstart x => x.ok
  | .cabort x => x.ok
  | .ktrig x => x.ok
  | .kdone x => x.ok
  | .get x => x.ok
  | .put x => x.ok
  | .getd x => x.ok
  | .putd x => x.ok
  | .bmv x => x.ok
  | .bmvt x => x.ok
  | .bfence x => x.ok
  | .fence x => x.ok
  | .pqry x => x.ok
  | .geti x => x.ok
  | .maadd x => x.ok
  | .maand x => x.ok
  | .maor x => x.ok
  | .maxor x => x.ok
  | .mamin x => x.ok
  | .mamax x => x.ok
  | .maswap x => x.ok
  | .macas x => x.ok
  | .mafadd x => x.ok
  | .msadd x => x.ok
  | .msmax x => x.ok
  | .mfs x => x.ok
  | .mts x => x.ok
  | .trap x => x.ok
  | .wdset x => x.ok
  | .tload x => x.ok
  | .sleep x => x.ok
  | .bkpt x => x.ok
  | .yoke x => x.ok
  | .unyoke x => x.ok
  | .aallot x => x.ok
  | .vallot x => x.ok
  | .blkh x => x.ok
  | .blkv x => x.ok
  | .laadd x => x.ok
  | .laand x => x.ok
  | .laor x => x.ok
  | .laxor x => x.ok
  | .lamin x => x.ok
  | .lamax x => x.ok
  | .laminn x => x.ok
  | .lamaxn x => x.ok
  | .laswap x => x.ok
  | .lacas x => x.ok
  | .vflagsClear _ => true
  | .caps0Write _ => true
  | .wpcHitClear _ _ => true
  | .tileUngate _ => true
  | .tileResetComplete _ => true
  | .taskDispatch _ => true
  | .budgetExpiry _ => true
  | .pagerRestart _ _ _ => true
  | .pagerKill _ _ _ => true
  | .imemEccError _ => true
  | .imemRepair _ => true
  | .eccLocal _ => true
  | .tileUnrecoverableFault _ => true
  | .gateRequest _ => true
  | .forcedGate _ => true
  | .sleepWake _ => true
  | .allotStallEnd _ => true
  | .tloadWaitEnd _ => true
  | .matrixQueueStallEnd _ => true
  | .mmaComplete _ => true
  | .mzeroComplete _ => true
  | .mldacComplete _ => true
  | .mstacComplete _ => true
  | .mdrnComplete _ => true
  | .mhadComplete _ => true
  | .msclcComplete _ => true
  | .maddrComplete _ => true
  | .mclrfComplete _ => true
  | .jobComplete _ => true
  | .mwaitRelease _ => true
  | .mrdfRelease _ => true
  | .eagerArrival _ => true
  | .rtsArrival _ => true
  | .troughCopyDone _ _ => true
  | .ctsArrival _ => true
  | .dataArrival _ => true
  | .eackArrival _ => true
  | .rackArrival _ => true
  | .dackArrival _ => true
  | .poolFullArrival _ => true
  | .resumeRetry _ _ => true
  | .sendEmit _ _ => true
  | .rankCacheFill _ _ _ => true
  | .rwaitWake _ => true
  | .packetPark _ => true
  | .overflowStoreGrow _ => true
  | .switchPortPass _ => true
  | .groupEntryDrained _ _ => true
  | .gplaceResolved _ => true
  | .barrierArriveAtSwitch _ => true
  | .barrierReleaseDelivery _ => true
  | .barrierCancelAtLca _ => true
  | .bwaitRelease _ => true
  | .stationRequest _ => true
  | .translationWalkDone _ => true
  | .pagerFaultResolution _ _ => true
  | .packetPerform _ => true
  | .memoryReply _ => true
  | .memFaultTrap _ => true
  | .atomicReply _ => true
  | .fenceComplete _ => true
  | .pqryReply _ => true
  | .getiWordWrite _ => true
  | .hbmUncorrectable _ => true
  | .poisonClear _ _ => true
  | .mappingInvalidate _ _ => true
  | .mappingChangeComplete _ _ => true
  | .migrateFreezeDone _ _ => true
  | .migrateDrainDone _ _ => true
  | .migrateCopyDone _ _ => true
  | .migrateSwitchDone _ _ => true
  | .bfencePacket _ => true
  | .bfenceAnswer _ => true
  | .bmvPartial _ => true
  | .bmvCombine _ _ => true
  | .cdtCacheFill _ _ _ => true
  | .memberJoin _ => true
  | .yokeFormationEnd _ => true
  | .yokeJoinTimeout _ => true
  | .blockStart _ => true
  | .operandArrival _ _ _ => true
  | .blockResolve _ _ => true
  | .blockCommit _ => true
  | .yokeMemberFault _ _ => true
  | .yokeDrain _ => true
  | .combineUpChunk _ => true
  | .combineDownChunk _ => true
  | .collectiveAbortAtLca _ => true
  | .collectiveAbortArrival _ => true
  | .collectedAtLca _ => true
  | .collectiveIdRelease _ => true
  | .scheduleEntryStart _ => true
  | .scheduleChunkArrival _ => true
  | .scheduleEntryComplete _ _ => true
  | .launchPacket _ => true
  | .kernelTileLoad _ _ => true
  | .kernelTileKick _ _ => true
  | .kernelTriggerArrival _ _ => true
  | .kdoneAckArrival _ _ => true
  | .tailWrite _ _ _ => true
  | .queueNotice _ => true
  | .packetAdmit _ _ => true
  | .packetRun _ => true
  | .nopPacket _ => true
  | .copyPacket _ => true
  | .fillPacket _ => true
  | .signalSet _ => true
  | .signalAdd _ => true
  | .signalSub _ => true
  | .signalArm _ => true
  | .waitPacket _ => true
  | .waitRetest _ => true
  | .waitTimeout _ => true
  | .measurePacket _ => true
  | .receiptPacket _ => true
  | .mapPacket _ => true
  | .unmapPacket _ => true
  | .migratePacket _ => true
  | .checkpointPacket _ => true
  | .checkpointStreamDone _ => true
  | .cdtloadPacket _ => true
  | .packetComplete _ => true
  | .pumpHouseTileFailure _ _ _ _ => true
  | .contextFault _ => true
  | .functionLevelReset _ => true
  | .partitionGrant _ _ => true
  | .timeSliceExpiry _ => true
  | .saveTaskBoundary _ => true
  | .saveChannelDrained _ => true
  | .tileCaptureDone _ => true
  | .tileEviction _ => true
  | .restoreComplete _ => true
  | .cidDropComplete _ => true
  | .leafHashDone _ _ => true
  | .measurementAppend _ => true
  | .welimDataReceive _ _ => true
  | .welimAckReceive _ _ => true
  | .welimNakReceive _ _ => true
  | .welimReplayTimeout _ => true
  | .welimAckTimer _ => true
  | .laneSample _ _ => true
  | .swapRepeat _ => true
  | .swapackReceive _ _ => true
  | .swapCutover _ => true
  | .swapTimeout _ => true
  | .laneLoss _ _ => true
  | .retrainTimeout _ => true
  | .trainTimeout _ => true
  | .trainingSetReceive _ _ => true
  | .syncReceive _ _ => true
  | .syncLoss => true
  | .uePacketReceive _ => true
  | .ueDeferral _ _ => true
  | .bar2Access _ => true
  | .apertureMapWrite _ _ _ _ => true
  | .bootReset _ => true
  | .mailboxDoneAck _ => true
  | .version _ => true
  | .ctxCreate _ => true
  | .ctxGrant _ => true
  | .ctxDestroy _ => true
  | .ctxSave _ => true
  | .ctxRestore _ => true
  | .ctxSlice _ => true
  | .qCreate _ => true
  | .qReset _ => true
  | .qDestroy _ => true
  | .powerLimit _ => true
  | .portCtlDown _ => true
  | .portCtlEnable _ => true
  | .laneLog _ => true
  | .flashWrite _ => true
  | .attach _ => true
  | .detach _ => true
  | .stop _ => true
  | .resume _ => true
  | .step _ => true
  | .read _ => true
  | .write _ => true
  | .trace _ => true
  | .clearacct _ => true
  | .powerWindowControl _ => true
  | .thermalThrottle _ _ => true
  | .thermalShutdown _ _ => true
  | .clusterGate _ _ => true
  | .watchpointHit _ _ _ _ => true
  | .watchTrap _ => true
  | .stopTheClusterArrival _ => true
  | .traceDrain _ => true
  | .schedulerTrap _ => true
  | .cmdNotOffered _ => true
  | .ideKmRequest _ => true

end Sys2Proof
end

