-- ==== Sys2Proof/Decode.lean ====
section
/-!
DEFINITION. Sys2Proof/Decode.lean: the words of an instruction (R45 to R64). `decode` reads a syllable and refuses by name:
no row, a word without its second word, or a row whose fields break its rules (`Instr.legal`). `encode` writes the words.
Code that makes an instruction is noncomputable because the type has more constructors than Lean compiles; its kernel
evaluates it all the same.
-/

namespace Sys2Proof

/-- Why a syllable is no instruction. -/
inductive Reject
  /-- No row has this MAJ, FN, FN6, V3 or XOP (R48). -/
  | unassigned
  /-- A row's zero field, type list, modifier list, ordering or immediate limit is broken (R47 to R64). -/
  | illegal
  /-- The bytes end before the syllable does. -/
  | short
deriving DecidableEq, Repr

/-! ## Fields -/

/-- Bits [hi:lo] of a word. -/
def fld (w hi lo : Nat) : Nat := w / 2 ^ lo % 2 ^ (hi + 1 - lo)

/-- A field of n bits as two's complement. -/
def sgn (n x : Nat) : Int := if x < 2 ^ (n - 1) then (x : Int) else (x : Int) - (2 : Int) ^ n

/-- An integer as n bits. -/
def uns (n : Nat) (x : Int) : Nat := (x % (2 : Int) ^ n).toNat

/-- The fields of each format (R45). -/
def rOf (w : Nat) : R :=
  { e := fld w 31 31 == 1, g := fld w 26 24, n := fld w 23 23 == 1, m := 0, d := fld w 14 10, a := fld w 9 5, b := fld w 4 0 }
def iOf (w : Nat) : I :=
  { e := fld w 31 31 == 1, g := fld w 26 24, n := fld w 23 23 == 1, d := fld w 18 14, a := fld w 13 9, imm := sgn 9 (fld w 8 0) }
def mOf (w : Nat) : M :=
  { e := fld w 31 31 == 1, g := fld w 26 24, n := fld w 23 23 == 1, d := fld w 18 14, imm := sgn 14 (fld w 13 0) }
def brOf (w : Nat) : Br :=
  { e := fld w 31 31 == 1, g := fld w 26 24, n := fld w 23 23 == 1, off := sgn 19 (fld w 18 0) }
def bgOf (w : Nat) : Bg :=
  { e := fld w 31 31 == 1, g := fld w 26 24, n := fld w 23 23 == 1, a := fld w 18 14, off := sgn 14 (fld w 13 0) }
def vOf (w : Nat) : V :=
  { e := fld w 31 31 == 1, q := fld w 26 24, t := fld w 23 21, d := fld w 14 10, a := fld w 9 5, b := fld w 4 0 }
def xOf (w : Nat) : X :=
  { e := fld w 31 31 == 1, g := fld w 26 24, n := fld w 23 23 == 1, c := fld w 16 13, a := fld w 9 5, b := fld w 4 0 }
def lOf (w w2 : Nat) : L :=
  { e := fld w 31 31 == 1, g := fld w 26 24, n := fld w 23 23 == 1, d := fld w 14 10, a := fld w 9 5, b := fld w 4 0, imm := w2 }

/-! ## Rows -/

/-- A-R (R49): FN[6:0]. -/
noncomputable def rowAR (op : Nat) (x : R) : Option Instr :=
  match op with
  | 0 => some (.add x)
  | 1 => some (.sub x)
  | 2 => some (.and x)
  | 3 => some (.or x)
  | 4 => some (.xor x)
  | 5 => some (.andn x)
  | 6 => some (.orn x)
  | 7 => some (.sll x)
  | 8 => some (.srl x)
  | 9 => some (.sra x)
  | 10 => some (.ror x)
  | 11 => some (.min x)
  | 12 => some (.max x)
  | 13 => some (.minn x)
  | 14 => some (.maxn x)
  | 15 => some (.ceq x)
  | 16 => some (.cne x)
  | 17 => some (.clt x)
  | 18 => some (.cle x)
  | 19 => some (.cltn x)
  | 20 => some (.clen x)
  | 21 => some (.pand x)
  | 22 => some (.por x)
  | 23 => some (.pxor x)
  | 24 => some (.pandn x)
  | 25 => some (.movp x)
  | 26 => some (.pmovg x)
  | 27 => some (.ext x)
  | 28 => some (.exts x)
  | 29 => some (.ins x)
  | _ => none

/-- A-I (R50) but for MOVI. -/
noncomputable def rowAI (op : Nat) (x : I) : Option Instr :=
  match op with
  | 0 => some (.addi x)
  | 1 => some (.andi x)
  | 2 => some (.ori x)
  | 3 => some (.xori x)
  | 4 => some (.slli x)
  | 5 => some (.srli x)
  | 6 => some (.srai x)
  | 7 => some (.ceqi x)
  | 8 => some (.cnei x)
  | 9 => some (.clti x)
  | 10 => some (.clei x)
  | 11 => some (.cltni x)
  | 12 => some (.cleni x)
  | 13 => some (.addwi x)
  | _ => none

/-- A-M (R51): FN[6:0]. -/
noncomputable def rowAM (op : Nat) (x : R) : Option Instr :=
  match op with
  | 0 => some (.mul x)
  | 1 => some (.mulh x)
  | 2 => some (.mulhn x)
  | 3 => some (.div x)
  | 4 => some (.divn x)
  | 5 => some (.rem x)
  | 6 => some (.remn x)
  | 7 => some (.madd x)
  | 8 => some (.msub x)
  | 9 => some (.clz x)
  | 10 => some (.ctz x)
  | 11 => some (.popc x)
  | 12 => some (.brev x)
  | 13 => some (.bswap x)
  | _ => none

/-- B in format BR (R52). -/
noncomputable def rowBr (op : Nat) (x : Br) : Option Instr :=
  match op with
  | 0 => some (.br x)
  | 1 => some (.call x)
  | _ => none

/-- B in format BRG (R52). -/
noncomputable def rowBg (op : Nat) (x : Bg) : Option Instr :=
  match op with
  | 2 => some (.bz x)
  | 3 => some (.bnz x)
  | 4 => some (.loop x)
  | 5 => some (.brr x)
  | 6 => some (.callr x)
  | 7 => some (.ret x)
  | _ => none

/-- L-S (R53). -/
noncomputable def rowLS (op : Nat) (x : I) : Option Instr :=
  match op with
  | 0 => some (.ldb x)
  | 1 => some (.ldbn x)
  | 2 => some (.ldh x)
  | 3 => some (.ldhn x)
  | 4 => some (.ldw x)
  | 5 => some (.ldwn x)
  | 6 => some (.ldd x)
  | 7 => some (.stb x)
  | 8 => some (.sth x)
  | 9 => some (.stw x)
  | 10 => some (.std x)
  | 11 => some (.ldf x)
  | 12 => some (.ldfc x)
  | 13 => some (.stf x)
  | 14 => some (.fclr x)
  | 15 => some (.fset x)
  | _ => none

/-- L-V (R54): FN6. -/
noncomputable def rowLV (op : Nat) (x : V) : Option Instr :=
  match op with
  | 0 => some (.vld x)
  | 1 => some (.vst x)
  | 2 => some (.vldb x)
  | 3 => some (.vlds x)
  | 4 => some (.vsts x)
  | 5 => some (.vldx x)
  | 6 => some (.vstx x)
  | 7 => some (.vldt x)
  | 8 => some (.vstt x)
  | 9 => some (.vldf x)
  | 10 => some (.vspl x)
  | 11 => some (.vfil x)
  | _ => none

/-- V-R (R55): FN6. -/
noncomputable def rowVR (op : Nat) (x : V) : Option Instr :=
  match op with
  | 0 => some (.vadd x)
  | 1 => some (.vsub x)
  | 2 => some (.vmul x)
  | 3 => some (.vfma x)
  | 4 => some (.vfms x)
  | 5 => some (.vmin x)
  | 6 => some (.vmax x)
  | 7 => some (.vabs x)
  | 8 => some (.vneg x)
  | 9 => some (.vand x)
  | 10 => some (.vor x)
  | 11 => some (.vxor x)
  | 12 => some (.vandn x)
  | 13 => some (.vsll x)
  | 14 => some (.vsrl x)
  | 15 => some (.vsra x)
  | 16 => some (.vadds x)
  | 17 => some (.vsubs x)
  | 18 => some (.vmulh x)
  | 19 => some (.vdot4 x)
  | 20 => some (.vdot2 x)
  | 21 => some (.vmulw x)
  | 22 => some (.vcopy x)
  | _ => none

/-- V-F (R56): FN6. -/
noncomputable def rowVF (op : Nat) (x : V) : Option Instr :=
  match op with
  | 0 => some (.vcvt x)
  | 1 => some (.vdiv x)
  | 2 => some (.vsqrt x)
  | 3 => some (.vrcp x)
  | 4 => some (.vrsq x)
  | 5 => some (.vexp2 x)
  | 6 => some (.vlog2 x)
  | 7 => some (.vround x)
  | 8 => some (.vrsum x)
  | 9 => some (.vrmax x)
  | 10 => some (.vrmin x)
  | 11 => some (.vscale x)
  | 12 => some (.vclass x)
  | 13 => some (.venc8 x)
  | 14 => some (.vdec8 x)
  | 15 => some (.venc4 x)
  | 16 => some (.vdec4 x)
  | 17 => some (.vbscl x)
  | _ => none

/-- V-P (R57): FN6. -/
noncomputable def rowVP (op : Nat) (x : V) : Option Instr :=
  match op with
  | 0 => some (.vceq x)
  | 1 => some (.vcne x)
  | 2 => some (.vclt x)
  | 3 => some (.vcle x)
  | 4 => some (.vcltn x)
  | 5 => some (.vclen x)
  | 6 => some (.qand x)
  | 7 => some (.qor x)
  | 8 => some (.qxor x)
  | 9 => some (.qandn x)
  | 10 => some (.qmovg x)
  | 11 => some (.gmovq x)
  | 12 => some (.vsplat x)
  | 13 => some (.vins x)
  | 14 => some (.vext x)
  | 15 => some (.vperm x)
  | 16 => some (.vcompr x)
  | 17 => some (.vsel x)
  | 18 => some (.viota x)
  | 19 => some (.qpopc x)
  | _ => none

/-- X (R58): FN6 and V3. -/
noncomputable def rowX (op v3 : Nat) (x : X) : Option Instr :=
  match op, v3 with
  | 0, 0 => some (.mcfg x)
  | 1, 0 => some (.mma x)
  | 1, 1 => some (.mmat x)
  | 1, 2 => some (.mms x)
  | 1, 3 => some (.mmst x)
  | 2, 0 => some (.mmaz x)
  | 2, 1 => some (.mmazt x)
  | 2, 2 => some (.mmsz x)
  | 2, 3 => some (.mmszt x)
  | 3, 0 => some (.mzero x)
  | 4, 0 => some (.mldac x)
  | 4, 1 => some (.mldacf x)
  | 5, 0 => some (.mstac x)
  | 5, 1 => some (.mstacf x)
  | 6, 0 => some (.mdrn x)
  | 7, 0 => some (.mhad x)
  | 8, 0 => some (.msclc x)
  | 9, 0 => some (.maddr x)
  | 10, 0 => some (.mrdf x)
  | 11, 0 => some (.mclrf x)
  | 12, 0 => some (.mwait x)
  | 12, 1 => some (.mwaitAc x)
  | 13, 0 => some (.mjob x)
  | 14, 0 => some (.mtstj x)
  | _, _ => none

/-- N-M (R59): FN[7:4], with the modifiers FN[3:0]; SEND.e is SENDE. -/
noncomputable def rowNM (fn : Nat) (x : R) : Option Instr :=
  match fn / 16 with
  | 0 => if fn % 2 = 0 then some (.send { x with m := fn % 16 / 2 }) else some (.sende { x with m := fn % 16 / 2 })
  | 1 => some (.recv { x with m := fn % 16 })
  | 2 => some (.probe { x with m := fn % 16 })
  | 3 => some (.rcancel { x with m := fn % 16 })
  | 4 => some (.rtest { x with m := fn % 16 })
  | 5 => some (.rwait { x with m := fn % 16 })
  | 6 => some (.xchg { x with m := fn % 16 })
  | 7 => some (.squery { x with m := fn % 16 })
  | 8 => some (.sendv { x with m := fn % 16 })
  | 9 => some (.csend { x with m := fn % 16 })
  | _ => none

/-- N-T (R60): FN. -/
noncomputable def rowNT (fn : Nat) (x : R) : Option Instr :=
  match fn with
  | 0 => some (.tbind x)
  | 1 => some (.tarm x)
  | 2 => some (.tkick x)
  | 3 => some (.tspawn x)
  | 4 => some (.tend x)
  | 5 => some (.tcommit x)
  | 6 => some (.tyield x)
  | 7 => some (.tunbind x)
  | 8 => some (.tstat x)
  | 16 => some (.grank x)
  | 17 => some (.gsize x)
  | 18 => some (.gplace x)
  | 32 => some (.barr x)
  | 33 => some (.bbind x)
  | 34 => some (.bwait x)
  | 35 => some (.bcancel x)
  | 48 => some (.cred x)
  | 49 => some (.cared x)
  | 50 => some (.cbcast x)
  | 51 => some (.cstart x)
  | 52 => some (.cabort x)
  | 64 => some (.ktrig x)
  | 65 => some (.kdone x)
  | _ => none

/-- N-P (R61): FN[4:0]. -/
noncomputable def rowNP (op : Nat) (x : R) : Option Instr :=
  match op with
  | 0 => some (.get x)
  | 1 => some (.put x)
  | 2 => some (.getd x)
  | 3 => some (.putd x)
  | 4 => some (.bmv x)
  | 5 => some (.bmvt x)
  | 6 => some (.bfence x)
  | 7 => some (.fence x)
  | 8 => some (.pqry x)
  | 9 => some (.geti x)
  | 16 => some (.maadd x)
  | 17 => some (.maand x)
  | 18 => some (.maor x)
  | 19 => some (.maxor x)
  | 20 => some (.mamin x)
  | 21 => some (.mamax x)
  | 22 => some (.maswap x)
  | 23 => some (.macas x)
  | 24 => some (.mafadd x)
  | 25 => some (.msadd x)
  | 26 => some (.msmax x)
  | _ => none

/-- S (R62): FN. -/
noncomputable def rowS (fn : Nat) (x : R) : Option Instr :=
  match fn with
  | 0 => some (.mfs x)
  | 1 => some (.mts x)
  | 2 => some (.trap x)
  | 3 => some (.wdset x)
  | 4 => some (.tload x)
  | 5 => some (.sleep x)
  | 6 => some (.bkpt x)
  | 7 => some (.yoke x)
  | 8 => some (.unyoke x)
  | 9 => some (.aallot x)
  | 10 => some (.vallot x)
  | _ => none

/-- L-A (R63): FN[6:0]. -/
noncomputable def rowLA (op : Nat) (x : R) : Option Instr :=
  match op with
  | 0 => some (.laadd x)
  | 1 => some (.laand x)
  | 2 => some (.laor x)
  | 3 => some (.laxor x)
  | 4 => some (.lamin x)
  | 5 => some (.lamax x)
  | 6 => some (.laminn x)
  | 7 => some (.lamaxn x)
  | 8 => some (.laswap x)
  | 9 => some (.lacas x)
  | _ => none

/-- The long forms (R64): XOP. -/
noncomputable def rowL (xop : Nat) (x : L) : Option Instr :=
  match xop with
  | 16 => some (.addiL x)
  | 17 => some (.andiL x)
  | 18 => some (.oriL x)
  | 19 => some (.xoriL x)
  | 20 => some (.slliL x)
  | 21 => some (.srliL x)
  | 22 => some (.sraiL x)
  | 23 => some (.ceqiL x)
  | 24 => some (.cneiL x)
  | 25 => some (.cltiL x)
  | 26 => some (.cleiL x)
  | 27 => some (.cltniL x)
  | 28 => some (.cleniL x)
  | 29 => some (.addwiL x)
  | 30 => some (.moviL x)
  | 31 => some (.movhiL x)
  | 64 => some (.ldbL x)
  | 65 => some (.ldbnL x)
  | 66 => some (.ldhL x)
  | 67 => some (.ldhnL x)
  | 68 => some (.ldwL x)
  | 69 => some (.ldwnL x)
  | 70 => some (.lddL x)
  | 71 => some (.stbL x)
  | 72 => some (.sthL x)
  | 73 => some (.stwL x)
  | 74 => some (.stdL x)
  | 75 => some (.ldfL x)
  | 76 => some (.ldfcL x)
  | 77 => some (.stfL x)
  | 78 => some (.fclrL x)
  | 79 => some (.fsetL x)
  | 144 => some (.mcfgL x)
  | 160 => some (.recvm x)
  | 161 => some (.probem x)
  | 162 => some (.recvmFe x)
  | 208 => some (.blkh x)
  | 209 => some (.blkv x)
  | _ => none

/-- The row and fields of a syllable, its first word and, for a long form, its second (R36, R48). -/
noncomputable def readRow (w w2 : Nat) : Option Instr :=
  match fld w 30 27 with
  | 0 => rowAR (fld w 21 15) { rOf w with m := fld w 22 22 }
  | 1 => if fld w 22 19 = 14 then some (.movi (mOf w)) else rowAI (fld w 22 19) (iOf w)
  | 2 => rowAM (fld w 21 15) { rOf w with m := fld w 22 22 }
  | 3 => if fld w 22 19 < 2 then rowBr (fld w 22 19) (brOf w) else rowBg (fld w 22 19) (bgOf w)
  | 4 => rowLS (fld w 22 19) (iOf w)
  | 5 => rowLV (fld w 20 15) (vOf w)
  | 6 => rowVR (fld w 20 15) (vOf w)
  | 7 => rowVF (fld w 20 15) (vOf w)
  | 8 => rowVP (fld w 20 15) (vOf w)
  | 9 => rowX (fld w 22 17) (fld w 12 10) (xOf w)
  | 10 => rowNM (fld w 22 15) (rOf w)
  | 11 => rowNT (fld w 22 15) (rOf w)
  | 12 => rowNP (fld w 19 15) { rOf w with m := fld w 22 20 }
  | 13 => rowS (fld w 22 15) (rOf w)
  | 14 => rowLA (fld w 21 15) { rOf w with m := fld w 22 22 }
  | _ => rowL (fld w 22 15) (lOf w w2)

/-- What each row asks of its fields beyond their ranges: zero fields, modifier, ordering and type lists, immediate limits
(R47 to R64, R119, R148, R153, R158 to R161, R201). A q field above 7, an odd VMULW pair and a VLDT group that does not start
at a multiple of 16 are no matter of this check: they trap ILLEGAL_REG (R54, R55, R142). -/
def Instr.legal : Instr → Bool
  | .add x => decide (x.m < 2)
  | .sub x => decide (x.m < 2)
  | .and x => x.m == 0
  | .or x => x.m == 0
  | .xor x => x.m == 0
  | .andn x => x.m == 0
  | .orn x => x.m == 0
  | .sll x => decide (x.m < 2)
  | .srl x => decide (x.m < 2)
  | .sra x => decide (x.m < 2)
  | .ror x => decide (x.m < 2)
  | .min x => decide (x.m < 2)
  | .max x => decide (x.m < 2)
  | .minn x => decide (x.m < 2)
  | .maxn x => decide (x.m < 2)
  | .ceq x => decide (x.m < 2) && decide (x.d < 8)
  | .cne x => decide (x.m < 2) && decide (x.d < 8)
  | .clt x => decide (x.m < 2) && decide (x.d < 8)
  | .cle x => decide (x.m < 2) && decide (x.d < 8)
  | .cltn x => decide (x.m < 2) && decide (x.d < 8)
  | .clen x => decide (x.m < 2) && decide (x.d < 8)
  | .pand x => x.m == 0 && decide (x.d < 8) && decide (x.a < 8) && decide (x.b < 8)
  | .por x => x.m == 0 && decide (x.d < 8) && decide (x.a < 8) && decide (x.b < 8)
  | .pxor x => x.m == 0 && decide (x.d < 8) && decide (x.a < 8) && decide (x.b < 8)
  | .pandn x => x.m == 0 && decide (x.d < 8) && decide (x.a < 8) && decide (x.b < 8)
  | .movp x => x.m == 0 && decide (x.a < 8) && x.b == 0
  | .pmovg x => x.m == 0 && decide (x.d < 8) && x.b == 0
  | .ext x => x.m == 0
  | .exts x => x.m == 0
  | .ins x => x.m == 0
  | .addi _ => true
  | .andi _ => true
  | .ori _ => true
  | .xori _ => true
  | .slli x => decide (0 ≤ x.imm) && decide (x.imm < 64)
  | .srli x => decide (0 ≤ x.imm) && decide (x.imm < 64)
  | .srai x => decide (0 ≤ x.imm) && decide (x.imm < 64)
  | .ceqi x => decide (x.d < 8)
  | .cnei x => decide (x.d < 8)
  | .clti x => decide (x.d < 8)
  | .clei x => decide (x.d < 8)
  | .cltni x => decide (x.d < 8)
  | .cleni x => decide (x.d < 8)
  | .addwi _ => true
  | .movi _ => true
  | .addiL x => x.b == 0
  | .andiL x => x.b == 0
  | .oriL x => x.b == 0
  | .xoriL x => x.b == 0
  | .slliL x => x.b == 0 && decide (x.imm < 64)
  | .srliL x => x.b == 0 && decide (x.imm < 64)
  | .sraiL x => x.b == 0 && decide (x.imm < 64)
  | .ceqiL x => x.b == 0 && decide (x.d < 8)
  | .cneiL x => x.b == 0 && decide (x.d < 8)
  | .cltiL x => x.b == 0 && decide (x.d < 8)
  | .cleiL x => x.b == 0 && decide (x.d < 8)
  | .cltniL x => x.b == 0 && decide (x.d < 8)
  | .cleniL x => x.b == 0 && decide (x.d < 8)
  | .addwiL x => x.b == 0
  | .moviL x => x.b == 0 && x.a == 0
  | .movhiL x => x.b == 0 && x.a == 0
  | .mul x => decide (x.m < 2)
  | .mulh x => decide (x.m < 2)
  | .mulhn x => decide (x.m < 2)
  | .div x => decide (x.m < 2)
  | .divn x => decide (x.m < 2)
  | .rem x => decide (x.m < 2)
  | .remn x => decide (x.m < 2)
  | .madd x => decide (x.m < 2)
  | .msub x => decide (x.m < 2)
  | .clz x => x.m == 0 && x.b == 0
  | .ctz x => x.m == 0 && x.b == 0
  | .popc x => x.m == 0 && x.b == 0
  | .brev x => x.m == 0 && x.b == 0
  | .bswap x => x.m == 0 && x.b == 0
  | .br _ => true
  | .call _ => true
  | .bz _ => true
  | .bnz _ => true
  | .loop _ => true
  | .brr x => x.off == 0
  | .callr x => x.off == 0
  | .ret x => x.off == 0 && x.a == 0
  | .ldb _ => true
  | .ldbn _ => true
  | .ldh _ => true
  | .ldhn _ => true
  | .ldw _ => true
  | .ldwn _ => true
  | .ldd _ => true
  | .stb _ => true
  | .sth _ => true
  | .stw _ => true
  | .std _ => true
  | .ldf _ => true
  | .ldfc _ => true
  | .stf _ => true
  | .fclr x => x.d == 0
  | .fset x => x.d == 0
  | .ldbL x => x.b == 0
  | .ldbnL x => x.b == 0
  | .ldhL x => x.b == 0
  | .ldhnL x => x.b == 0
  | .ldwL x => x.b == 0
  | .ldwnL x => x.b == 0
  | .lddL x => x.b == 0
  | .stbL x => x.b == 0
  | .sthL x => x.b == 0
  | .stwL x => x.b == 0
  | .stdL x => x.b == 0
  | .ldfL x => x.b == 0
  | .ldfcL x => x.b == 0
  | .stfL x => x.b == 0
  | .fclrL x => x.b == 0 && x.d == 0
  | .fsetL x => x.b == 0 && x.d == 0
  | .vld x => x.t == 0
  | .vst x => x.t == 0
  | .vldb x => x.t == 0
  | .vlds x => x.t == 0
  | .vsts x => x.t == 0
  | .vldx x => x.t == 0
  | .vstx x => x.t == 0
  | .vldt x => x.t == 0
  | .vstt x => x.t == 0
  | .vldf x => x.t == 0
  | .vspl x => x.q == 0 && x.t == 0 && x.b == 0
  | .vfil x => x.q == 0 && x.t == 0 && x.b == 0
  | .vadd _ => true
  | .vsub _ => true
  | .vmul _ => true
  | .vfma _ => true
  | .vfms _ => true
  | .vmin _ => true
  | .vmax _ => true
  | .vabs x => (x.t == 0 || x.t == 1 || x.t == 2 || x.t == 3 || x.t == 4 || x.t == 5) && x.b == 0
  | .vneg x => x.b == 0
  | .vand x => x.t == 0
  | .vor x => x.t == 0
  | .vxor x => x.t == 0
  | .vandn x => x.t == 0
  | .vsll x => (x.t == 3 || x.t == 4 || x.t == 5 || x.t == 6 || x.t == 7)
  | .vsrl x => (x.t == 3 || x.t == 4 || x.t == 5 || x.t == 6 || x.t == 7)
  | .vsra x => (x.t == 3 || x.t == 4 || x.t == 5)
  | .vadds x => (x.t == 3 || x.t == 4 || x.t == 5 || x.t == 6 || x.t == 7)
  | .vsubs x => (x.t == 3 || x.t == 4 || x.t == 5 || x.t == 6 || x.t == 7)
  | .vmulh x => (x.t == 3 || x.t == 4 || x.t == 5 || x.t == 6 || x.t == 7)
  | .vdot4 x => (x.t == 5 || x.t == 7)
  | .vdot2 x => (x.t == 1 || x.t == 2)
  | .vmulw x => (x.t == 3 || x.t == 4 || x.t == 6)
  | .vcopy x => x.t == 0 && x.b == 0
  | .vcvt x => decide (x.b < 8) && x.t != x.b
  | .vdiv x => (x.t == 0 || x.t == 1 || x.t == 2)
  | .vsqrt x => (x.t == 0 || x.t == 1 || x.t == 2) && x.b == 0
  | .vrcp x => (x.t == 0 || x.t == 1 || x.t == 2) && x.b == 0
  | .vrsq x => (x.t == 0 || x.t == 1 || x.t == 2) && x.b == 0
  | .vexp2 x => (x.t == 0 || x.t == 1 || x.t == 2) && x.b == 0
  | .vlog2 x => (x.t == 0 || x.t == 1 || x.t == 2) && x.b == 0
  | .vround x => (x.t == 0 || x.t == 1 || x.t == 2) && decide (x.b < 4)
  | .vrsum x => (x.t == 0 || x.t == 1 || x.t == 2 || x.t == 3 || x.t == 6) && x.b == 0
  | .vrmax x => (x.t == 0 || x.t == 1 || x.t == 2 || x.t == 3 || x.t == 6) && x.b == 0
  | .vrmin x => (x.t == 0 || x.t == 1 || x.t == 2 || x.t == 3 || x.t == 6) && x.b == 0
  | .vscale x => (x.t == 0 || x.t == 1 || x.t == 2)
  | .vclass x => (x.t == 0 || x.t == 1 || x.t == 2) && x.b == 0
  | .venc8 x => x.t == 0 && decide (x.b < 16)
  | .vdec8 x => x.t == 0 && decide (x.b < 16)
  | .venc4 x => x.t == 0
  | .vdec4 x => x.t == 0
  | .vbscl x => x.t == 0 && x.b / 4 % 4 == 0
  | .vceq x => (x.t == 0 || x.t == 3 || x.t == 6)
  | .vcne x => (x.t == 0 || x.t == 3 || x.t == 6)
  | .vclt x => (x.t == 0 || x.t == 3 || x.t == 6)
  | .vcle x => (x.t == 0 || x.t == 3 || x.t == 6)
  | .vcltn x => (x.t == 3 || x.t == 6)
  | .vclen x => (x.t == 3 || x.t == 6)
  | .qand x => x.q == 0 && x.t == 0
  | .qor x => x.q == 0 && x.t == 0
  | .qxor x => x.q == 0 && x.t == 0
  | .qandn x => x.q == 0 && x.t == 0
  | .qmovg x => x.q == 0 && x.t == 0 && x.b == 0
  | .gmovq x => x.q == 0 && x.t == 0 && x.b == 0
  | .vsplat x => x.b == 0
  | .vins x => x.q == 0 && x.t == 0
  | .vext x => x.q == 0 && (x.t == 0 || x.t == 3 || x.t == 6)
  | .vperm x => x.t == 0
  | .vcompr x => x.t == 0 && x.b == 0
  | .vsel x => x.t == 0
  | .viota x => x.t == 0 && x.b == 0
  | .qpopc x => x.q == 0 && x.t == 0 && x.b == 0
  | .mcfg x => x.c == 0
  | .mcfgL x => x.d == 0
  | .mma _ => true
  | .mmat _ => true
  | .mms _ => true
  | .mmst _ => true
  | .mmaz _ => true
  | .mmazt _ => true
  | .mmsz _ => true
  | .mmszt _ => true
  | .mzero x => x.a == 0 && x.b == 0
  | .mldac x => x.b == 0
  | .mldacf x => x.b == 0
  | .mstac x => x.b == 0
  | .mstacf x => x.b == 0
  | .mdrn _ => true
  | .mhad x => x.b == 0
  | .msclc x => x.b == 0
  | .maddr x => x.b == 0
  | .mrdf x => x.b == 0
  | .mclrf x => x.a == 0 && x.b == 0
  | .mwait x => x.a == 0 && x.b == 0 && x.c == 0
  | .mwaitAc x => x.a == 0 && x.b == 0
  | .mjob x => x.c == 0
  | .mtstj x => x.c == 0
  | .send x => decide (x.m < 4) && decide (x.d < 8)
  | .sende x => decide (x.m < 4) && decide (x.d < 8)
  | .recv _ => true
  | .probe x => decide (x.m < 4)
  | .rcancel x => x.m == 0 && x.b == 0
  | .rtest x => x.m == 0 && decide (x.b < 2)
  | .rwait x => x.m == 0 && decide (x.b < 2)
  | .xchg x => x.m == 0
  | .squery x => x.m == 0 && x.a == 0 && decide (x.b < 4)
  | .sendv x => x.m == 0 && decide (x.d < 8)
  | .csend x => x.m == 0 && decide (x.d < 8)
  | .recvm _ => true
  | .probem _ => true
  | .recvmFe _ => true
  | .tbind x => x.m == 0
  | .tarm x => x.m == 0
  | .tkick x => x.m == 0 && x.d == 0 && x.b == 0
  | .tspawn x => x.m == 0 && x.b == 0
  | .tend x => x.m == 0 && x.d == 0 && x.a == 0 && x.b == 0
  | .tcommit x => x.m == 0 && x.d == 0 && x.a == 0 && x.b == 0
  | .tyield x => x.m == 0 && x.d == 0 && x.b == 0
  | .tunbind x => x.m == 0 && x.b == 0
  | .tstat x => x.m == 0 && decide (x.b < 4)
  | .grank x => x.m == 0 && x.b == 0
  | .gsize x => x.m == 0 && x.b == 0
  | .gplace x => x.m == 0
  | .barr x => x.m == 0 && x.b == 0
  | .bbind x => x.m == 0
  | .bwait x => x.m == 0
  | .bcancel x => x.m == 0 && x.b == 0
  | .cred x => x.m == 0 && x.b == 0
  | .cared x => x.m == 0 && x.b == 0
  | .cbcast x => x.m == 0 && x.b == 0
  | .cstart x => x.m == 0 && x.b == 0
  | .cabort x => x.m == 0 && x.b == 0
  | .ktrig x => x.m == 0 && x.d == 0 && x.a == 0 && x.b == 0
  | .kdone x => x.m == 0 && x.d == 0 && x.a == 0 && x.b == 0
  | .get x => decide (x.m < 3) && decide (x.d < 8)
  | .put x => decide (x.m < 3) && decide (x.d < 8)
  | .getd x => decide (x.m < 3) && decide (x.d < 8)
  | .putd x => decide (x.m < 3) && decide (x.d < 8)
  | .bmv x => x.m == 0 && decide (x.d < 8) && x.b == 0
  | .bmvt x => x.m == 0 && decide (x.d < 8) && x.b == 0
  | .bfence x => x.m == 0 && decide (x.d < 8)
  | .fence x => x.m == 0 && x.d == 0 && decide (x.a < 4) && x.b == 0
  | .pqry x => x.m == 0 && x.b == 0
  | .geti x => x.m == 0 && decide (x.d < 8)
  | .maadd x => (decide (x.m < 7) && x.m != 3)
  | .maand x => (decide (x.m < 7) && x.m != 3)
  | .maor x => (decide (x.m < 7) && x.m != 3)
  | .maxor x => (decide (x.m < 7) && x.m != 3)
  | .mamin x => (decide (x.m < 7) && x.m != 3)
  | .mamax x => (decide (x.m < 7) && x.m != 3)
  | .maswap x => (decide (x.m < 7) && x.m != 3)
  | .macas x => (decide (x.m < 7) && x.m != 3)
  | .mafadd x => (x.m == 4 || x.m == 5 || x.m == 6)
  | .msadd x => (decide (x.m < 7) && x.m != 3) && decide (x.d < 8)
  | .msmax x => (decide (x.m < 7) && x.m != 3) && decide (x.d < 8)
  | .mfs x => x.m == 0
  | .mts x => x.m == 0
  | .trap x => x.m == 0 && x.d == 0
  | .wdset x => x.m == 0
  | .tload x => x.m == 0
  | .sleep x => x.m == 0
  | .bkpt x => x.m == 0 && x.d == 0 && x.a == 0 && x.b == 0
  | .yoke x => x.m == 0
  | .unyoke x => x.m == 0 && x.a == 0 && x.b == 0
  | .aallot x => x.m == 0 && x.b == 0
  | .vallot x => x.m == 0 && x.b == 0
  | .blkh x => x.g == 0 && !x.n && decide (x.d < 16) && x.a == 0 && x.b == 0
  | .blkv x => x.g == 0 && !x.n && x.d == 0 && x.a == 0 && x.b == 0
  | .laadd x => decide (x.m < 2)
  | .laand x => decide (x.m < 2)
  | .laor x => decide (x.m < 2)
  | .laxor x => decide (x.m < 2)
  | .lamin x => decide (x.m < 2)
  | .lamax x => decide (x.m < 2)
  | .laminn x => decide (x.m < 2)
  | .lamaxn x => decide (x.m < 2)
  | .laswap x => decide (x.m < 2)
  | .lacas x => decide (x.m < 2)
  | .fullWaitWake _ => true
  | .vflagsClear _ => true
  | .caps0Write _ => true
  | .wpcHitClear _ _ => true
  | .tileUngate _ => true
  | .tileResetComplete _ => true
  | .taskDispatch _ => true
  | .budgetExpiry _ => true
  | .pagerRestart _ _ _ => true
  | .pagerKill _ _ _ => true
  | .imemEccError _ => true
  | .imemRepair _ => true
  | .eccLocal _ => true
  | .tileUnrecoverableFault _ => true
  | .gateRequest _ => true
  | .forcedGate _ => true
  | .sleepWake _ => true
  | .allotStallEnd _ => true
  | .tloadWaitEnd _ => true
  | .matrixQueueStallEnd _ => true
  | .mmaComplete _ => true
  | .mzeroComplete _ => true
  | .mldacComplete _ => true
  | .mstacComplete _ => true
  | .mdrnComplete _ => true
  | .mhadComplete _ => true
  | .msclcComplete _ => true
  | .maddrComplete _ => true
  | .mclrfComplete _ => true
  | .jobComplete _ => true
  | .mwaitRelease _ => true
  | .mrdfRelease _ => true
  | .eagerArrival _ => true
  | .rtsArrival _ => true
  | .troughCopyDone _ _ => true
  | .ctsArrival _ => true
  | .dataArrival _ => true
  | .eackArrival _ => true
  | .rackArrival _ => true
  | .dackArrival _ => true
  | .poolFullArrival _ => true
  | .resumeRetry _ _ => true
  | .sendEmit _ _ => true
  | .rankCacheFill _ _ _ => true
  | .rwaitWake _ => true
  | .packetPark _ => true
  | .overflowStoreGrow _ => true
  | .switchPortPass _ => true
  | .groupEntryDrained _ _ => true
  | .gplaceResolved _ => true
  | .barrierArriveAtSwitch _ => true
  | .barrierReleaseDelivery _ => true
  | .barrierCancelAtLca _ => true
  | .bwaitRelease _ => true
  | .stationRequest _ => true
  | .translationWalkDone _ => true
  | .pagerFaultResolution _ _ => true
  | .packetPerform _ => true
  | .memoryReply _ => true
  | .memFaultTrap _ => true
  | .atomicReply _ => true
  | .fenceComplete _ => true
  | .pqryReply _ => true
  | .getiWordWrite _ => true
  | .hbmUncorrectable _ => true
  | .poisonClear _ _ => true
  | .mappingInvalidate _ _ => true
  | .mappingChangeComplete _ _ => true
  | .migrateFreezeDone _ _ => true
  | .migrateDrainDone _ _ => true
  | .migrateCopyDone _ _ => true
  | .migrateSwitchDone _ _ => true
  | .bfencePacket _ => true
  | .bfenceAnswer _ => true
  | .bmvPartial _ => true
  | .bmvCombine _ _ => true
  | .cdtCacheFill _ _ _ => true
  | .memberJoin _ => true
  | .yokeFormationEnd _ => true
  | .yokeJoinTimeout _ => true
  | .blockStart _ => true
  | .operandArrival _ _ _ => true
  | .blockResolve _ _ => true
  | .blockCommit _ => true
  | .yokeMemberFault _ _ => true
  | .yokeDrain _ => true
  | .combineUpChunk _ => true
  | .combineDownChunk _ => true
  | .collectiveAbortAtLca _ => true
  | .collectiveAbortArrival _ => true
  | .collectedAtLca _ => true
  | .collectiveIdRelease _ => true
  | .scheduleEntryStart _ => true
  | .scheduleChunkArrival _ => true
  | .scheduleEntryComplete _ _ => true
  | .launchPacket _ => true
  | .kernelTileLoad _ _ => true
  | .kernelTileKick _ _ => true
  | .kernelTriggerArrival _ _ => true
  | .kdoneAckArrival _ _ => true
  | .tailWrite _ _ _ => true
  | .queueNotice _ => true
  | .packetAdmit _ _ => true
  | .packetRun _ => true
  | .nopPacket _ => true
  | .copyPacket _ => true
  | .fillPacket _ => true
  | .signalSet _ => true
  | .signalAdd _ => true
  | .signalSub _ => true
  | .signalArm _ => true
  | .waitPacket _ => true
  | .waitRetest _ => true
  | .waitTimeout _ => true
  | .measurePacket _ => true
  | .receiptPacket _ => true
  | .mapPacket _ => true
  | .unmapPacket _ => true
  | .migratePacket _ => true
  | .checkpointPacket _ => true
  | .checkpointStreamDone _ => true
  | .cdtloadPacket _ => true
  | .packetComplete _ => true
  | .pumpHouseTileFailure _ _ _ _ => true
  | .contextFault _ => true
  | .functionLevelReset _ => true
  | .partitionGrant _ _ => true
  | .timeSliceExpiry _ => true
  | .saveTaskBoundary _ => true
  | .saveChannelDrained _ => true
  | .tileCaptureDone _ => true
  | .tileEviction _ => true
  | .restoreComplete _ => true
  | .cidDropComplete _ => true
  | .leafHashDone _ _ => true
  | .measurementAppend _ => true
  | .welimDataReceive _ _ => true
  | .welimAckReceive _ _ => true
  | .welimNakReceive _ _ => true
  | .welimReplayTimeout _ => true
  | .welimAckTimer _ => true
  | .laneSample _ _ => true
  | .swapRepeat _ => true
  | .swapackReceive _ _ => true
  | .swapCutover _ => true
  | .swapTimeout _ => true
  | .laneLoss _ _ => true
  | .retrainTimeout _ => true
  | .trainTimeout _ => true
  | .trainingSetReceive _ _ => true
  | .syncReceive _ _ => true
  | .syncLoss => true
  | .uePacketReceive _ => true
  | .ueDeferral _ _ => true
  | .bar2Access _ => true
  | .apertureMapWrite _ _ _ _ => true
  | .bootReset _ => true
  | .mailboxDoneAck _ => true
  | .version _ => true
  | .ctxCreate _ => true
  | .ctxGrant _ => true
  | .ctxDestroy _ => true
  | .ctxSave _ => true
  | .ctxRestore _ => true
  | .ctxSlice _ => true
  | .qCreate _ => true
  | .qReset _ => true
  | .qDestroy _ => true
  | .powerLimit _ => true
  | .portCtlDown _ => true
  | .portCtlEnable _ => true
  | .laneLog _ => true
  | .flashWrite _ => true
  | .attach _ => true
  | .detach _ => true
  | .stop _ => true
  | .resume _ => true
  | .step _ => true
  | .read _ => true
  | .write _ => true
  | .trace _ => true
  | .clearacct _ => true
  | .powerWindowControl _ => true
  | .thermalThrottle _ _ => true
  | .thermalShutdown _ _ => true
  | .clusterGate _ _ => true
  | .watchpointHit _ _ _ _ => true
  | .watchTrap _ => true
  | .stopTheClusterArrival _ => true
  | .traceDrain _ => true
  | .schedulerTrap _ => true
  | .cmdNotOffered _ => true
  | .ideKmRequest _ => true

/-- A syllable's instruction, or why it is none. -/
noncomputable def decode (w w2 : Nat) : Except Reject Instr :=
  match readRow w w2 with
  | none => .error .unassigned
  | some i => if i.wf && i.legal then .ok i else .error .illegal

/-- Four bytes as a word, the lowest address first (R2). -/
def wordOf (a b c d : BitVec 8) : Nat := a.toNat + 256 * (b.toNat + 256 * (c.toNat + 256 * d.toNat))

/-- The row and fields at the head of a list of bytes, and the bytes after it (R36). -/
noncomputable def readBytes : List (BitVec 8) → Except Reject (Instr × List (BitVec 8))
  | a :: b :: c :: d :: r =>
    if fld (wordOf a b c d) 30 27 = 15 then
      match r with
      | e :: f :: g :: h :: r' =>
        match readRow (wordOf a b c d) (wordOf e f g h) with
        | some i => .ok (i, r')
        | none => .error .unassigned
      | _ => .error .short
    else match readRow (wordOf a b c d) 0 with
      | some i => .ok (i, r)
      | none => .error .unassigned
  | _ => .error .short

/-- The instruction at the head of a list of bytes, and the bytes after it: the row read, and its fields legal. -/
noncomputable def decodeBytes (l : List (BitVec 8)) : Except Reject (Instr × List (BitVec 8)) :=
  match readBytes l with
  | .ok (i, r) => if i.wf && i.legal then .ok (i, r) else .error .illegal
  | .error e => .error e

/-- The bytes of a word (R2). -/
def wordBytes (w : Nat) : List (BitVec 8) :=
  [BitVec.ofNat 8 w, BitVec.ofNat 8 (w / 256), BitVec.ofNat 8 (w / 65536), BitVec.ofNat 8 (w / 16777216)]

/-- The instruction of a word numbered as the opcode table numbers its bits; the second word of a long form is bits 63..32. A word
of the row with a reserved field value is still the row's word: executed, it traps ILLEGAL_OP (R48; `decode` refuses it). -/
noncomputable def decodeTableWord (nbits w : Nat) : Option Instr :=
  match readBytes (wordBytes (w % 2 ^ nbits) ++ wordBytes (w % 2 ^ nbits / 2 ^ 32)) with
  | .ok (i, _) => some i
  | .error _ => none

/-! ## The encoder -/

/-- E, MAJ, G and GN of a first word. -/
def encHead (e : Bool) (maj g : Nat) (n : Bool) : Nat :=
  (if e then 2 ^ 31 else 0) + maj * 2 ^ 27 + g * 2 ^ 24 + (if n then 2 ^ 23 else 0)

/-- The first word of each format (R45). -/
def encR (maj fn : Nat) (x : R) : Nat := encHead x.e maj x.g x.n + fn * 2 ^ 15 + x.d * 2 ^ 10 + x.a * 2 ^ 5 + x.b
def encI (maj fn : Nat) (x : I) : Nat := encHead x.e maj x.g x.n + fn * 2 ^ 19 + x.d * 2 ^ 14 + x.a * 2 ^ 9 + uns 9 x.imm
def encM (x : M) : Nat := encHead x.e 1 x.g x.n + 14 * 2 ^ 19 + x.d * 2 ^ 14 + uns 14 x.imm
def encBr (fn : Nat) (x : Br) : Nat := encHead x.e 3 x.g x.n + fn * 2 ^ 19 + uns 19 x.off
def encBg (fn : Nat) (x : Bg) : Nat := encHead x.e 3 x.g x.n + fn * 2 ^ 19 + x.a * 2 ^ 14 + uns 14 x.off
def encV (maj fn : Nat) (x : V) : Nat :=
  encHead x.e maj x.q false + x.t * 2 ^ 21 + fn * 2 ^ 15 + x.d * 2 ^ 10 + x.a * 2 ^ 5 + x.b
def encX (fn v3 : Nat) (x : X) : Nat :=
  encHead x.e 9 x.g x.n + fn * 2 ^ 17 + x.c * 2 ^ 13 + v3 * 2 ^ 10 + x.a * 2 ^ 5 + x.b
def encL (xop : Nat) (x : L) : Nat := encHead x.e 15 x.g x.n + xop * 2 ^ 15 + x.d * 2 ^ 10 + x.a * 2 ^ 5 + x.b

/-- The words of an instruction; an engine's step has none. -/
def encode : Instr → List Nat
  | .add x => [encR 0 (0 + 128 * x.m) x]
  | .sub x => [encR 0 (1 + 128 * x.m) x]
  | .and x => [encR 0 (2 + 128 * x.m) x]
  | .or x => [encR 0 (3 + 128 * x.m) x]
  | .xor x => [encR 0 (4 + 128 * x.m) x]
  | .andn x => [encR 0 (5 + 128 * x.m) x]
  | .orn x => [encR 0 (6 + 128 * x.m) x]
  | .sll x => [encR 0 (7 + 128 * x.m) x]
  | .srl x => [encR 0 (8 + 128 * x.m) x]
  | .sra x => [encR 0 (9 + 128 * x.m) x]
  | .ror x => [encR 0 (10 + 128 * x.m) x]
  | .min x => [encR 0 (11 + 128 * x.m) x]
  | .max x => [encR 0 (12 + 128 * x.m) x]
  | .minn x => [encR 0 (13 + 128 * x.m) x]
  | .maxn x => [encR 0 (14 + 128 * x.m) x]
  | .ceq x => [encR 0 (15 + 128 * x.m) x]
  | .cne x => [encR 0 (16 + 128 * x.m) x]
  | .clt x => [encR 0 (17 + 128 * x.m) x]
  | .cle x => [encR 0 (18 + 128 * x.m) x]
  | .cltn x => [encR 0 (19 + 128 * x.m) x]
  | .clen x => [encR 0 (20 + 128 * x.m) x]
  | .pand x => [encR 0 (21 + 128 * x.m) x]
  | .por x => [encR 0 (22 + 128 * x.m) x]
  | .pxor x => [encR 0 (23 + 128 * x.m) x]
  | .pandn x => [encR 0 (24 + 128 * x.m) x]
  | .movp x => [encR 0 (25 + 128 * x.m) x]
  | .pmovg x => [encR 0 (26 + 128 * x.m) x]
  | .ext x => [encR 0 (27 + 128 * x.m) x]
  | .exts x => [encR 0 (28 + 128 * x.m) x]
  | .ins x => [encR 0 (29 + 128 * x.m) x]
  | .addi x => [encI 1 0 x]
  | .andi x => [encI 1 1 x]
  | .ori x => [encI 1 2 x]
  | .xori x => [encI 1 3 x]
  | .slli x => [encI 1 4 x]
  | .srli x => [encI 1 5 x]
  | .srai x => [encI 1 6 x]
  | .ceqi x => [encI 1 7 x]
  | .cnei x => [encI 1 8 x]
  | .clti x => [encI 1 9 x]
  | .clei x => [encI 1 10 x]
  | .cltni x => [encI 1 11 x]
  | .cleni x => [encI 1 12 x]
  | .addwi x => [encI 1 13 x]
  | .movi x => [encM x]
  | .addiL x => [encL 0x10 x, x.imm]
  | .andiL x => [encL 0x11 x, x.imm]
  | .oriL x => [encL 0x12 x, x.imm]
  | .xoriL x => [encL 0x13 x, x.imm]
  | .slliL x => [encL 0x14 x, x.imm]
  | .srliL x => [encL 0x15 x, x.imm]
  | .sraiL x => [encL 0x16 x, x.imm]
  | .ceqiL x => [encL 0x17 x, x.imm]
  | .cneiL x => [encL 0x18 x, x.imm]
  | .cltiL x => [encL 0x19 x, x.imm]
  | .cleiL x => [encL 0x1a x, x.imm]
  | .cltniL x => [encL 0x1b x, x.imm]
  | .cleniL x => [encL 0x1c x, x.imm]
  | .addwiL x => [encL 0x1d x, x.imm]
  | .moviL x => [encL 0x1e x, x.imm]
  | .movhiL x => [encL 0x1f x, x.imm]
  | .mul x => [encR 2 (0 + 128 * x.m) x]
  | .mulh x => [encR 2 (1 + 128 * x.m) x]
  | .mulhn x => [encR 2 (2 + 128 * x.m) x]
  | .div x => [encR 2 (3 + 128 * x.m) x]
  | .divn x => [encR 2 (4 + 128 * x.m) x]
  | .rem x => [encR 2 (5 + 128 * x.m) x]
  | .remn x => [encR 2 (6 + 128 * x.m) x]
  | .madd x => [encR 2 (7 + 128 * x.m) x]
  | .msub x => [encR 2 (8 + 128 * x.m) x]
  | .clz x => [encR 2 (9 + 128 * x.m) x]
  | .ctz x => [encR 2 (10 + 128 * x.m) x]
  | .popc x => [encR 2 (11 + 128 * x.m) x]
  | .brev x => [encR 2 (12 + 128 * x.m) x]
  | .bswap x => [encR 2 (13 + 128 * x.m) x]
  | .br x => [encBr 0 x]
  | .call x => [encBr 1 x]
  | .bz x => [encBg 2 x]
  | .bnz x => [encBg 3 x]
  | .loop x => [encBg 4 x]
  | .brr x => [encBg 5 x]
  | .callr x => [encBg 6 x]
  | .ret x => [encBg 7 x]
  | .ldb x => [encI 4 0 x]
  | .ldbn x => [encI 4 1 x]
  | .ldh x => [encI 4 2 x]
  | .ldhn x => [encI 4 3 x]
  | .ldw x => [encI 4 4 x]
  | .ldwn x => [encI 4 5 x]
  | .ldd x => [encI 4 6 x]
  | .stb x => [encI 4 7 x]
  | .sth x => [encI 4 8 x]
  | .stw x => [encI 4 9 x]
  | .std x => [encI 4 10 x]
  | .ldf x => [encI 4 11 x]
  | .ldfc x => [encI 4 12 x]
  | .stf x => [encI 4 13 x]
  | .fclr x => [encI 4 14 x]
  | .fset x => [encI 4 15 x]
  | .ldbL x => [encL 0x40 x, x.imm]
  | .ldbnL x => [encL 0x41 x, x.imm]
  | .ldhL x => [encL 0x42 x, x.imm]
  | .ldhnL x => [encL 0x43 x, x.imm]
  | .ldwL x => [encL 0x44 x, x.imm]
  | .ldwnL x => [encL 0x45 x, x.imm]
  | .lddL x => [encL 0x46 x, x.imm]
  | .stbL x => [encL 0x47 x, x.imm]
  | .sthL x => [encL 0x48 x, x.imm]
  | .stwL x => [encL 0x49 x, x.imm]
  | .stdL x => [encL 0x4a x, x.imm]
  | .ldfL x => [encL 0x4b x, x.imm]
  | .ldfcL x => [encL 0x4c x, x.imm]
  | .stfL x => [encL 0x4d x, x.imm]
  | .fclrL x => [encL 0x4e x, x.imm]
  | .fsetL x => [encL 0x4f x, x.imm]
  | .vld x => [encV 5 0 x]
  | .vst x => [encV 5 1 x]
  | .vldb x => [encV 5 2 x]
  | .vlds x => [encV 5 3 x]
  | .vsts x => [encV 5 4 x]
  | .vldx x => [encV 5 5 x]
  | .vstx x => [encV 5 6 x]
  | .vldt x => [encV 5 7 x]
  | .vstt x => [encV 5 8 x]
  | .vldf x => [encV 5 9 x]
  | .vspl x => [encV 5 10 x]
  | .vfil x => [encV 5 11 x]
  | .vadd x => [encV 6 0 x]
  | .vsub x => [encV 6 1 x]
  | .vmul x => [encV 6 2 x]
  | .vfma x => [encV 6 3 x]
  | .vfms x => [encV 6 4 x]
  | .vmin x => [encV 6 5 x]
  | .vmax x => [encV 6 6 x]
  | .vabs x => [encV 6 7 x]
  | .vneg x => [encV 6 8 x]
  | .vand x => [encV 6 9 x]
  | .vor x => [encV 6 10 x]
  | .vxor x => [encV 6 11 x]
  | .vandn x => [encV 6 12 x]
  | .vsll x => [encV 6 13 x]
  | .vsrl x => [encV 6 14 x]
  | .vsra x => [encV 6 15 x]
  | .vadds x => [encV 6 16 x]
  | .vsubs x => [encV 6 17 x]
  | .vmulh x => [encV 6 18 x]
  | .vdot4 x => [encV 6 19 x]
  | .vdot2 x => [encV 6 20 x]
  | .vmulw x => [encV 6 21 x]
  | .vcopy x => [encV 6 22 x]
  | .vcvt x => [encV 7 0 x]
  | .vdiv x => [encV 7 1 x]
  | .vsqrt x => [encV 7 2 x]
  | .vrcp x => [encV 7 3 x]
  | .vrsq x => [encV 7 4 x]
  | .vexp2 x => [encV 7 5 x]
  | .vlog2 x => [encV 7 6 x]
  | .vround x => [encV 7 7 x]
  | .vrsum x => [encV 7 8 x]
  | .vrmax x => [encV 7 9 x]
  | .vrmin x => [encV 7 10 x]
  | .vscale x => [encV 7 11 x]
  | .vclass x => [encV 7 12 x]
  | .venc8 x => [encV 7 13 x]
  | .vdec8 x => [encV 7 14 x]
  | .venc4 x => [encV 7 15 x]
  | .vdec4 x => [encV 7 16 x]
  | .vbscl x => [encV 7 17 x]
  | .vceq x => [encV 8 0 x]
  | .vcne x => [encV 8 1 x]
  | .vclt x => [encV 8 2 x]
  | .vcle x => [encV 8 3 x]
  | .vcltn x => [encV 8 4 x]
  | .vclen x => [encV 8 5 x]
  | .qand x => [encV 8 6 x]
  | .qor x => [encV 8 7 x]
  | .qxor x => [encV 8 8 x]
  | .qandn x => [encV 8 9 x]
  | .qmovg x => [encV 8 10 x]
  | .gmovq x => [encV 8 11 x]
  | .vsplat x => [encV 8 12 x]
  | .vins x => [encV 8 13 x]
  | .vext x => [encV 8 14 x]
  | .vperm x => [encV 8 15 x]
  | .vcompr x => [encV 8 16 x]
  | .vsel x => [encV 8 17 x]
  | .viota x => [encV 8 18 x]
  | .qpopc x => [encV 8 19 x]
  | .mcfg x => [encX 0 0 x]
  | .mcfgL x => [encL 0x90 x, x.imm]
  | .mma x => [encX 1 0 x]
  | .mmat x => [encX 1 1 x]
  | .mms x => [encX 1 2 x]
  | .mmst x => [encX 1 3 x]
  | .mmaz x => [encX 2 0 x]
  | .mmazt x => [encX 2 1 x]
  | .mmsz x => [encX 2 2 x]
  | .mmszt x => [encX 2 3 x]
  | .mzero x => [encX 3 0 x]
  | .mldac x => [encX 4 0 x]
  | .mldacf x => [encX 4 1 x]
  | .mstac x => [encX 5 0 x]
  | .mstacf x => [encX 5 1 x]
  | .mdrn x => [encX 6 0 x]
  | .mhad x => [encX 7 0 x]
  | .msclc x => [encX 8 0 x]
  | .maddr x => [encX 9 0 x]
  | .mrdf x => [encX 10 0 x]
  | .mclrf x => [encX 11 0 x]
  | .mwait x => [encX 12 0 x]
  | .mwaitAc x => [encX 12 1 x]
  | .mjob x => [encX 13 0 x]
  | .mtstj x => [encX 14 0 x]
  | .send x => [encR 10 (0 + 2 * x.m) x]
  | .sende x => [encR 10 (1 + 2 * x.m) x]
  | .recv x => [encR 10 (16 + x.m) x]
  | .probe x => [encR 10 (32 + x.m) x]
  | .rcancel x => [encR 10 (48) x]
  | .rtest x => [encR 10 (64) x]
  | .rwait x => [encR 10 (80) x]
  | .xchg x => [encR 10 (96) x]
  | .squery x => [encR 10 (112) x]
  | .sendv x => [encR 10 (128) x]
  | .csend x => [encR 10 (144) x]
  | .recvm x => [encL 0xa0 x, x.imm]
  | .probem x => [encL 0xa1 x, x.imm]
  | .recvmFe x => [encL 0xa2 x, x.imm]
  | .tbind x => [encR 11 (0) x]
  | .tarm x => [encR 11 (1) x]
  | .tkick x => [encR 11 (2) x]
  | .tspawn x => [encR 11 (3) x]
  | .tend x => [encR 11 (4) x]
  | .tcommit x => [encR 11 (5) x]
  | .tyield x => [encR 11 (6) x]
  | .tunbind x => [encR 11 (7) x]
  | .tstat x => [encR 11 (8) x]
  | .grank x => [encR 11 (16) x]
  | .gsize x => [encR 11 (17) x]
  | .gplace x => [encR 11 (18) x]
  | .barr x => [encR 11 (32) x]
  | .bbind x => [encR 11 (33) x]
  | .bwait x => [encR 11 (34) x]
  | .bcancel x => [encR 11 (35) x]
  | .cred x => [encR 11 (48) x]
  | .cared x => [encR 11 (49) x]
  | .cbcast x => [encR 11 (50) x]
  | .cstart x => [encR 11 (51) x]
  | .cabort x => [encR 11 (52) x]
  | .ktrig x => [encR 11 (64) x]
  | .kdone x => [encR 11 (65) x]
  | .get x => [encR 12 (0 + 32 * x.m) x]
  | .put x => [encR 12 (1 + 32 * x.m) x]
  | .getd x => [encR 12 (2 + 32 * x.m) x]
  | .putd x => [encR 12 (3 + 32 * x.m) x]
  | .bmv x => [encR 12 (4 + 32 * x.m) x]
  | .bmvt x => [encR 12 (5 + 32 * x.m) x]
  | .bfence x => [encR 12 (6 + 32 * x.m) x]
  | .fence x => [encR 12 (7 + 32 * x.m) x]
  | .pqry x => [encR 12 (8 + 32 * x.m) x]
  | .geti x => [encR 12 (9 + 32 * x.m) x]
  | .maadd x => [encR 12 (16 + 32 * x.m) x]
  | .maand x => [encR 12 (17 + 32 * x.m) x]
  | .maor x => [encR 12 (18 + 32 * x.m) x]
  | .maxor x => [encR 12 (19 + 32 * x.m) x]
  | .mamin x => [encR 12 (20 + 32 * x.m) x]
  | .mamax x => [encR 12 (21 + 32 * x.m) x]
  | .maswap x => [encR 12 (22 + 32 * x.m) x]
  | .macas x => [encR 12 (23 + 32 * x.m) x]
  | .mafadd x => [encR 12 (24 + 32 * x.m) x]
  | .msadd x => [encR 12 (25 + 32 * x.m) x]
  | .msmax x => [encR 12 (26 + 32 * x.m) x]
  | .mfs x => [encR 13 (0) x]
  | .mts x => [encR 13 (1) x]
  | .trap x => [encR 13 (2) x]
  | .wdset x => [encR 13 (3) x]
  | .tload x => [encR 13 (4) x]
  | .sleep x => [encR 13 (5) x]
  | .bkpt x => [encR 13 (6) x]
  | .yoke x => [encR 13 (7) x]
  | .unyoke x => [encR 13 (8) x]
  | .aallot x => [encR 13 (9) x]
  | .vallot x => [encR 13 (10) x]
  | .blkh x => [encL 0xd0 x, x.imm]
  | .blkv x => [encL 0xd1 x, x.imm]
  | .laadd x => [encR 14 (0 + 128 * x.m) x]
  | .laand x => [encR 14 (1 + 128 * x.m) x]
  | .laor x => [encR 14 (2 + 128 * x.m) x]
  | .laxor x => [encR 14 (3 + 128 * x.m) x]
  | .lamin x => [encR 14 (4 + 128 * x.m) x]
  | .lamax x => [encR 14 (5 + 128 * x.m) x]
  | .laminn x => [encR 14 (6 + 128 * x.m) x]
  | .lamaxn x => [encR 14 (7 + 128 * x.m) x]
  | .laswap x => [encR 14 (8 + 128 * x.m) x]
  | .lacas x => [encR 14 (9 + 128 * x.m) x]
  | .fullWaitWake _ => []
  | .vflagsClear _ => []
  | .caps0Write _ => []
  | .wpcHitClear _ _ => []
  | .tileUngate _ => []
  | .tileResetComplete _ => []
  | .taskDispatch _ => []
  | .budgetExpiry _ => []
  | .pagerRestart _ _ _ => []
  | .pagerKill _ _ _ => []
  | .imemEccError _ => []
  | .imemRepair _ => []
  | .eccLocal _ => []
  | .tileUnrecoverableFault _ => []
  | .gateRequest _ => []
  | .forcedGate _ => []
  | .sleepWake _ => []
  | .allotStallEnd _ => []
  | .tloadWaitEnd _ => []
  | .matrixQueueStallEnd _ => []
  | .mmaComplete _ => []
  | .mzeroComplete _ => []
  | .mldacComplete _ => []
  | .mstacComplete _ => []
  | .mdrnComplete _ => []
  | .mhadComplete _ => []
  | .msclcComplete _ => []
  | .maddrComplete _ => []
  | .mclrfComplete _ => []
  | .jobComplete _ => []
  | .mwaitRelease _ => []
  | .mrdfRelease _ => []
  | .eagerArrival _ => []
  | .rtsArrival _ => []
  | .troughCopyDone _ _ => []
  | .ctsArrival _ => []
  | .dataArrival _ => []
  | .eackArrival _ => []
  | .rackArrival _ => []
  | .dackArrival _ => []
  | .poolFullArrival _ => []
  | .resumeRetry _ _ => []
  | .sendEmit _ _ => []
  | .rankCacheFill _ _ _ => []
  | .rwaitWake _ => []
  | .packetPark _ => []
  | .overflowStoreGrow _ => []
  | .switchPortPass _ => []
  | .groupEntryDrained _ _ => []
  | .gplaceResolved _ => []
  | .barrierArriveAtSwitch _ => []
  | .barrierReleaseDelivery _ => []
  | .barrierCancelAtLca _ => []
  | .bwaitRelease _ => []
  | .stationRequest _ => []
  | .translationWalkDone _ => []
  | .pagerFaultResolution _ _ => []
  | .packetPerform _ => []
  | .memoryReply _ => []
  | .memFaultTrap _ => []
  | .atomicReply _ => []
  | .fenceComplete _ => []
  | .pqryReply _ => []
  | .getiWordWrite _ => []
  | .hbmUncorrectable _ => []
  | .poisonClear _ _ => []
  | .mappingInvalidate _ _ => []
  | .mappingChangeComplete _ _ => []
  | .migrateFreezeDone _ _ => []
  | .migrateDrainDone _ _ => []
  | .migrateCopyDone _ _ => []
  | .migrateSwitchDone _ _ => []
  | .bfencePacket _ => []
  | .bfenceAnswer _ => []
  | .bmvPartial _ => []
  | .bmvCombine _ _ => []
  | .cdtCacheFill _ _ _ => []
  | .memberJoin _ => []
  | .yokeFormationEnd _ => []
  | .yokeJoinTimeout _ => []
  | .blockStart _ => []
  | .operandArrival _ _ _ => []
  | .blockResolve _ _ => []
  | .blockCommit _ => []
  | .yokeMemberFault _ _ => []
  | .yokeDrain _ => []
  | .combineUpChunk _ => []
  | .combineDownChunk _ => []
  | .collectiveAbortAtLca _ => []
  | .collectiveAbortArrival _ => []
  | .collectedAtLca _ => []
  | .collectiveIdRelease _ => []
  | .scheduleEntryStart _ => []
  | .scheduleChunkArrival _ => []
  | .scheduleEntryComplete _ _ => []
  | .launchPacket _ => []
  | .kernelTileLoad _ _ => []
  | .kernelTileKick _ _ => []
  | .kernelTriggerArrival _ _ => []
  | .kdoneAckArrival _ _ => []
  | .tailWrite _ _ _ => []
  | .queueNotice _ => []
  | .packetAdmit _ _ => []
  | .packetRun _ => []
  | .nopPacket _ => []
  | .copyPacket _ => []
  | .fillPacket _ => []
  | .signalSet _ => []
  | .signalAdd _ => []
  | .signalSub _ => []
  | .signalArm _ => []
  | .waitPacket _ => []
  | .waitRetest _ => []
  | .waitTimeout _ => []
  | .measurePacket _ => []
  | .receiptPacket _ => []
  | .mapPacket _ => []
  | .unmapPacket _ => []
  | .migratePacket _ => []
  | .checkpointPacket _ => []
  | .checkpointStreamDone _ => []
  | .cdtloadPacket _ => []
  | .packetComplete _ => []
  | .pumpHouseTileFailure _ _ _ _ => []
  | .contextFault _ => []
  | .functionLevelReset _ => []
  | .partitionGrant _ _ => []
  | .timeSliceExpiry _ => []
  | .saveTaskBoundary _ => []
  | .saveChannelDrained _ => []
  | .tileCaptureDone _ => []
  | .tileEviction _ => []
  | .restoreComplete _ => []
  | .cidDropComplete _ => []
  | .leafHashDone _ _ => []
  | .measurementAppend _ => []
  | .welimDataReceive _ _ => []
  | .welimAckReceive _ _ => []
  | .welimNakReceive _ _ => []
  | .welimReplayTimeout _ => []
  | .welimAckTimer _ => []
  | .laneSample _ _ => []
  | .swapRepeat _ => []
  | .swapackReceive _ _ => []
  | .swapCutover _ => []
  | .swapTimeout _ => []
  | .laneLoss _ _ => []
  | .retrainTimeout _ => []
  | .trainTimeout _ => []
  | .trainingSetReceive _ _ => []
  | .syncReceive _ _ => []
  | .syncLoss => []
  | .uePacketReceive _ => []
  | .ueDeferral _ _ => []
  | .bar2Access _ => []
  | .apertureMapWrite _ _ _ _ => []
  | .bootReset _ => []
  | .mailboxDoneAck _ => []
  | .version _ => []
  | .ctxCreate _ => []
  | .ctxGrant _ => []
  | .ctxDestroy _ => []
  | .ctxSave _ => []
  | .ctxRestore _ => []
  | .ctxSlice _ => []
  | .qCreate _ => []
  | .qReset _ => []
  | .qDestroy _ => []
  | .powerLimit _ => []
  | .portCtlDown _ => []
  | .portCtlEnable _ => []
  | .laneLog _ => []
  | .flashWrite _ => []
  | .attach _ => []
  | .detach _ => []
  | .stop _ => []
  | .resume _ => []
  | .step _ => []
  | .read _ => []
  | .write _ => []
  | .trace _ => []
  | .clearacct _ => []
  | .powerWindowControl _ => []
  | .thermalThrottle _ _ => []
  | .thermalShutdown _ _ => []
  | .clusterGate _ _ => []
  | .watchpointHit _ _ _ _ => []
  | .watchTrap _ => []
  | .stopTheClusterArrival _ => []
  | .traceDrain _ => []
  | .schedulerTrap _ => []
  | .cmdNotOffered _ => []
  | .ideKmRequest _ => []

/-- Whether an instruction stands in a program, that is, has words. -/
def Instr.isSyllable (i : Instr) : Bool := !(encode i).isEmpty

end Sys2Proof
end

