-- ==== Sys2Proof/Machine/Uses.lean ====
section
/-!
DEFINITION. Sys2Proof/Machine/Uses.lean: the registers that a syllable names (R20, R39), for the register rule and for
ILLEGAL_REG. Registers are numbered g 0–31, p 32–39, v 64–96 and above, q 128–159, accumulators 192–207, system
registers from 256.
-/

namespace Sys2Proof.Machine

/-- What a syllable names: registers read and written (g0, p0 and q0 among them), and a misaligned pair or group. -/
structure Uses where
  rd : List Nat := []
  wr : List Nat := []
  mis : Bool := false
deriving DecidableEq, Repr

/-- The 16 registers of a VLDT or VSTT group (R54). -/
def vGroup (d : Nat) : List Nat := (List.range 16).map (64 + d + ·)

/-- The registers a syllable names, its guard or lane mask among those read (R39); the implicit writes of MCFG and MCFG.L to MK, MSA, MSB and MSD are not
among them (log 89). A q field above 7 names no register (log 113). -/
def uses : Instr → Uses
  | .add x => { rd := [32 + x.g] ++ [x.a] ++ [x.b], wr := [x.d] }
  | .sub x => { rd := [32 + x.g] ++ [x.a] ++ [x.b], wr := [x.d] }
  | .and x => { rd := [32 + x.g] ++ [x.a] ++ [x.b], wr := [x.d] }
  | .or x => { rd := [32 + x.g] ++ [x.a] ++ [x.b], wr := [x.d] }
  | .xor x => { rd := [32 + x.g] ++ [x.a] ++ [x.b], wr := [x.d] }
  | .andn x => { rd := [32 + x.g] ++ [x.a] ++ [x.b], wr := [x.d] }
  | .orn x => { rd := [32 + x.g] ++ [x.a] ++ [x.b], wr := [x.d] }
  | .sll x => { rd := [32 + x.g] ++ [x.a] ++ [x.b], wr := [x.d] }
  | .srl x => { rd := [32 + x.g] ++ [x.a] ++ [x.b], wr := [x.d] }
  | .sra x => { rd := [32 + x.g] ++ [x.a] ++ [x.b], wr := [x.d] }
  | .ror x => { rd := [32 + x.g] ++ [x.a] ++ [x.b], wr := [x.d] }
  | .min x => { rd := [32 + x.g] ++ [x.a] ++ [x.b], wr := [x.d] }
  | .max x => { rd := [32 + x.g] ++ [x.a] ++ [x.b], wr := [x.d] }
  | .minn x => { rd := [32 + x.g] ++ [x.a] ++ [x.b], wr := [x.d] }
  | .maxn x => { rd := [32 + x.g] ++ [x.a] ++ [x.b], wr := [x.d] }
  | .ceq x => { rd := [32 + x.g] ++ [x.a] ++ [x.b], wr := [32 + x.d % 8] }
  | .cne x => { rd := [32 + x.g] ++ [x.a] ++ [x.b], wr := [32 + x.d % 8] }
  | .clt x => { rd := [32 + x.g] ++ [x.a] ++ [x.b], wr := [32 + x.d % 8] }
  | .cle x => { rd := [32 + x.g] ++ [x.a] ++ [x.b], wr := [32 + x.d % 8] }
  | .cltn x => { rd := [32 + x.g] ++ [x.a] ++ [x.b], wr := [32 + x.d % 8] }
  | .clen x => { rd := [32 + x.g] ++ [x.a] ++ [x.b], wr := [32 + x.d % 8] }
  | .pand x => { rd := [32 + x.g] ++ [32 + x.a % 8] ++ [32 + x.b % 8], wr := [32 + x.d % 8] }
  | .por x => { rd := [32 + x.g] ++ [32 + x.a % 8] ++ [32 + x.b % 8], wr := [32 + x.d % 8] }
  | .pxor x => { rd := [32 + x.g] ++ [32 + x.a % 8] ++ [32 + x.b % 8], wr := [32 + x.d % 8] }
  | .pandn x => { rd := [32 + x.g] ++ [32 + x.a % 8] ++ [32 + x.b % 8], wr := [32 + x.d % 8] }
  | .movp x => { rd := [32 + x.g] ++ [32 + x.a % 8], wr := [x.d] }
  | .pmovg x => { rd := [32 + x.g] ++ [x.a], wr := [32 + x.d % 8] }
  | .ext x => { rd := [32 + x.g] ++ [x.a] ++ [x.b], wr := [x.d] }
  | .exts x => { rd := [32 + x.g] ++ [x.a] ++ [x.b], wr := [x.d] }
  | .ins x => { rd := [32 + x.g] ++ [x.d] ++ [x.a] ++ [x.b], wr := [x.d] }
  | .addi x => { rd := [32 + x.g] ++ [x.a], wr := [x.d] }
  | .andi x => { rd := [32 + x.g] ++ [x.a], wr := [x.d] }
  | .ori x => { rd := [32 + x.g] ++ [x.a], wr := [x.d] }
  | .xori x => { rd := [32 + x.g] ++ [x.a], wr := [x.d] }
  | .slli x => { rd := [32 + x.g] ++ [x.a], wr := [x.d] }
  | .srli x => { rd := [32 + x.g] ++ [x.a], wr := [x.d] }
  | .srai x => { rd := [32 + x.g] ++ [x.a], wr := [x.d] }
  | .ceqi x => { rd := [32 + x.g] ++ [x.a], wr := [32 + x.d % 8] }
  | .cnei x => { rd := [32 + x.g] ++ [x.a], wr := [32 + x.d % 8] }
  | .clti x => { rd := [32 + x.g] ++ [x.a], wr := [32 + x.d % 8] }
  | .clei x => { rd := [32 + x.g] ++ [x.a], wr := [32 + x.d % 8] }
  | .cltni x => { rd := [32 + x.g] ++ [x.a], wr := [32 + x.d % 8] }
  | .cleni x => { rd := [32 + x.g] ++ [x.a], wr := [32 + x.d % 8] }
  | .addwi x => { rd := [32 + x.g] ++ [x.a], wr := [x.d] }
  | .movi x => { rd := [32 + x.g], wr := [x.d] }
  | .addiL x => { rd := [32 + x.g] ++ [x.a], wr := [x.d] }
  | .andiL x => { rd := [32 + x.g] ++ [x.a], wr := [x.d] }
  | .oriL x => { rd := [32 + x.g] ++ [x.a], wr := [x.d] }
  | .xoriL x => { rd := [32 + x.g] ++ [x.a], wr := [x.d] }
  | .slliL x => { rd := [32 + x.g] ++ [x.a], wr := [x.d] }
  | .srliL x => { rd := [32 + x.g] ++ [x.a], wr := [x.d] }
  | .sraiL x => { rd := [32 + x.g] ++ [x.a], wr := [x.d] }
  | .ceqiL x => { rd := [32 + x.g] ++ [x.a], wr := [32 + x.d % 8] }
  | .cneiL x => { rd := [32 + x.g] ++ [x.a], wr := [32 + x.d % 8] }
  | .cltiL x => { rd := [32 + x.g] ++ [x.a], wr := [32 + x.d % 8] }
  | .cleiL x => { rd := [32 + x.g] ++ [x.a], wr := [32 + x.d % 8] }
  | .cltniL x => { rd := [32 + x.g] ++ [x.a], wr := [32 + x.d % 8] }
  | .cleniL x => { rd := [32 + x.g] ++ [x.a], wr := [32 + x.d % 8] }
  | .addwiL x => { rd := [32 + x.g] ++ [x.a], wr := [x.d] }
  | .moviL x => { rd := [32 + x.g], wr := [x.d] }
  | .movhiL x => { rd := [32 + x.g] ++ [x.d], wr := [x.d] }
  | .mul x => { rd := [32 + x.g] ++ [x.a] ++ [x.b], wr := [x.d] }
  | .mulh x => { rd := [32 + x.g] ++ [x.a] ++ [x.b], wr := [x.d] }
  | .mulhn x => { rd := [32 + x.g] ++ [x.a] ++ [x.b], wr := [x.d] }
  | .div x => { rd := [32 + x.g] ++ [x.a] ++ [x.b], wr := [x.d] }
  | .divn x => { rd := [32 + x.g] ++ [x.a] ++ [x.b], wr := [x.d] }
  | .rem x => { rd := [32 + x.g] ++ [x.a] ++ [x.b], wr := [x.d] }
  | .remn x => { rd := [32 + x.g] ++ [x.a] ++ [x.b], wr := [x.d] }
  | .madd x => { rd := [32 + x.g] ++ [x.d] ++ [x.a] ++ [x.b], wr := [x.d] }
  | .msub x => { rd := [32 + x.g] ++ [x.d] ++ [x.a] ++ [x.b], wr := [x.d] }
  | .clz x => { rd := [32 + x.g] ++ [x.a], wr := [x.d] }
  | .ctz x => { rd := [32 + x.g] ++ [x.a], wr := [x.d] }
  | .popc x => { rd := [32 + x.g] ++ [x.a], wr := [x.d] }
  | .brev x => { rd := [32 + x.g] ++ [x.a], wr := [x.d] }
  | .bswap x => { rd := [32 + x.g] ++ [x.a], wr := [x.d] }
  | .br x => { rd := [32 + x.g], wr := [] }
  | .call x => { rd := [32 + x.g], wr := [1] }
  | .bz x => { rd := [32 + x.g] ++ [x.a], wr := [] }
  | .bnz x => { rd := [32 + x.g] ++ [x.a], wr := [] }
  | .loop x => { rd := [32 + x.g] ++ [x.a], wr := [] }
  | .brr x => { rd := [32 + x.g] ++ [x.a], wr := [] }
  | .callr x => { rd := [32 + x.g] ++ [x.a], wr := [1] }
  | .ret x => { rd := [32 + x.g] ++ [1], wr := [] }
  | .ldb x => { rd := [32 + x.g] ++ [x.a], wr := [x.d] }
  | .ldbn x => { rd := [32 + x.g] ++ [x.a], wr := [x.d] }
  | .ldh x => { rd := [32 + x.g] ++ [x.a], wr := [x.d] }
  | .ldhn x => { rd := [32 + x.g] ++ [x.a], wr := [x.d] }
  | .ldw x => { rd := [32 + x.g] ++ [x.a], wr := [x.d] }
  | .ldwn x => { rd := [32 + x.g] ++ [x.a], wr := [x.d] }
  | .ldd x => { rd := [32 + x.g] ++ [x.a], wr := [x.d] }
  | .stb x => { rd := [32 + x.g] ++ [x.d] ++ [x.a], wr := [] }
  | .sth x => { rd := [32 + x.g] ++ [x.d] ++ [x.a], wr := [] }
  | .stw x => { rd := [32 + x.g] ++ [x.d] ++ [x.a], wr := [] }
  | .std x => { rd := [32 + x.g] ++ [x.d] ++ [x.a], wr := [] }
  | .ldf x => { rd := [32 + x.g] ++ [x.a], wr := [x.d] }
  | .ldfc x => { rd := [32 + x.g] ++ [x.a], wr := [x.d] }
  | .stf x => { rd := [32 + x.g] ++ [x.d] ++ [x.a], wr := [] }
  | .fclr x => { rd := [32 + x.g] ++ [x.a], wr := [] }
  | .fset x => { rd := [32 + x.g] ++ [x.a], wr := [] }
  | .ldbL x => { rd := [32 + x.g] ++ [x.a], wr := [x.d] }
  | .ldbnL x => { rd := [32 + x.g] ++ [x.a], wr := [x.d] }
  | .ldhL x => { rd := [32 + x.g] ++ [x.a], wr := [x.d] }
  | .ldhnL x => { rd := [32 + x.g] ++ [x.a], wr := [x.d] }
  | .ldwL x => { rd := [32 + x.g] ++ [x.a], wr := [x.d] }
  | .ldwnL x => { rd := [32 + x.g] ++ [x.a], wr := [x.d] }
  | .lddL x => { rd := [32 + x.g] ++ [x.a], wr := [x.d] }
  | .stbL x => { rd := [32 + x.g] ++ [x.d] ++ [x.a], wr := [] }
  | .sthL x => { rd := [32 + x.g] ++ [x.d] ++ [x.a], wr := [] }
  | .stwL x => { rd := [32 + x.g] ++ [x.d] ++ [x.a], wr := [] }
  | .stdL x => { rd := [32 + x.g] ++ [x.d] ++ [x.a], wr := [] }
  | .ldfL x => { rd := [32 + x.g] ++ [x.a], wr := [x.d] }
  | .ldfcL x => { rd := [32 + x.g] ++ [x.a], wr := [x.d] }
  | .stfL x => { rd := [32 + x.g] ++ [x.d] ++ [x.a], wr := [] }
  | .fclrL x => { rd := [32 + x.g] ++ [x.a], wr := [] }
  | .fsetL x => { rd := [32 + x.g] ++ [x.a], wr := [] }
  | .fullWaitWake _ => {}
  | .vld x => { rd := [128 + x.q] ++ [x.a] ++ [x.b], wr := [64 + x.d] }
  | .vst x => { rd := [128 + x.q] ++ [64 + x.d] ++ [x.a] ++ [x.b], wr := [] }
  | .vldb x => { rd := [128 + x.q] ++ [x.a] ++ [x.b], wr := [64 + x.d] }
  | .vlds x => { rd := [128 + x.q] ++ [x.a] ++ [x.b], wr := [64 + x.d] }
  | .vsts x => { rd := [128 + x.q] ++ [64 + x.d] ++ [x.a] ++ [x.b], wr := [] }
  | .vldx x => { rd := [128 + x.q] ++ [x.a] ++ [64 + x.b], wr := [64 + x.d] }
  | .vstx x => { rd := [128 + x.q] ++ [64 + x.d] ++ [x.a] ++ [64 + x.b], wr := [] }
  | .vldt x => { rd := [128 + x.q] ++ [x.a] ++ [x.b], wr := (vGroup x.d), mis := x.d % 16 != 0 }
  | .vstt x => { rd := [128 + x.q] ++ (vGroup x.d) ++ [x.a] ++ [x.b], wr := [], mis := x.d % 16 != 0 }
  | .vldf x => { rd := [128 + x.q] ++ [x.a] ++ [x.b], wr := [64 + x.d] }
  | .vspl x => { rd := [128 + x.q] ++ [64 + x.d] ++ [x.a], wr := [] }
  | .vfil x => { rd := [128 + x.q] ++ [x.a], wr := [64 + x.d] }
  | .vadd x => { rd := [128 + x.q] ++ [64 + x.a] ++ [64 + x.b], wr := [64 + x.d] }
  | .vsub x => { rd := [128 + x.q] ++ [64 + x.a] ++ [64 + x.b], wr := [64 + x.d] }
  | .vmul x => { rd := [128 + x.q] ++ [64 + x.a] ++ [64 + x.b], wr := [64 + x.d] }
  | .vfma x => { rd := [128 + x.q] ++ [64 + x.d] ++ [64 + x.a] ++ [64 + x.b], wr := [64 + x.d] }
  | .vfms x => { rd := [128 + x.q] ++ [64 + x.d] ++ [64 + x.a] ++ [64 + x.b], wr := [64 + x.d] }
  | .vmin x => { rd := [128 + x.q] ++ [64 + x.a] ++ [64 + x.b], wr := [64 + x.d] }
  | .vmax x => { rd := [128 + x.q] ++ [64 + x.a] ++ [64 + x.b], wr := [64 + x.d] }
  | .vabs x => { rd := [128 + x.q] ++ [64 + x.a], wr := [64 + x.d] }
  | .vneg x => { rd := [128 + x.q] ++ [64 + x.a], wr := [64 + x.d] }
  | .vand x => { rd := [128 + x.q] ++ [64 + x.a] ++ [64 + x.b], wr := [64 + x.d] }
  | .vor x => { rd := [128 + x.q] ++ [64 + x.a] ++ [64 + x.b], wr := [64 + x.d] }
  | .vxor x => { rd := [128 + x.q] ++ [64 + x.a] ++ [64 + x.b], wr := [64 + x.d] }
  | .vandn x => { rd := [128 + x.q] ++ [64 + x.a] ++ [64 + x.b], wr := [64 + x.d] }
  | .vsll x => { rd := [128 + x.q] ++ [64 + x.a] ++ [64 + x.b], wr := [64 + x.d] }
  | .vsrl x => { rd := [128 + x.q] ++ [64 + x.a] ++ [64 + x.b], wr := [64 + x.d] }
  | .vsra x => { rd := [128 + x.q] ++ [64 + x.a] ++ [64 + x.b], wr := [64 + x.d] }
  | .vadds x => { rd := [128 + x.q] ++ [64 + x.a] ++ [64 + x.b], wr := [64 + x.d] }
  | .vsubs x => { rd := [128 + x.q] ++ [64 + x.a] ++ [64 + x.b], wr := [64 + x.d] }
  | .vmulh x => { rd := [128 + x.q] ++ [64 + x.a] ++ [64 + x.b], wr := [64 + x.d] }
  | .vdot4 x => { rd := [128 + x.q] ++ [64 + x.d] ++ [64 + x.a] ++ [64 + x.b], wr := [64 + x.d] }
  | .vdot2 x => { rd := [128 + x.q] ++ [64 + x.d] ++ [64 + x.a] ++ [64 + x.b], wr := [64 + x.d] }
  | .vmulw x => { rd := [128 + x.q] ++ [64 + x.a] ++ [64 + x.b], wr := [64 + x.d] ++ [65 + x.d], mis := x.d % 2 != 0 }
  | .vcopy x => { rd := [128 + x.q] ++ [64 + x.a], wr := [64 + x.d] }
  | .vcvt x => { rd := [128 + x.q] ++ [64 + x.a], wr := [64 + x.d] }
  | .vdiv x => { rd := [128 + x.q] ++ [64 + x.a] ++ [64 + x.b], wr := [64 + x.d] }
  | .vsqrt x => { rd := [128 + x.q] ++ [64 + x.a], wr := [64 + x.d] }
  | .vrcp x => { rd := [128 + x.q] ++ [64 + x.a], wr := [64 + x.d] }
  | .vrsq x => { rd := [128 + x.q] ++ [64 + x.a], wr := [64 + x.d] }
  | .vexp2 x => { rd := [128 + x.q] ++ [64 + x.a], wr := [64 + x.d] }
  | .vlog2 x => { rd := [128 + x.q] ++ [64 + x.a], wr := [64 + x.d] }
  | .vround x => { rd := [128 + x.q] ++ [64 + x.a], wr := [64 + x.d] }
  | .vrsum x => { rd := [128 + x.q] ++ [64 + x.a], wr := [64 + x.d] }
  | .vrmax x => { rd := [128 + x.q] ++ [64 + x.a], wr := [64 + x.d] }
  | .vrmin x => { rd := [128 + x.q] ++ [64 + x.a], wr := [64 + x.d] }
  | .vscale x => { rd := [128 + x.q] ++ [64 + x.a] ++ [64 + x.b], wr := [64 + x.d] }
  | .vclass x => { rd := [128 + x.q] ++ [64 + x.a], wr := [64 + x.d] }
  | .venc8 x => { rd := [128 + x.q] ++ [64 + x.d] ++ [64 + x.a], wr := [64 + x.d] }
  | .vdec8 x => { rd := [128 + x.q] ++ [64 + x.a], wr := [64 + x.d] }
  | .venc4 x => { rd := [128 + x.q] ++ [64 + x.d] ++ [64 + x.a], wr := [64 + x.d] }
  | .vdec4 x => { rd := [128 + x.q] ++ [64 + x.a], wr := [64 + x.d] }
  | .vbscl x => { rd := [128 + x.q] ++ [64 + x.a], wr := [64 + x.d] }
  | .vceq x => { rd := [128 + x.q] ++ [64 + x.a] ++ [64 + x.b], wr := [128 + x.d] }
  | .vcne x => { rd := [128 + x.q] ++ [64 + x.a] ++ [64 + x.b], wr := [128 + x.d] }
  | .vclt x => { rd := [128 + x.q] ++ [64 + x.a] ++ [64 + x.b], wr := [128 + x.d] }
  | .vcle x => { rd := [128 + x.q] ++ [64 + x.a] ++ [64 + x.b], wr := [128 + x.d] }
  | .vcltn x => { rd := [128 + x.q] ++ [64 + x.a] ++ [64 + x.b], wr := [128 + x.d] }
  | .vclen x => { rd := [128 + x.q] ++ [64 + x.a] ++ [64 + x.b], wr := [128 + x.d] }
  | .qand x => { rd := [128 + x.q] ++ [128 + x.a] ++ [128 + x.b], wr := [128 + x.d] }
  | .qor x => { rd := [128 + x.q] ++ [128 + x.a] ++ [128 + x.b], wr := [128 + x.d] }
  | .qxor x => { rd := [128 + x.q] ++ [128 + x.a] ++ [128 + x.b], wr := [128 + x.d] }
  | .qandn x => { rd := [128 + x.q] ++ [128 + x.a] ++ [128 + x.b], wr := [128 + x.d] }
  | .qmovg x => { rd := [128 + x.q] ++ [x.a], wr := [128 + x.d] }
  | .gmovq x => { rd := [128 + x.q] ++ [128 + x.a], wr := [x.d] }
  | .vsplat x => { rd := [128 + x.q] ++ [x.a], wr := [64 + x.d] }
  | .vins x => { rd := [128 + x.q] ++ [64 + x.d] ++ [x.a] ++ [x.b], wr := [64 + x.d] }
  | .vext x => { rd := [128 + x.q] ++ [64 + x.a] ++ [x.b], wr := [x.d] }
  | .vperm x => { rd := [128 + x.q] ++ [64 + x.a] ++ [64 + x.b], wr := [64 + x.d] }
  | .vcompr x => { rd := [128 + x.q] ++ [64 + x.a], wr := [64 + x.d] }
  | .vsel x => { rd := [128 + x.q] ++ [64 + x.a] ++ [64 + x.b], wr := [64 + x.d] }
  | .viota x => { rd := [128 + x.q] ++ [x.a], wr := [64 + x.d] }
  | .qpopc x => { rd := [128 + x.q] ++ [128 + x.a], wr := [x.d] }
  | .mcfg x => { rd := [32 + x.g] ++ [x.a] ++ [x.b], wr := [] }
  | .mcfgL x => { rd := [32 + x.g] ++ [x.a] ++ [x.b], wr := [] }
  | .mma x => { rd := [32 + x.g] ++ [192 + x.c] ++ [x.a] ++ [x.b], wr := [192 + x.c] }
  | .mmat x => { rd := [32 + x.g] ++ [192 + x.c] ++ [x.a] ++ [x.b], wr := [192 + x.c] }
  | .mms x => { rd := [32 + x.g] ++ [192 + x.c] ++ [x.a] ++ [x.b], wr := [192 + x.c] }
  | .mmst x => { rd := [32 + x.g] ++ [192 + x.c] ++ [x.a] ++ [x.b], wr := [192 + x.c] }
  | .mmaz x => { rd := [32 + x.g] ++ [x.a] ++ [x.b], wr := [192 + x.c] }
  | .mmazt x => { rd := [32 + x.g] ++ [x.a] ++ [x.b], wr := [192 + x.c] }
  | .mmsz x => { rd := [32 + x.g] ++ [x.a] ++ [x.b], wr := [192 + x.c] }
  | .mmszt x => { rd := [32 + x.g] ++ [x.a] ++ [x.b], wr := [192 + x.c] }
  | .mzero x => { rd := [32 + x.g], wr := [192 + x.c] }
  | .mldac x => { rd := [32 + x.g] ++ [x.a], wr := [192 + x.c] }
  | .mldacf x => { rd := [32 + x.g] ++ [x.a], wr := [192 + x.c] }
  | .mstac x => { rd := [32 + x.g] ++ [192 + x.c] ++ [x.a], wr := [] }
  | .mstacf x => { rd := [32 + x.g] ++ [192 + x.c] ++ [x.a], wr := [] }
  | .mdrn x => { rd := [32 + x.g] ++ [192 + x.c] ++ [x.a] ++ [x.b], wr := [] }
  | .mhad x => { rd := [32 + x.g] ++ [192 + x.c] ++ [x.a], wr := [192 + x.c] }
  | .msclc x => { rd := [32 + x.g] ++ [192 + x.c] ++ [x.a], wr := [192 + x.c] }
  | .maddr x => { rd := [32 + x.g] ++ [192 + x.c] ++ [x.a], wr := [192 + x.c] }
  | .mrdf x => { rd := [32 + x.g] ++ [192 + x.c], wr := [x.a] }
  | .mclrf x => { rd := [32 + x.g], wr := [192 + x.c] }
  | .mwait x => { rd := [32 + x.g], wr := [] }
  | .mwaitAc x => { rd := [32 + x.g] ++ [192 + x.c], wr := [] }
  | .mjob x => { rd := [32 + x.g] ++ [x.b], wr := [x.a] }
  | .mtstj x => { rd := [32 + x.g] ++ [x.b], wr := [x.a] }
  | .send x => { rd := [32 + x.g] ++ [x.a] ++ [x.b], wr := [32 + x.d % 8] }
  | .sende x => { rd := [32 + x.g] ++ [x.a] ++ [x.b], wr := [32 + x.d % 8] }
  | .recv x => { rd := [32 + x.g] ++ [x.a] ++ [x.b], wr := [x.d] }
  | .probe x => { rd := [32 + x.g] ++ [x.b], wr := [x.d] ++ [x.a] }
  | .rcancel x => { rd := [32 + x.g] ++ [x.a], wr := [x.d] }
  | .rtest x => { rd := [32 + x.g] ++ [x.a], wr := [x.d] }
  | .rwait x => { rd := [32 + x.g] ++ [x.a], wr := [x.d] }
  | .xchg x => { rd := [32 + x.g] ++ [x.d] ++ [x.a] ++ [x.b], wr := [x.d] }
  | .squery x => { rd := [32 + x.g], wr := [x.d] }
  | .sendv x => { rd := [32 + x.g] ++ [64 + x.a] ++ [x.b], wr := [32 + x.d % 8] }
  | .csend x => { rd := [32 + x.g] ++ [x.a] ++ [x.b], wr := [32 + x.d % 8] }
  | .recvm x => { rd := [32 + x.g] ++ [x.a] ++ [x.b], wr := [x.d] }
  | .probem x => { rd := [32 + x.g] ++ [x.b], wr := [x.d] ++ [x.a] }
  | .recvmFe x => { rd := [32 + x.g] ++ [x.a] ++ [x.b], wr := [x.d] }
  | .tbind x => { rd := [32 + x.g] ++ [x.a] ++ [x.b], wr := [x.d] }
  | .tarm x => { rd := [32 + x.g] ++ [x.a] ++ [x.b], wr := [x.d] }
  | .tkick x => { rd := [32 + x.g] ++ [x.a], wr := [] }
  | .tspawn x => { rd := [32 + x.g] ++ [x.a], wr := [x.d] }
  | .tend x => { rd := [32 + x.g], wr := [] }
  | .tcommit x => { rd := [32 + x.g], wr := [] }
  | .tyield x => { rd := [32 + x.g] ++ [x.a], wr := [] }
  | .tunbind x => { rd := [32 + x.g] ++ [x.a], wr := [x.d] }
  | .tstat x => { rd := [32 + x.g] ++ [x.a], wr := [x.d] }
  | .grank x => { rd := [32 + x.g] ++ [x.a], wr := [x.d] }
  | .gsize x => { rd := [32 + x.g] ++ [x.a], wr := [x.d] }
  | .gplace x => { rd := [32 + x.g] ++ [x.a] ++ [x.b], wr := [x.d] }
  | .barr x => { rd := [32 + x.g] ++ [x.a], wr := [x.d] }
  | .bbind x => { rd := [32 + x.g] ++ [x.a] ++ [x.b], wr := [x.d] }
  | .bwait x => { rd := [32 + x.g] ++ [x.a] ++ [x.b], wr := [x.d] }
  | .bcancel x => { rd := [32 + x.g] ++ [x.a], wr := [x.d] }
  | .cred x => { rd := [32 + x.g] ++ [x.a], wr := [x.d] }
  | .cared x => { rd := [32 + x.g] ++ [x.a], wr := [x.d] }
  | .cbcast x => { rd := [32 + x.g] ++ [x.a], wr := [x.d] }
  | .cstart x => { rd := [32 + x.g] ++ [x.a], wr := [x.d] }
  | .cabort x => { rd := [32 + x.g] ++ [x.a], wr := [x.d] }
  | .ktrig x => { rd := [32 + x.g], wr := [] }
  | .kdone x => { rd := [32 + x.g], wr := [] }
  | .get x => { rd := [32 + x.g] ++ [x.a] ++ [x.b], wr := [32 + x.d % 8] }
  | .put x => { rd := [32 + x.g] ++ [x.a] ++ [x.b], wr := [32 + x.d % 8] }
  | .getd x => { rd := [32 + x.g] ++ [x.a] ++ [x.b], wr := [32 + x.d % 8] }
  | .putd x => { rd := [32 + x.g] ++ [x.a] ++ [x.b], wr := [32 + x.d % 8] }
  | .bmv x => { rd := [32 + x.g] ++ [x.a], wr := [32 + x.d % 8] }
  | .bmvt x => { rd := [32 + x.g] ++ [x.a], wr := [32 + x.d % 8] }
  | .bfence x => { rd := [32 + x.g] ++ [x.a] ++ [x.b], wr := [32 + x.d % 8] }
  | .fence x => { rd := [32 + x.g], wr := [] }
  | .pqry x => { rd := [32 + x.g] ++ [x.a], wr := [x.d] }
  | .geti x => { rd := [32 + x.g] ++ [x.a] ++ [x.b], wr := [32 + x.d % 8] }
  | .maadd x => { rd := [32 + x.g] ++ [x.d] ++ [x.a] ++ [x.b], wr := [x.d] }
  | .maand x => { rd := [32 + x.g] ++ [x.d] ++ [x.a] ++ [x.b], wr := [x.d] }
  | .maor x => { rd := [32 + x.g] ++ [x.d] ++ [x.a] ++ [x.b], wr := [x.d] }
  | .maxor x => { rd := [32 + x.g] ++ [x.d] ++ [x.a] ++ [x.b], wr := [x.d] }
  | .mamin x => { rd := [32 + x.g] ++ [x.d] ++ [x.a] ++ [x.b], wr := [x.d] }
  | .mamax x => { rd := [32 + x.g] ++ [x.d] ++ [x.a] ++ [x.b], wr := [x.d] }
  | .maswap x => { rd := [32 + x.g] ++ [x.d] ++ [x.a] ++ [x.b], wr := [x.d] }
  | .macas x => { rd := [32 + x.g] ++ [x.d] ++ [x.a] ++ [x.b], wr := [x.d] }
  | .mafadd x => { rd := [32 + x.g] ++ [x.d] ++ [x.a] ++ [x.b], wr := [x.d] }
  | .msadd x => { rd := [32 + x.g] ++ [x.a] ++ [x.b], wr := [32 + x.d % 8] }
  | .msmax x => { rd := [32 + x.g] ++ [x.a] ++ [x.b], wr := [32 + x.d % 8] }
  | .mfs x => { rd := [32 + x.g] ++ [256 + x.a * 32 + x.b], wr := [x.d] }
  | .mts x => { rd := [32 + x.g] ++ [x.d], wr := [256 + x.a * 32 + x.b] }
  | .trap x => { rd := [32 + x.g], wr := [] }
  | .wdset x => { rd := [32 + x.g] ++ [x.a] ++ [x.b], wr := [x.d] }
  | .tload x => { rd := [32 + x.g] ++ [x.a] ++ [x.b], wr := [x.d] }
  | .sleep x => { rd := [32 + x.g] ++ [x.a] ++ [x.b], wr := [x.d] }
  | .bkpt x => { rd := [32 + x.g], wr := [] }
  | .yoke x => { rd := [32 + x.g] ++ [x.a] ++ [x.b], wr := [x.d] }
  | .unyoke x => { rd := [32 + x.g], wr := [x.d] }
  | .aallot x => { rd := [32 + x.g] ++ [x.a], wr := [x.d] }
  | .vallot x => { rd := [32 + x.g] ++ [x.a], wr := [x.d] }
  | .blkh x => { rd := [32 + x.g], wr := [] }
  | .blkv x => { rd := [32 + x.g], wr := [] }
  | .laadd x => { rd := [32 + x.g] ++ [x.a] ++ [x.b], wr := [x.d] }
  | .laand x => { rd := [32 + x.g] ++ [x.a] ++ [x.b], wr := [x.d] }
  | .laor x => { rd := [32 + x.g] ++ [x.a] ++ [x.b], wr := [x.d] }
  | .laxor x => { rd := [32 + x.g] ++ [x.a] ++ [x.b], wr := [x.d] }
  | .lamin x => { rd := [32 + x.g] ++ [x.a] ++ [x.b], wr := [x.d] }
  | .lamax x => { rd := [32 + x.g] ++ [x.a] ++ [x.b], wr := [x.d] }
  | .laminn x => { rd := [32 + x.g] ++ [x.a] ++ [x.b], wr := [x.d] }
  | .lamaxn x => { rd := [32 + x.g] ++ [x.a] ++ [x.b], wr := [x.d] }
  | .laswap x => { rd := [32 + x.g] ++ [x.a] ++ [x.b], wr := [x.d] }
  | .lacas x => { rd := [32 + x.g] ++ [x.d] ++ [x.a] ++ [x.b], wr := [x.d] }
  | .vflagsClear _ => {}
  | .caps0Write _ => {}
  | .wpcHitClear _ _ => {}
  | .tileUngate _ => {}
  | .tileResetComplete _ => {}
  | .taskDispatch _ => {}
  | .budgetExpiry _ => {}
  | .pagerRestart _ _ _ => {}
  | .pagerKill _ _ _ => {}
  | .imemEccError _ => {}
  | .imemRepair _ => {}
  | .eccLocal _ => {}
  | .tileUnrecoverableFault _ => {}
  | .gateRequest _ => {}
  | .forcedGate _ => {}
  | .sleepWake _ => {}
  | .allotStallEnd _ => {}
  | .tloadWaitEnd _ => {}
  | .matrixQueueStallEnd _ => {}
  | .mmaComplete _ => {}
  | .mzeroComplete _ => {}
  | .mldacComplete _ => {}
  | .mstacComplete _ => {}
  | .mdrnComplete _ => {}
  | .mhadComplete _ => {}
  | .msclcComplete _ => {}
  | .maddrComplete _ => {}
  | .mclrfComplete _ => {}
  | .jobComplete _ => {}
  | .mwaitRelease _ => {}
  | .mrdfRelease _ => {}
  | .eagerArrival _ => {}
  | .rtsArrival _ => {}
  | .troughCopyDone _ _ => {}
  | .ctsArrival _ => {}
  | .dataArrival _ => {}
  | .eackArrival _ => {}
  | .rackArrival _ => {}
  | .dackArrival _ => {}
  | .poolFullArrival _ => {}
  | .resumeRetry _ _ => {}
  | .sendEmit _ _ => {}
  | .rankCacheFill _ _ _ => {}
  | .rwaitWake _ => {}
  | .packetPark _ => {}
  | .overflowStoreGrow _ => {}
  | .switchPortPass _ => {}
  | .groupEntryDrained _ _ => {}
  | .gplaceResolved _ => {}
  | .barrierArriveAtSwitch _ => {}
  | .barrierReleaseDelivery _ => {}
  | .barrierCancelAtLca _ => {}
  | .bwaitRelease _ => {}
  | .stationRequest _ => {}
  | .translationWalkDone _ => {}
  | .pagerFaultResolution _ _ => {}
  | .packetPerform _ => {}
  | .memoryReply _ => {}
  | .memFaultTrap _ => {}
  | .atomicReply _ => {}
  | .fenceComplete _ => {}
  | .pqryReply _ => {}
  | .getiWordWrite _ => {}
  | .hbmUncorrectable _ => {}
  | .poisonClear _ _ => {}
  | .mappingInvalidate _ _ => {}
  | .mappingChangeComplete _ _ => {}
  | .migrateFreezeDone _ _ => {}
  | .migrateDrainDone _ _ => {}
  | .migrateCopyDone _ _ => {}
  | .migrateSwitchDone _ _ => {}
  | .bfencePacket _ => {}
  | .bfenceAnswer _ => {}
  | .bmvPartial _ => {}
  | .bmvCombine _ _ => {}
  | .cdtCacheFill _ _ _ => {}
  | .memberJoin _ => {}
  | .yokeFormationEnd _ => {}
  | .yokeJoinTimeout _ => {}
  | .blockStart _ => {}
  | .operandArrival _ _ _ => {}
  | .blockResolve _ _ => {}
  | .blockCommit _ => {}
  | .yokeMemberFault _ _ => {}
  | .yokeDrain _ => {}
  | .combineUpChunk _ => {}
  | .combineDownChunk _ => {}
  | .collectiveAbortAtLca _ => {}
  | .collectiveAbortArrival _ => {}
  | .collectedAtLca _ => {}
  | .collectiveIdRelease _ => {}
  | .scheduleEntryStart _ => {}
  | .scheduleChunkArrival _ => {}
  | .scheduleEntryComplete _ _ => {}
  | .launchPacket _ => {}
  | .kernelTileLoad _ _ => {}
  | .kernelTileKick _ _ => {}
  | .kernelTriggerArrival _ _ => {}
  | .kdoneAckArrival _ _ => {}
  | .tailWrite _ _ _ => {}
  | .queueNotice _ => {}
  | .packetAdmit _ _ => {}
  | .packetRun _ => {}
  | .nopPacket _ => {}
  | .copyPacket _ => {}
  | .fillPacket _ => {}
  | .signalSet _ => {}
  | .signalAdd _ => {}
  | .signalSub _ => {}
  | .signalArm _ => {}
  | .waitPacket _ => {}
  | .waitRetest _ => {}
  | .waitTimeout _ => {}
  | .measurePacket _ => {}
  | .receiptPacket _ => {}
  | .mapPacket _ => {}
  | .unmapPacket _ => {}
  | .migratePacket _ => {}
  | .checkpointPacket _ => {}
  | .checkpointStreamDone _ => {}
  | .cdtloadPacket _ => {}
  | .packetComplete _ => {}
  | .pumpHouseTileFailure _ _ _ _ => {}
  | .contextFault _ => {}
  | .functionLevelReset _ => {}
  | .partitionGrant _ _ => {}
  | .timeSliceExpiry _ => {}
  | .saveTaskBoundary _ => {}
  | .saveChannelDrained _ => {}
  | .tileCaptureDone _ => {}
  | .tileEviction _ => {}
  | .restoreComplete _ => {}
  | .cidDropComplete _ => {}
  | .leafHashDone _ _ => {}
  | .measurementAppend _ => {}
  | .welimDataReceive _ _ => {}
  | .welimAckReceive _ _ => {}
  | .welimNakReceive _ _ => {}
  | .welimReplayTimeout _ => {}
  | .welimAckTimer _ => {}
  | .laneSample _ _ => {}
  | .swapRepeat _ => {}
  | .swapackReceive _ _ => {}
  | .swapCutover _ => {}
  | .swapTimeout _ => {}
  | .laneLoss _ _ => {}
  | .retrainTimeout _ => {}
  | .trainTimeout _ => {}
  | .trainingSetReceive _ _ => {}
  | .syncReceive _ _ => {}
  | .syncLoss => {}
  | .uePacketReceive _ => {}
  | .ueDeferral _ _ => {}
  | .bar2Access _ => {}
  | .apertureMapWrite _ _ _ _ => {}
  | .bootReset _ => {}
  | .mailboxDoneAck _ => {}
  | .version _ => {}
  | .ctxCreate _ => {}
  | .ctxGrant _ => {}
  | .ctxDestroy _ => {}
  | .ctxSave _ => {}
  | .ctxRestore _ => {}
  | .ctxSlice _ => {}
  | .qCreate _ => {}
  | .qReset _ => {}
  | .qDestroy _ => {}
  | .powerLimit _ => {}
  | .portCtlDown _ => {}
  | .portCtlEnable _ => {}
  | .laneLog _ => {}
  | .flashWrite _ => {}
  | .attach _ => {}
  | .detach _ => {}
  | .stop _ => {}
  | .resume _ => {}
  | .step _ => {}
  | .read _ => {}
  | .write _ => {}
  | .trace _ => {}
  | .clearacct _ => {}
  | .powerWindowControl _ => {}
  | .thermalThrottle _ _ => {}
  | .thermalShutdown _ _ => {}
  | .clusterGate _ _ => {}
  | .watchpointHit _ _ _ _ => {}
  | .watchTrap _ => {}
  | .stopTheClusterArrival _ => {}
  | .traceDrain _ => {}
  | .schedulerTrap _ => {}
  | .cmdNotOffered _ => {}
  | .ideKmRequest _ => {}

end Sys2Proof.Machine
end

