-- ==== Sys2Proof/Machine/Bundle.lean ====
section
/-!
DEFINITION. Sys2Proof/Machine/Bundle.lean: a bundle from its fetch to its end (R36 to R43, R65, R66, R88, R433). The
meaning of a syllable comes in as a parameter; Step.lean supplies exec.
-/

namespace Sys2Proof.Machine

/-- Issue slots (R37). -/
inductive SlotCl
  | a | b | l | v | x | n | none
deriving DecidableEq, Repr

/-- The slot a first word takes, assigned or not (R37, R64). -/
def slotOf (w : Nat) : SlotCl :=
  match bits w 30 27 with
  | 0 => .a
  | 1 => .a
  | 2 => .a
  | 3 => .b
  | 4 => .l
  | 5 => .l
  | 6 => .v
  | 7 => .v
  | 8 => .v
  | 9 => .x
  | 10 => .n
  | 11 => .n
  | 12 => .n
  | 13 => .b
  | 14 => .l
  | _ =>
    match bits w 22 19 with
    | 1 => .a
    | 4 => .l
    | 9 => .x
    | 10 => .n
    | _ => .none

/-- Syllables a bundle may hold in a slot (R37). -/
def slotLimit : SlotCl → Nat
  | .a => 2
  | .b => 1
  | .l => 2
  | .v => 2
  | .x => 1
  | .n => 1
  | .none => 16

/-- BLKH and BLKV by their words (R40). -/
def isBlkh (w : Nat) : Bool := bits w 30 27 == 15 && bits w 22 15 == 0xD0
def isBlkv (w : Nat) : Bool := bits w 30 27 == 15 && bits w 22 15 == 0xD1

/-- The position of the first syllable with a word past 0x7FFF (R37, R65 reason 5). -/
def firstPast : Nat → Nat → List (Nat × Nat) → Option Nat
  | _, _, [] => none
  | a, k, w :: r => if 0x8000 < a + sylLen w then some k else firstPast (a + sylLen w) (k + 1) r

/-- The first misplaced header syllable (R40, reason 4). -/
def firstHeader (l : List (Nat × Nat)) : Option Nat :=
  (List.range l.length).find? fun k =>
    let w := (l.getD k (0, 0)).1
    (isBlkh w && k != 0) || (isBlkv w && !(k == 1 && isBlkh (l.getD 0 (0, 0)).1))

/-- The first syllable that exceeds its slot's limit (R37, reason 1). -/
def firstOver (l : List (Nat × Nat)) : Option Nat :=
  (List.range l.length).find? fun k =>
    let c := slotOf (l.getD k (0, 0)).1
    decide (slotLimit c < ((l.take (k + 1)).filter fun w => slotOf w.1 == c).length)

/-- Registers that the register rule leaves out: g0, p0, q0 (R39). -/
def exempt (r : Nat) : Bool := r == 0 || r == 32 || r == 128

/-- Whether two lists of registers share one that counts. -/
def shares (a b : List Nat) : Bool := a.any fun r => !exempt r && b.contains r

/-- Whether two syllables conflict by the register rule (R39). -/
def conflicts (u v : Uses) : Bool := shares u.wr (v.rd ++ v.wr) || shares v.wr (u.rd ++ u.wr)

/-- The lowest position that conflicts with a lower one (R39, R65 reason 3). -/
def firstClash (l : List Uses) : Option Nat :=
  (List.range l.length).find? fun k => (l.take k).any fun u => conflicts u (l.getD k {})

/-- The first branch syllable (R316, reason 7). -/
def firstBranch (l : List (Nat × Nat)) : Option Nat :=
  (List.range l.length).find? fun k => bits (l.getD k (0, 0)).1 30 27 == 3

/-- What the fields that every word of a format has name where the word has no row: the guard, or the lane mask (R39, R44). -/
def formUses (w : Nat) : Uses :=
  let m := bits w 30 27
  if 5 ≤ m ∧ m ≤ 8 then { rd := [128 + bits w 26 24] } else { rd := [32 + bits w 26 24] }

/-- The registers a syllable of a bundle names by its encoded fields (R39). An X word whose V3 names no row names what the row of its V3
without the unused bits does. -/
noncomputable def usesOf (w : Nat × Nat) : Uses :=
  match readRow w.1 w.2 with
  | some i => uses i
  | none =>
    if bits w.1 30 27 = 9 then
      match rowX (fld w.1 22 17) (fld w.1 11 10) (xOf w.1), rowX (fld w.1 22 17) 0 (xOf w.1) with
      | some i, _ => uses i
      | none, some i => uses i
      | none, none => formUses w.1
    else formUses w.1

/-- The reason and position of ILLEGAL_BUNDLE (R37, R40, R65), first by the order 5, 2, 6, 4, 1, 3, 7. `inner` holds in a
yoked block before its last bundle. -/
noncomputable def bundleIll (addr : Nat) (l : List (Nat × Nat)) (ends inner : Bool) : Option (Nat × Nat) :=
  match firstPast addr 0 l with
  | some k => some (5, k)
  | none =>
    if !ends then some (2, 15)
    else if 8 < l.length then some (6, 8)
    else match firstHeader l with
      | some k => some (4, k)
      | none =>
        match firstOver l with
        | some k => some (1, k)
        | none =>
          match firstClash (l.map usesOf) with
          | some k => some (3, k)
          | none => if inner then (firstBranch l).map fun k => (7, k) else none

/-- Whether a register exists under the tile's allotments (R20, R142); the q fields must lie below 8. -/
def regExists (t : Tile) (r : Nat) : Bool :=
  if r < 64 then true
  else if r < 128 then decide (r - 64 < t.sys.va)
  else if r < 192 then decide (r < 136)
  else if r < 256 then decide (r - 192 < t.sys.aa)
  else true

/-- ILLEGAL_REG (R20, R54, R55, R58). -/
def regBad (t : Tile) (u : Uses) : Bool := u.mis || !(u.rd ++ u.wr).all (regExists t)

/-- The encoding trap of one syllable besides ILLEGAL_BUNDLE (R44, R65), or its instruction: a register that does not exist stops it before any
operand's value is looked at (log 113). -/
noncomputable def sylOf (t : Tile) (w : Nat × Nat) : Except TrapInfo Instr :=
  match decode w.1 w.2 with
  | .error _ => .error (tr cIllegalOp)
  | .ok i => if regBad t (uses i) then .error (tr cIllegalReg) else .ok i

/-! ## The end of a bundle -/

/-- A bundle has completed in step mode (R433): FAULTC records STEP; after the last of the n bundles the task is suspended, the watchdog's count
stands still and the tile is Stopped; the activation goes on and makes no trace record (R442). In a yoke `blk` holds, and SUB names the bundle of
the block and the member (R325). -/
def stepped (p addr sub : Nat) (blk : Bool) (s : State) : State :=
  let t := s.tile p
  if t.dbg.stepping then
    let n := t.dbg.stepN - 1
    s.setTile p { t with
      sys := { t.sys with faultc := faultcWord sub 0 t.task.run.slot blk false cStep, faulta := faultaWord 0 addr },
      dbg := { t.dbg with stepN := n, suspended := n == 0, stepping := n != 0 },
      life := if n = 0 then .stopped else t.life,
      task := if n = 0 then { t.task with run := { t.task.run with used := ranCycles s t, start := s.clk } } else t.task }
  else s

/-- A bundle that has completed (R42, R88): the deferred allotment, the bundle counts of R431 and R432, and the end of the
task or the loop end step and the next address. -/
def finish (s : State) : State :=
  let b := s.t.bun
  let s := match b.allot with
    | some (v, n) => s.onT (setAllot v n)
    | none => s
  match b.fin with
  | some f => endActivation f s
  | none =>
    let t := countBundle s.t
    let r := loopEnd b t.sys
    stepped s.cur b.addr 0 false (s.setT { t with pc := r.1, sys := r.2, bun := {}, wait := [], woken := [], issuePre := none })

/-- The end of a bundle of one syllable: nothing where it has ended its task or trapped; a stall keeps the bundle (R43). -/
def closeOne (s : State) : State :=
  if !s.t.bun.live then s
  else if s.t.wait.isEmpty then finish s
  else s.onT fun t => { t with bun := {} }

/-- Waits in which the bundle has issued its request (R284, R291, R247, R312). -/
def isIssue : Wait → Bool
  | .atomic k => decide (k < 64)
  | .pqry k => decide (k < 64)
  | .yoke => true
  | .bwait _ _ => true
  | _ => false

/-- What a bundle keeps of the tile as it found it where it has now sent a fetch atomic (R284): when it runs to its end after the reply, its
other syllables read that, so that none of them traps then. -/
def keepIssue (x : Pre) (t : Tile) : Tile :=
  if t.wait.any fun e => match e.2 with | .atomic k => decide (k < 64) | _ => false then { t with issuePre := some x } else t

/-- The syllables of a list executed one after another with their positions. -/
def runSyls (ex : Instr → State → Out) : List (Nat × Instr) → State → Out
  | [], s => .next s
  | (k, i) :: r, s =>
    match ex i (s.onT fun t => { t with bun := { t.bun with pos := k } }) with
    | .next s' => runSyls ex r s'
    | .fault f => .fault f
    | .refused f => .refused f

/-- The end of a bundle of several syllables that began in `s0` and has executed to `s` (R42, R65): its first trap, its
stall (what it only waits for is issued once nothing else holds it), or its effects. -/
def closeMany (ex : Instr → State → Out) (l : List (Nat × Instr)) (s0 s : State) : Out :=
  if !s.t.bun.live then .next s
  else match s.t.bun.trap with
    | some (_, ti) => .next (takeTrapAt s.cur ti 0 s.t.bun.addr false false s0)
    | none =>
      if s.t.wait.isEmpty then .next (finish s)
      else if s.t.wait.all fun e => isIssue e.2 then
        match runSyls ex (l.filter fun e => s.t.wait.any fun w => w.1 == e.1) s0 with
        | .next s' => .next (s'.onT fun t => { keepIssue (s0.t.bun.pre.getD (preOf s0.t)) t with bun := {} })
        | o => o
      else .next (s0.onT fun t => { t with bun := {}, wait := s.t.wait.filter fun e => !isIssue e.2 })

/-- Whether a syllable starts an engine's action after the bundle's own effects (R42): N and X. -/
def isLate (w : Nat) : Bool := slotOf w == .n || slotOf w == .x

/-- The traps and the instructions of a bundle's syllables, with their positions, N and X last (R42). -/
noncomputable def sortSyls (t : Tile) (l : List (Nat × Nat)) : List (Nat × TrapInfo) × List (Nat × Instr) :=
  let all := (List.range l.length).map fun k => (k, l.getD k (0, 0))
  let ordered := (all.filter fun e => !isLate e.2.1) ++ all.filter fun e => isLate e.2.1
  (all.filterMap fun e => match sylOf t e.2 with | .error x => some (e.1, { x with sub := e.1 }) | .ok _ => none,
   ordered.filterMap fun e => match sylOf t e.2 with | .ok i => some (e.1, i) | .error _ => none)

/-- The first by R65 of the encoding traps. -/
def bestOf : List (Nat × TrapInfo) → Option (Nat × TrapInfo)
  | [] => none
  | x :: r =>
    match bestOf r with
    | none => some x
    | some y => if rank y.2.cause < rank x.2.cause then some y else some x

/-- A tile at the start of a bundle of one syllable. -/
def openOne (addr len : Nat) (t : Tile) : Tile := { t with bun := { live := true, addr := addr, len := len } }

/-- A tile at the start of a bundle of several syllables; one that has sent its fetch atomic stands as it did then (R284). -/
def openMany (addr len : Nat) (trap : Option (Nat × TrapInfo)) (t : Tile) : Tile :=
  { t with bun := { live := true, addr := addr, len := len, coll := true, trap := trap,
                    pre := some (t.issuePre.getD (preOf t)) } }

/-- The bundle at the pc of the issuing tile (R36 to R43). -/
noncomputable def bundleStep (ex : Instr → State → Out) (s : State) : Out :=
  let t := s.t
  let l := syllables t t.pc
  match bundleIll t.pc l.1 l.2 false with
  | some (r, k) => .next (takeTrapAt s.cur { cause := cIllegalBundle, sub := r * 256 + k, daddr := 0 } 0 t.pc false false s)
  | none =>
    match l.1 with
    | [w] =>
      match sylOf t w with
      | .error x => .next (takeTrapAt s.cur x 0 t.pc false false s)
      | .ok i =>
        match ex i (s.onT (openOne t.pc (sylLen w))) with
        | .next s' => .next (closeOne s')
        | o => o
    | ws =>
      let r := sortSyls t ws
      let s0 := s.onT (openMany t.pc (sylsLen ws) (bestOf r.1))
      match runSyls ex r.2 s0 with
      | .next s' => closeMany ex r.2 s0 s'
      | o => o

/-! ## The thread -/

/-- WATCH taken at a bundle boundary (R431), or at a block boundary with the header that BADDR names (R325): the mask of the watchpoints
hit, the engine bit, the lowest byte, the skid. -/
def takeWatchAt (p baddr : Nat) (blk : Bool) (s : State) : State :=
  let t := s.tile p
  match t.dbg.watch with
  | some (m, eng, a) =>
    let s := s.onTile p fun t => { t with dbg := { t.dbg with watch := none, skid := 0 } }
    if t.life == .running then takeTrapAt p { cause := cWatch, sub := m + 16 * eng, daddr := a } t.dbg.skid baddr blk true s else s
  | none => s

/-- WATCH taken by a thread. -/
def takeWatch (p : Nat) (s : State) : State := takeWatchAt p (s.tile p).pc false s

/-- The fetch atomics by their words (R284). -/
def isFetch (w : Nat) : Bool := bits w 30 27 == 12 && decide (16 ≤ bits w 19 15) && decide (bits w 19 15 ≤ 24)

/-- The address of the bundle that the thread waits in: its pc, or where blocks run that of the oldest block. -/
def waitAt (t : Tile) : Nat := if t.yk.blocks then (t.yk.win.head?.map (·.pc)).getD 0 else t.pc

/-- Whether a fetch atomic's request has left and its bundle has not completed: an asynchronous cause waits for that (R284). -/
def pinned (t : Tile) : Bool :=
  (t.wait.any fun e => match e.2 with | .atomic k => decide (k < 64) | _ => false)
    || (!t.woken.isEmpty && t.woken.any fun e => isFetch (((syllables t (waitAt t)).1.getD e.1 (0, 0)).1))

/-- Whether the thread of tile `p` may issue a bundle of its own: Running, and not handing out blocks (R313). -/
def threadRuns (t : Tile) : Bool := t.life == .running && !t.yk.blocks

/-- The first bundle of a task issues, and its watchdog starts (R221, R225). -/
def issueFirst (p : Nat) (s : State) : State :=
  if (s.tile p).task.run.fresh then
    s.onTile p fun t => { t with task := { t.task with run := { t.task.run with fresh := false, start := s.clk } } }
  else s

/-- Whether the 6 cycles from the choice of a task to its first bundle have not passed (R221). -/
def tooSoon (s : State) (t : Tile) : Bool := t.task.run.fresh && decide (s.clk < t.task.run.start)

/-- One move of tile `p`'s thread: an asynchronous cause that waits (R66; cause 0 stands for the abandonment of R376), or its next
bundle; nothing while it stalls. A bundle that has sent its fetch atomic meets no new error of its words (R284). -/
noncomputable def threadStep (ex : Instr → State → Out) (p : Nat) (s : State) : Out :=
  let t := s.tile p
  if !threadRuns t then .next s
  else match pinned t, t.async with
    | false, ti :: _ => .next (if ti.cause = 0 then abandon p s else takeTrapAt p ti 0 t.pc false true s)
    | _, _ =>
      if !t.wait.isEmpty || tooSoon s t then .next s
      else if t.dbg.watch.isSome && decide (4 ≤ t.dbg.skid) then .next (takeWatch p s)
      else if fetchBad t t.pc && !pinned t then .next (takeTrapAt p { cause := cEccLocal, imem := true } 0 t.pc false true s)
      else bundleStep ex { issueFirst p s with cur := p }

end Sys2Proof.Machine
end

