-- ==== Sys2Proof/Machine/Paging.lean ====
section
/-!
DEFINITION. Sys2Proof/Machine/Paging.lean: device memory, page tables and their walk (R267 to R273), the host window and
Ultra Ethernet endpoint tables (R405, R412), and the accesses of the pump house by virtual address (R362).
-/

namespace Sys2Proof.Machine

/-! ## Device memory -/

/-- The key of a byte of device memory: the device, its stack, and the offset in the stack. -/
def hbmKey (dev stack off : Nat) : Nat := (dev * 16 + stack) * 2 ^ 36 + off % 2 ^ 36

/-- The key of a device physical address of this device (R269). -/
def devKey (s : State) (a : Nat) : Nat := hbmKey s.dev (a / 2 ^ 36 % 16) (a % 2 ^ 36)

/-- Bytes of device memory, and whether a sector of them is poisoned (R281). -/
def hbmRead (f : Fabric) (k n : Nat) : List Byte × Bool := (Mem.bytes f.hbm k n, (sectorsOf k n).any (NSet.mem f.hpoison))

/-- Bytes written to device memory: a clean cover clears a sector's poison, a partial write leaves it, and bytes that carry
poison poison their sectors (R281, R123). -/
def hbmWrite (k : Nat) (d : List Byte) (carry : Bool) (f : Fabric) : Fabric :=
  { f with
    hbm := Mem.setBytes f.hbm k d
    hpoison := if carry then NSet.addAll f.hpoison (sectorsOf k d.length)
      else NSet.delAll f.hpoison ((sectorsOf k d.length).filter (covers [(k, d)])) }

/-! ## Entries (R268, R269, R270) -/

/-- The fields of a leaf entry's words. -/
def eStack (w0 : Nat) : Nat := bits w0 39 36
def eHome (w0 : Nat) : Nat := bits w0 35 16
def eFmt (w0 : Nat) : Nat := bits w0 15 12
def eLayout (w0 : Nat) : Nat := bits w0 11 8
def eFrame (w1 : Nat) : Nat := bits w1 19 0
def ePinned (w1 : Nat) : Bool := bit w1 34
def ePoison (w1 : Nat) : Bool := bit w1 33
def eMigrating (w1 : Nat) : Bool := bit w1 32

/-- Frames of 64 KiB in a stack of 36 GiB. -/
def stackFrames : Nat := 589824

/-- Whether a leaf of 2^sh bytes is malformed (R270). -/
def badLeaf (sh w0 w1 : Nat) : Bool :=
  let st := eStack w0
  let fr := eFrame w1
  bits w0 63 40 != 0 || bits w0 7 6 != 0 || bits w1 63 40 != 0 || bit w1 35 || bits w1 31 20 != 0
    || decide (39 ≤ sh) || st == 12 || st == 13 || decide (2 < eLayout w0)
    || (decide (st < 12) && fr % 2 ^ (sh - 16) != 0) || (decide (st < 12) && decide (stackFrames < fr + 2 ^ (sh - 16)))
    || (st == 15 && fr % 2 ^ (sh - 16) != 0)
    || (st == 14 && fr != 0) || (bit w0 4 && eLayout w0 == 0)
    || (eLayout w0 == 1 && !(eFmt w0 == 1 || eFmt w0 == 2 || eFmt w0 == 3 || eFmt w0 == 4))
    || (eLayout w0 == 2 && eFmt w0 != 5)

/-- Whether a pointer entry at the level that covers 2^sh bytes an entry is malformed (R269, R270). -/
def badPointer (sh w0 w1 : Nat) : Bool :=
  bits w0 63 40 != 0 || bits w0 7 6 != 0 || bits w1 63 40 != 0 || w1 % 4096 != 0 || sh == 16

/-- Where a walk ends: no valid entry (with the address of the one that is not), a malformed entry, or a leaf of 2^sh bytes with
its words and its address. -/
inductive Walk
  | none (level at_ : Nat)
  | bad (at_ : Nat)
  | leaf (sh w0 w1 at_ : Nat)
deriving DecidableEq, Repr

/-- The levels of the tree: the shift and the index bits of each (R267). -/
def levels : List (Nat × Nat) := [(48, 8), (39, 9), (30, 9), (21, 9), (16, 5)]

/-- The walk of one virtual address from a table (R267 to R270). -/
def walkFrom (s : State) (va : Nat) : List (Nat × Nat) → Nat → Walk
  | [], t => .none 16 t
  | (sh, n) :: r, t =>
    let a := t + 16 * (va / 2 ^ sh % 2 ^ n)
    let w0 := Mem.le s.fab.hbm (devKey s a) 8
    let w1 := Mem.le s.fab.hbm (devKey s a + 8) 8
    if !bit w0 0 then .none sh a
    else if bit w0 5 then (if badLeaf sh w0 w1 then .bad a else .leaf sh w0 w1 a)
    else if badPointer sh w0 w1 then .bad a
    else walkFrom s va r (bits w1 39 0)

/-- The walk of a context's tables (R267); a context without a root maps nothing, nor one that is destroyed, whose root the stations drop (R380). -/
def walk (s : State) (cid va : Nat) : Walk :=
  let c := s.ctx cid
  if c.st == .free || c.st == .destroyed then .none 48 0 else walkFrom s va levels c.root

/-! ## Where the bytes lie -/

/-- The pieces of a range, cut at 64 KiB boundaries: address and length. -/
def segs (va n : Nat) : List (Nat × Nat) :=
  if n = 0 then []
  else (List.range ((va + n - 1) / 65536 + 1 - va / 65536)).map fun j =>
    let lo := Nat.max va ((va / 65536 + j) * 65536)
    (lo, Nat.min (va + n) ((va / 65536 + j + 1) * 65536) - lo)

/-- Bytes of the tables by which a context's pages are found, in its pages in device memory, without a check of rights: none where one is not
there (log 111). -/
def tableRead (s : State) (cid va n : Nat) : Option (List Byte) :=
  (segs va n).foldl (fun o e =>
    match o, walk s cid e.1 with
    | some l, .leaf sh w0 w1 _ =>
      if eStack w0 < 12 then
        some (l ++ Mem.bytes s.fab.hbm (hbmKey (eHome w0) (eStack w0) (eFrame w1 * 65536 + e.1 % 2 ^ sh)) e.2)
      else none
    | _, _ => none) (some [])

/-- A little-endian number of such a table. -/
def tableNum (s : State) (cid va n : Nat) : Option Nat := (tableRead s cid va n).map leNat

/-- A host window entry (R412): BASE and word 1, if the table holds it; one with a non-zero zero field is no valid entry (R3). -/
def hostWindow (s : State) (cid h : Nat) : Option (Nat × Nat) :=
  let t := (s.ctx cid).hwtab
  match tableNum s cid t 8, tableNum s cid (t + 16 + 16 * h) 8, tableNum s cid (t + 16 + 16 * h + 8) 8 with
  | some hd, some b, some w => if h < bits hd 19 0 ∧ bit w 21 ∧ bits w 63 22 = 0 ∧ b % 65536 = 0 then some (b, w) else none
  | _, _, _ => none

/-- A UE endpoint's four words (R405), if the table holds it; a table or an entry with a non-zero zero field holds none (R3). -/
def ueEndpoint (s : State) (cid ep : Nat) : Option (List Nat) :=
  let t := (s.ctx cid).eptab
  let w (k : Nat) : Option Nat := tableNum s cid (t + 32 + 32 * ep + 8 * k) 8
  match tableNum s cid t 8, w 0, w 1, w 2, w 3 with
  | some hd, some a, some b, some c, some d =>
    if ep < bits hd 20 0 ∧ bits hd 63 21 = 0 ∧ bit c 63 ∧ bits c 62 44 = 0 ∧ bits c 31 24 = 0 ∧ bits d 63 35 = 0 then some [a, b, c, d] else none
  | _, _, _, _, _ => none

/-- The place of byte `va` of a leaf, or the reason of the fault (R271, R273, R412); an access to host memory carries the function that owns
the context (R408). -/
def locate (s : State) (cid : Nat) (wr : Bool) (va sh w0 w1 : Nat) : Except Nat Loc :=
  let po := va % 2 ^ sh
  if eStack w0 < 12 then .ok (.hbm (hbmKey (eHome w0) (eStack w0) (eFrame w1 * 65536 + po)))
  else if eStack w0 = 15 then
    match hostWindow s cid (eFrame w1) with
    | some (b, w) =>
      if bits w 19 0 * 65536 < 2 ^ sh then .error 1
      else if wr && !bit w 20 then .error 3
      else .ok (.host (s.ctx cid).func (b + po))
    | none => .error 1
  else
    match ueEndpoint s cid (eHome w0) with
    | some l =>
      if (s.ctx cid).job = 0 then .error 8
      else .ok (.ue ((bits (l.getD 2 0) 23 0 * 4096 + bits (l.getD 2 0) 43 32) * 2 ^ 56 + va))
    | none => .error 8

/-! ## Places -/

/-- A place some bytes further on. -/
def Loc.plus : Loc → Nat → Loc
  | .hbm k, o => .hbm (k + o)
  | .host g h, o => .host g (h + o)
  | .ue k, o => .ue (k + o)
  | .door q, o => .door (q + o)

/-- Bytes at a place, and whether a sector of them is poisoned. -/
def locRead (l : Loc) (n : Nat) (f : Fabric) : List Byte × Bool :=
  match l with
  | .hbm k => hbmRead f k n
  | .host _ h => (Mem.bytes f.host h n, false)
  | .ue k => (Mem.bytes f.ue k n, false)
  | .door _ => (List.replicate n 0, false)

/-- Bytes written at a place. -/
def locWrite (l : Loc) (d : List Byte) (carry : Bool) (f : Fabric) : Fabric :=
  match l with
  | .hbm k => hbmWrite k d carry f
  | .host _ h => { f with host := Mem.setBytes f.host h d }
  | .ue k => { f with ue := Mem.setBytes f.ue k d }
  | .door _ => f

/-! ## Tables and rings of a context -/

/-- A context's bytes read without a check of rights, wherever their pages lie: none where one is not there. -/
def plainRead (s : State) (cid va n : Nat) : Option (List Byte) :=
  (segs va n).foldl (fun o e =>
    match o, walk s cid e.1 with
    | some l, .leaf sh w0 w1 _ =>
      match locate s cid false e.1 sh w0 w1 with
      | .ok c => some (l ++ (locRead c e.2 s.fab).1)
      | .error _ => none
    | _, _ => none) (some [])

/-- A little-endian number at a virtual address. -/
def plainNum (s : State) (cid va n : Nat) : Option Nat := (plainRead s cid va n).map leNat

/-! ## Doorbell pages (R354) -/

/-- The VA of a context's doorbell page and the cistern that holds it, which the pump house chooses (R354; log 95). -/
def doorPage (cid : Nat) : Nat := Config.unstated 354 (2 * cid) % 2 ^ 44 * 4096
def doorCistern (s : State) (cid : Nat) : Nat :=
  let h := Config.unstated 354 (2 * cid + 1)
  cisternPlace s.dev (h % 12) (h / 12)

/-- Whether an address of a context lies in its doorbell page, which is mapped once the context has a queue (R354; log 95). -/
def atDoor (s : State) (cid va : Nat) : Bool := !(s.ctx cid).queues.isEmpty && va / 4096 * 4096 == doorPage cid

/-- The entry of the doorbell page: valid, W, at the stack of its cistern (R354). -/
def doorEntry (s : State) (cid : Nat) : Nat := 5 + s.dev * 2 ^ 16 + Config.unstated 354 (2 * cid + 1) % 12 * 2 ^ 36

/-! ## The pump house's accesses (R362) -/

/-- The first right that is missing, of R, W and A, as its reason (R275, R280). -/
def lacks (w0 : Nat) (r w a : Bool) : Option Nat :=
  if r && !bit w0 1 then some 2 else if w && !bit w0 2 then some 3 else if a && !bit w0 3 then some 4 else none

/-- Whether a page of a context is in migration, from its freeze until its parked packets have been released (R294). -/
def inMigration (s : State) (cid va : Nat) : Bool := (s.ctx cid).migs.any fun g => g.va == va / 2 ^ g.sh * 2 ^ g.sh

/-- Whether the pager has refused to resolve a fault of the pump house's own at a page, by now (R275, R362). Until it refuses, or changes
the page, the access waits; when it refuses is its own affair (log 94). -/
def pagerRefuses (s : State) (cid va : Nat) : Bool := Config.unstated 362 (s.picks * 2 ^ 64 + cid * 2 ^ 44 + va / 65536) % 2 == 0

/-- The place of a piece for an access with the rights given. Reason 0 means that the access waits: for the pager to resolve its fault (R275,
R362), or for a page in migration (R294). The doorbell page is mapped with W alone (R354). -/
def place (s : State) (cid va : Nat) (r w a : Bool) : Except Nat Loc :=
  if atDoor s cid va then
    match lacks 5 r w a with
    | some e => .error (if pagerRefuses s cid va then e else 0)
    | none => .ok (.door (va % 4096))
  else match walk s cid va with
  | .none _ _ => .error (if pagerRefuses s cid va then 1 else 0)
  | .bad _ => .error 7
  | .leaf sh w0 w1 _ =>
    match lacks w0 r w a with
    | some e => .error (if pagerRefuses s cid va then e else 0)
    | none => if eMigrating w1 || inMigration s cid va then .error 0 else locate s cid w va sh w0 w1

/-- One piece read: its bytes, or the reason. A poisoned sector gives reason 9 (R280). -/
def vpiece (s : State) (cid va n : Nat) (r w a : Bool) : Except Nat (List Byte) :=
  match place s cid va r w a with
  | .error e => .error e
  | .ok (.hbm k) => let x := hbmRead s.fab k n; if x.2 then .error 9 else .ok x.1
  | .ok (.host _ h) => if a then .error 4 else .ok (Mem.bytes s.fab.host h n)
  | .ok (.ue k) => .ok (Mem.bytes s.fab.ue k n)
  | .ok (.door _) => .error 2

/-- A range read for the pump house with the rights given, or the first reason. -/
def vread (s : State) (cid va n : Nat) (r w a : Bool) : Except Nat (List Byte) :=
  (segs va n).foldl (fun o e =>
    match o with
    | .error x => .error x
    | .ok l => match vpiece s cid e.1 e.2 r w a with | .ok d => .ok (l ++ d) | .error x => .error x) (.ok [])

/-- A number read. -/
def vnum (s : State) (cid va n : Nat) (r w a : Bool) : Except Nat Nat := (vread s cid va n r w a).map leNat

/-- The places of a range that may be written, or the first reason. -/
def vplaces (s : State) (cid va n : Nat) (r w a : Bool) : Except Nat (List (Loc × Nat × Nat)) :=
  (segs va n).foldl (fun o e =>
    match o with
    | .error x => .error x
    | .ok l => match place s cid e.1 r w a with | .ok p => .ok (l ++ [(p, e.1 - va, e.2)]) | .error x => .error x) (.ok [])

/-- The aligned words that some bytes of a doorbell page touch, in order: their offset and bytes. -/
def doorWords (o : Nat) (d : List Byte) : List (Nat × List Byte) :=
  if d.isEmpty then []
  else (List.range ((o + d.length - 1) / 8 + 1 - o / 8)).map fun j =>
    let lo := Nat.max o ((o / 8 + j) * 8)
    (lo, (d.drop (lo - o)).take (Nat.min (o + d.length) ((o / 8 + j + 1) * 8) - lo))

/-- Bytes written at a place for a context; in its doorbell page each word rings at once (R354). -/
def putAt (cid : Nat) (l : Loc) (d : List Byte) (s : State) : State :=
  match l with
  | .door o => s.push ((doorWords o d).map fun e => .door cid e.1 e.2)
  | l => s.onFab (locWrite l d false)

/-- A range written for the pump house, or the first reason, with nothing written then. -/
def vwrite (cid va : Nat) (d : List Byte) (r w a : Bool) (s : State) : Except Nat State :=
  match vplaces s cid va d.length r w a with
  | .error x => .error x
  | .ok l => .ok (l.foldl (fun s e => putAt cid e.1 ((d.drop e.2.1).take e.2.2) s) s)

/-- A little-endian number written. -/
def vput (cid va n v : Nat) (r w a : Bool) (s : State) : Except Nat State := vwrite cid va (natLe n v) r w a s

end Sys2Proof.Machine
end

