-- ==== Sys2Proof/Machine/Group.lean ====
section
/-!
DEFINITION. Sys2Proof/Machine/Group.lean: groups: ranks and places (R239, R240, R244), the rank cache, GRANK, GSIZE and
GPLACE (R247).
-/

namespace Sys2Proof.Machine

/-! ## The list sectors (R244) -/

/-- The list sector that holds a rank's word (R244): its address and the ranks of its 8 words. -/
def listSector (g : Group) (r : Nat) : Nat × List (Nat × Nat) :=
  let a := (g.listva + 4 * r) / 32 * 32
  (a, (List.range 8).filterMap fun k =>
    if g.listva ≤ a + 4 * k ∧ (a + 4 * k - g.listva) / 4 < g.size then some (k, (a + 4 * k - g.listva) / 4) else none)

/-- Whether tile `p` waits for a list word: the first unresolved released send, or a GPLACE. -/
def wantsRank (s : State) (p grp r : Nat) : Bool :=
  let t := s.tile p
  (t.wait.any fun e => e.2 == .gplace grp r)
    || t.net.outq.any fun h => match h with
      | .send d =>
        let x := FMap.get ({} : Send) t.net.sends d
        x.state == 2 && !x.res && bits x.ew 27 20 == grp && bits x.ew 19 0 == r
      | _ => false

/-- RANK_CACHE_FILL (R244): a miss that something waits for reads its list sector through a station and installs the 8 words; the sends that waited
for it are resolved. A sector that cannot be read installs nothing (log 30). -/
def execRankCacheFill (p g r : Nat) (s : State) : Out :=
  let t := s.tile p
  .next (match memberOf t g with
  | some (_, m) =>
    if m.desc.kind = 2 && (resolve s p g r).isNone && wantsRank s p g r then
      let e := listSector m.desc r
      match vread s t.sys.cid e.1 32 true false false with
      | .ok d => resolveOut p (s.onFab (install (p / 16) (e.2.map fun k => (t.sys.cid, g, k.2, leNat ((d.drop (4 * k.1)).take 4)))))
      | .error _ => s
    else s
  | none => s)

/-! ## The queries (R247) -/

/-- A group index out of range or unbound. -/
def grpUnbound (s : State) (x : W64) : Bool := decide (x.toNat > 255) || !NSet.mem s.t.comm.bound x.toNat

/-- GRANK (R247). -/
def execGrank (x : R) (s : State) : Out :=
  .next (guarded x.g x.n (fun s =>
    checked [(grpUnbound s (rg s x.a), tr cGroup)] (fun s =>
      wg x.d (match memberOf s.t (rg s x.a).toNat with | some (_, m) => BitVec.ofNat 64 m.rank | none => BitVec.allOnes 64) s) s) s)

/-- GSIZE (R247). -/
def execGsize (x : R) (s : State) : Out :=
  .next (guarded x.g x.n (fun s =>
    let a := rg s x.a
    checked [(grpUnbound s a || groupBad s.t a.toNat, tr cGroup)]
      (fun s => wg x.d (BitVec.ofNat 64 (groupSize s.t a.toNat)) s) s) s)

/-- GPLACE (R247): a LISTED group's word is waited for; one that cannot be read ends it with REQ and no result. -/
def execGplace (x : R) (s : State) : Out :=
  .next (guarded x.g x.n (fun s =>
    let a := rg s x.a
    let r := (rg s x.b).toNat
    checked [(grpUnbound s a || groupBad s.t a.toNat || decide (groupSize s.t a.toNat ≤ r), tr cGroup)] (fun s =>
      match memberOf s.t a.toNat with
      | some (_, m) =>
        if m.desc.kind = 1 then wg x.d (BitVec.ofNat 64 (affine m.desc.base m.desc.shape r).1) s
        else match wokenVal s with
          | some v => if v < 2 ^ 32 then wg x.d (BitVec.ofNat 64 v) s else raiseAsync s.cur (tr cReq) s
          | none => stall (.gplace a.toNat r) s
      | none => s) s) s)

/-- GPLACE_RESOLVED (R247): the word stands in the rank cache, or its sector cannot be read. -/
def execGplaceResolved (p : Nat) (s : State) : Out :=
  let t := s.tile p
  let used := t.wait.foldl (fun s e => match e.2 with
    | .gplace g r => if (resolve s p g r).isSome then s.onFab (touch (p / 16) t.sys.cid g r) else s
    | _ => s) s
  .next (wakeVal p (fun w => match w with
    | .gplace g r =>
      match resolve s p g r, memberOf t g with
      | some v, _ => some v
      | none, some (_, m) =>
        match vread s t.sys.cid (listSector m.desc r).1 32 true false false with
        | .error 0 => none
        | .error _ => some (2 ^ 32)
        | .ok _ => none
      | none, none => none
    | _ => none) used)

end Sys2Proof.Machine
end

