-- ==== Sys2Proof/Machine/Route.lean ====
section
/-!
DEFINITION. Sys2Proof/Machine/Route.lean: the way of a message through the tree (R14, R15, R17), its virtual channel (R209) and
its channel sequence (R208), and when one is due at its tile.
-/

namespace Sys2Proof.Machine

/-! ## The tree -/

/-- The switch of a level above a place (R14): the level in the top bits, then the switch's number at it. The cluster switch of a
service tile is that of its die's service cluster. -/
def switchAt (bw rw lv place : Nat) : Nat :=
  let dev := bits place 30 11
  lv * 2 ^ 32 + (if lv = 0 then (if bit place 31 then place % 2 ^ 31 / 512 + 2 ^ 31 else place / 16)
    else if lv = 1 then place % 2 ^ 31 / 128
    else if lv = 2 then place % 2 ^ 31 / 512
    else if lv = 3 then dev
    else if lv = 4 then dev / 2 ^ bw
    else dev / 2 ^ rw)

/-- The lowest level at which two places share a switch (R14, R15). -/
def lcaLevel (bw rw a b : Nat) : Nat :=
  ((levelsOf a).find? fun l => (levelsOf b).contains l && switchAt bw rw l a == switchAt bw rw l b).getD 5

/-- The port that leads into a switch from below: an endpoint's own link, or a lower switch's up link. -/
def portOfPlace (a : Nat) : Nat := a
def portOfSwitch (sw : Nat) : Nat := 2 ^ 32 + sw

/-- The ports of a place's way up to the switch of a level: its own, and the up link of each switch below that one (R14). -/
def wayUp (bw rw lv a : Nat) : List Nat :=
  portOfPlace a :: ((levelsOf a).filter (· < lv)).map fun k => portOfSwitch (switchAt bw rw k a)

/-- The ports between two places, in their order (R15, R17): up to the lowest common ancestor, then down. -/
def pathOf (bw rw a b : Nat) : List Nat :=
  if a = b then []
  else
    let l := lcaLevel bw rw a b
    (wayUp bw rw l a ++ (wayUp bw rw l b).reverse).eraseDups

/-- The physical place of a logical one (R13); a service endpoint's place, and one on another device, stand as they are. -/
def physPlace (s : State) (cid place : Nat) : Nat :=
  if !bit place 31 && place / 2048 == s.dev then tilePlace s.dev (s.physOf cid place) else place

/-- Whether a port passes a message (R17): its bitmap marks the CID, or the CID is a firmware CID in the control class. -/
def portPasses (f : Fabric) (port cid : Nat) (ctl : Bool) : Bool :=
  NSet.mem f.member (port * 4096 + cid) || (ctl && decide (0xF00 ≤ cid))

/-- The first port of a way that does not pass a context's traffic (R17). -/
def stopPort (f : Fabric) (path : List Nat) (cid : Nat) (ctl : Bool) : Option Nat := path.find? fun q => !portPasses f q cid ctl

/-- Traffic of a context from a place discarded at a port (R17): counted, reported to the pump house with the CID and the source place,
and the sending context faults. -/
def isolateAt (port cid src : Nat) (s : State) : State :=
  let s := s.onFab fun f => { f with
    isolation := FMap.put f.isolation port (FMap.get 0 f.isolation port + 1), reports := f.reports ++ [(cid, src)] }
  if (s.ctx cid).st == .free then s else s.push [.ctxFault cid]

/-! ## The firewall (R368) -/

/-- The die whose service cluster a port leads into: its cluster switch's down link from the die root. -/
def serviceDoor (port : Nat) : Option Nat :=
  let sw := port - 2 ^ 32
  if 2 ^ 32 ≤ port ∧ sw < 2 ^ 32 ∧ 2 ^ 31 ≤ sw then some (sw % 4) else none

/-- Whether a die's firewall register lets a header class into its service cluster: bit k passes class k. -/
def firewallPasses (f : Fabric) (die cls : Nat) : Bool := bit (FMap.get 0 f.firewall die) cls

/-- Whether a tile is one of a service cluster's own, and not a spare that stands for a context's logical tile (R13, R367). -/
def pumpTile (s : State) (p : Nat) : Bool := decide (2048 ≤ p) && (match (s.tile p).place with | some a => decide (2 ^ 31 ≤ a) | none => true)

/-- Whether the firewall of its die keeps a class of traffic from a tile (R368). What goes to a context's logical tile on a spare passes, as the
context's traffic does anywhere (R13, log 87). -/
def firewalled (s : State) (p cls : Nat) : Bool := pumpTile s p && !firewallPasses s.fab (tileDie p) cls

/-! ## Channels -/

/-- The virtual channel (R209): 0 request ordered, 1 request relaxed, 2 reply, 3 control and combine. -/
def vcOf (m : Msg) : Nat :=
  match m.kind with
  | .eager => if m.ctl then 3 else 0
  | .rts => if m.ctl then 3 else 0
  | .data => if m.ctl then 3 else if m.relaxed then 1 else 0
  | .cts => 2
  | .eack => 2
  | .poolFull => 2
  | .rack => 2
  | .dack => 2
  | _ => 3

/-- The next channel sequence number of a tile to a place, of all its messages to it, and the tile with it taken (R208). -/
def nextSeq (t : Tile) (dst : Nat) : Nat × Tile :=
  let n := FMap.get 0 t.net.chan dst
  (n, { t with net := { t.net with chan := FMap.set 0 t.net.chan dst ((n + 1) % 65536) } })

/-- The UE port by which a message leaves: its own, or the one by which the message it answers came, which the place of a remote
source holds above bit 31 (R213). -/
def ueOf (dev : Nat) (m : Msg) : Option Nat :=
  if m.ue.isSome then m.ue else if 2 ^ 32 ≤ m.dst then some (uePlace dev (m.dst / 2 ^ 32 - 1)) else none

/-- The tile's own rank in a group, for the messages that it sends through it (R242). -/
def ownRank (t : Tile) (grp : Nat) : Nat := match memberOf t grp with | some (_, e) => e.rank | none => 0

/-- A message of tile `p` put on its way with a send time: its source, rank, sequence and path (R208). -/
def launchAt (p time : Nat) (m : Msg) (s : State) : State :=
  let t := s.tile p
  let q := nextSeq t m.dst
  let src := s.placeOf p
  let ue := ueOf s.dev m
  let m := { m with cid := t.sys.cid, src := src, srank := ownRank t m.grp, chan := q.1, stime := time % 2 ^ 32, ue := ue,
                    path := pathOf s.svc.bw s.svc.rw (tilePlace s.dev p) (ue.getD (physPlace s t.sys.cid m.dst)) }
  (s.setTile p q.2).onFab fun f => { f with net := f.net ++ [m] }

/-- A message of tile `p` put on its way now. -/
def launch (p : Nat) (m : Msg) (s : State) : State := launchAt p s.gtime m s

/-! ## Arrival -/

/-- Whether two messages of one source and destination keep their order (R15): those of the ordered class, which are the ordered
requests and the control traffic, and the replies among themselves. -/
def inOrder (m o : Msg) : Bool :=
  let a := vcOf m
  let b := vcOf o
  (a == b && a != 1) || ((a == 0 || a == 3) && (b == 0 || b == 3))

/-- Whether a message goes to the engine of a die (R341); the chunks and the abort of one schedule keep their order among themselves. -/
def engineOrder (m o : Msg) : Bool :=
  if m.kind == .chunk || o.kind == .chunk then
    (m.kind == .chunk || m.kind == .abort) && (o.kind == .chunk || o.kind == .abort) && m.grp == o.grp && m.num == o.num
  else true

/-- Whether an earlier message of the same source and destination must arrive first (R15). -/
def blocksArrival (m : Msg) (o : Msg) : Bool := o.dst == m.dst && o.cid == m.cid && o.src == m.src && inOrder m o && engineOrder m o

/-- Whether a packet of turn `r` (0: a new arrival) must wait for one of the replay of turn `o` (R210). -/
def turnBefore (r o : Nat) : Bool := o != 0 && (r == 0 || decide (o < r))

/-- Whether a packet of the replay must enter a tile before one of turn `r` (R210): a message or the reply of a memory request; a chunk enters an
engine (R341). -/
def replayFirst (s : State) (cid dst r : Nat) : Bool :=
  (s.fab.net.any fun o => o.kind != .chunk && o.cid == cid && o.dst == dst && turnBefore r o.replay)
    || s.fab.pkts.any fun o => o.cid == cid && o.place == dst && turnBefore r o.replay

/-- Whether a message of the control and combine channel that carries a barrier or a collective (R255, R331). -/
def isComb (k : MKind) : Bool :=
  match k with
  | .arrive => true
  | .release => true
  | .cancel => true
  | .up => true
  | .down => true
  | .abort => true
  | .collected => true
  | .collRelease => true
  | _ => false

/-- Whether a tile takes packets of a context: it holds the context, is not Stopped, and in step mode waits (R210, R432, R433). -/
def takes (t : Tile) (cid : Nat) : Bool := t.resident && t.sys.cid == cid && engLive t

/-- Whether a tile takes a message: as `takes`, and for a barrier or a collective also while a save of its context drains that channel, in
which every release in flight still reaches its record (R260, R342, R377). -/
def takesMsg (t : Tile) (m : Msg) : Bool :=
  takes t m.cid || (isComb m.kind && t.life == .saving && t.place.isSome && t.sys.cid == m.cid)

/-- The message at position `n` with its tile, where it is due there: its path is done and nothing must come before it. -/
def arrival (s : State) (n : Nat) (ok : MKind → Bool) : Option (Nat × Msg) :=
  match elemAt s.fab.net n with
  | some m =>
    let p := s.physOf m.cid m.dst
    if ok m.kind && m.path.isEmpty && m.ue.isNone && m.dst / 2048 == s.dev && takesMsg (s.tile p) m
        && !((s.fab.net.take n).any (blocksArrival m)) && !replayFirst s m.cid m.dst m.replay then some (p, m) else none
  | none => none

/-- The message at position `n` gone. -/
def take (n : Nat) (s : State) : State := s.onFab fun f => { f with net := dropAt f.net n }

/-- Whether message `n` of a source's channel sequence is still on its way to a tile: on its way or parked in this device, or, of a source on
another device, not lost on a link, which no rule lets the receiver tell (log 85). -/
def onTheWay (s : State) (m : Msg) (n : Nat) : Bool :=
  let same (o : Msg) : Bool := o.cid == m.cid && o.src == m.src && o.dst == m.dst && o.chan == n && !isComb o.kind && o.kind != .chunk
  s.fab.net.any same || ((s.ctx m.cid).parked.any fun x => match x with | .msg o => same o | .reply _ => false)
    || (m.src / 2048 != s.dev && Config.unstated 403 (s.picks * 65536 + n) % 2 == 1)

/-- The lowest number from `n` on that is not among those that came early, of the next `f`. -/
def nextMissing (chan : FMap Nat) (key : Nat) : Nat → Nat → Nat
  | 0, n => n
  | f + 1, n => if FMap.get 0 chan (key + n) = 0 then n else nextMissing chan key f ((n + 1) % 65536)

/-- The receiver's check of the channel sequence (R208): one sequence for all the messages of a source place, of which the relaxed ones
and the replies may overtake (R15). A message that keeps its order must bear a later number than the last of its order from its
source, and no number before one that has come may be lost (R403: a gap); otherwise it is reported as a link fault, and the sender's context faults.
By source place, `chan` holds the next number of each order, the lowest number that has not come, and those that came before it. The messages of a UE
port have none (log 85). -/
def checkSeq (p : Nat) (m : Msg) (s : State) : State :=
  let vc := vcOf m
  if 2 ^ 32 ≤ m.src then s
  else
    let k := 2 ^ 40 + m.src * 4
    let early := 2 ^ 50 + m.src * 65536
    let c := (s.tile p).net.chan
    let late := vc ≠ 1 ∧ 32768 ≤ (m.chan + 65536 - FMap.get 0 c (k + b2n (vc == 2))) % 65536
    let c := if vc = 1 then c else FMap.set 0 c (k + b2n (vc == 2)) ((m.chan + 1) % 65536)
    let low := FMap.get 0 c (k + 2)
    let ahead := (m.chan + 65536 - low) % 65536
    let before := (List.range ahead).map fun i => (low + i) % 65536
    let gap := decide (ahead < 32768) && before.any fun n => FMap.get 0 c (early + n) == 0 && !onTheWay s m n
    let c := FMap.set 0 c (early + m.chan) 1
    let low' := nextMissing c early 65536 (if gap then (m.chan + 1) % 65536 else low)
    let c := FMap.set 0 (c.filter fun e => !(decide (early ≤ e.1) && decide (e.1 < early + 65536) && decide (32768 ≤ (e.1 - early + 65536 - low') % 65536))) (k + 2) low'
    let s := s.onTile p fun t => { t with net := { t.net with chan := c } }
    if late ∨ gap then s.push [.ctxFault m.cid] else s

/-- A message taken at its tile: out of the network, its sequence checked, and its effect. -/
def arrive (n : Nat) (ok : MKind → Bool) (f : Nat → Msg → State → State) (s : State) : State :=
  match arrival s n ok with
  | some (p, m) => f p m (checkSeq p m (take n s))
  | none => s

end Sys2Proof.Machine
end

