-- ==== Sys2Proof/Machine/Message.lean ====
section
/-!
DEFINITION. Sys2Proof/Machine/Message.lean: the N-M instructions (R201 to R207) and the matching engine's own tables (R185 to R199).
-/

namespace Sys2Proof.Machine

/-! ## Operand words -/

/-- The fields of a buffer word (R183). -/
def bwCe (w : Nat) : Bool := bit w 63
def bwCntf (w : Nat) : Nat := bits w 63 56
def bwLen (w : Nat) : Nat := bits w 55 32
def bwTa (w : Nat) : Nat := bits w 31 0
def bwOff (w : Nat) : Nat := bits w 20 0

/-- A counter field of R183 that names a counter without CE, or has its zero bit set. -/
def cntfBad (c : Nat) : Bool := bit c 6 || (!bit c 7 && c % 64 != 0)

/-- The checks of a buffer word (R183). -/
def bwChecks (w : Nat) : List (Bool × TrapInfo) :=
  [(bits w 31 24 != 0 || cntfBad (bwCntf w), tr cWindow (bwTa w)),
   (bits w 23 21 != 0 || decide (bwOff w + bwLen w > sramTop), tr cLocalRange (bwTa w))]

/-- RANK's value ANY (R184). -/
def rankAny : Nat := 0xFFFFF

/-- The check of an envelope word (R184): `recv` allows ANY, `noRank` leaves the RANK field unread. -/
def ewBad (t : Tile) (w : Nat) (recv noRank : Bool) : Bool :=
  bits w 31 28 != 0 || groupBad t (ewGrp w)
    || (!noRank && !(recv && ewRank w == rankAny) && decide (groupSize t (ewGrp w) ≤ ewRank w))

/-! ## Matching (R186, R187) -/

/-- Whether a message's envelope and a receive's are compatible (R186). -/
def compatible (m r mask : Nat) : Bool :=
  ewGrp m == ewGrp r && (ewRank r == rankAny || ewRank m == ewRank r) && Nat.land (Nat.xor (ewTag m) (ewTag r)) mask == 0

/-- How long ago a sequence number was given, `now` being the next. -/
def ageOf (now seq : Nat) : Nat := now - seq

/-- The key of the oldest of some entries. -/
def oldest {α : Type} (now : Nat) (f : α → Nat) (l : List (Nat × α)) : Option (Nat × α) :=
  l.foldl (fun o e => match o with
    | none => some e
    | some b => if ageOf now (f b.2) < ageOf now (f e.2) then some e else some b) none

/-- The earliest-posted compatible receive in state Posted (R187 rule 1). -/
def matchRecv (t : Tile) (ew : Nat) : Option (Nat × Recv) :=
  oldest t.net.rseq (fun r : Recv => r.seq) (t.net.recvs.filter fun e => e.2.state == 0 && compatible ew e.2.ew e.2.mask)

/-- The earliest-arrived compatible unexpected entry (R187 rule 2). -/
def matchUnexp (t : Tile) (ew mask : Nat) : Option (Nat × Unexp) :=
  oldest t.net.useq (fun u : Unexp => u.seq)
    (t.net.unexp.filter fun e => (e.2.state == 1 || e.2.state == 2) && compatible e.2.ew ew mask)

/-- A receive's table entry changed. -/
def setRecv (k : Nat) (f : Recv → Recv) (t : Tile) : Tile :=
  { t with net := { t.net with recvs := FMap.put t.net.recvs k (f (FMap.get {} t.net.recvs k)) } }

/-- An unexpected entry freed. -/
def dropUnexp (k : Nat) (t : Tile) : Tile := { t with net := { t.net with unexp := FMap.drop t.net.unexp k } }

/-- The free entries of the posted-receive table in the order in which they became free (R185); those not used since reset come first, the
lowest first (log 110). -/
def freeRecvs (t : Tile) : List Nat :=
  ((List.range 256).filter fun k => (FMap.get {} t.net.recvs k).state == 15 && !t.net.rorder.contains k)
    ++ t.net.rorder

/-- The handle of an entry (R185). -/
def handleOf (t : Tile) (k : Nat) : Nat := k + (FMap.get ({} : Recv) t.net.recvs k).gen * 256

/-- The entry a handle names, unless it is stale (R185); a handle of an entry in state 15 (Free) is taken as stale (log 110). -/
def entryOf (t : Tile) (h : Nat) : Option (Nat × Recv) :=
  let r := FMap.get {} t.net.recvs (h % 256)
  if h < 65536 ∧ r.gen = h / 256 ∧ r.state ≠ 15 then some (h % 256, r) else none

/-! ## Completion (R195, R196) -/

/-- A count that saturates at 0xFFFF. -/
def sat16 (n : Nat) : Nat := Nat.min (n + 1) 0xFFFF

/-- A receive reaches its final state: the counter, then Complete or Truncated (R195, R196). -/
def endRecv (p k : Nat) (s : State) : State :=
  let r := FMap.get ({} : Recv) (s.tile p).net.recvs k
  let trunc := decide (bwLen r.bw < r.length)
  let s := s.onTile p fun t =>
    let t := setRecv k (fun r => { r with state := if trunc then 5 else 4, held := [] }) t
    { t with net := { t.net with rorder := t.net.rorder ++ [k], rtrunc := if trunc then sat16 t.net.rtrunc else t.net.rtrunc } }
  let info : MsgInfo := { src := r.src, transit := r.transit, tag := ewTag r.ew, grp := ewGrp r.ew, done := s.gtime }
  if bwCe r.bw then decCounterBy p (bwCntf r.bw % 64) (some info) s else s

/-- The bytes that are written to a tile as one event for a message of source `src`: a sector, or across a UE port an aligned word (R196, R213). -/
def grain (src : Nat) : Nat := if 2 ^ 32 ≤ src then 8 else 32

/-- Bytes of a message that starts at offset `off` written to a receive's buffer as far as it reaches (R195, R196), but for the blocks in `w`,
which have been written already; `fe` whether they set the Full bits. -/
def recvPut (fe : Bool) (w : NSet) (p k off : Nat) (d : List Byte) (poison : Bool) (s : State) : State :=
  let r := FMap.get ({} : Recv) (s.tile p).net.recvs k
  let d := d.take (bwLen r.bw - off)
  if d.isEmpty then s
  else
    let s := engineWriteBut (grain r.src) w p [(bwOff r.bw + off, d)] fe poison s
    s.onTile p (setRecv k fun r => { r with done := r.done + d.length, psn := r.psn || poison })

/-- The same with the Full bits as the receive asks (R123). -/
def recvWrite (w : NSet) (p k off : Nat) (d : List Byte) (poison : Bool) (s : State) : State :=
  recvPut (FMap.get ({} : Recv) (s.tile p).net.recvs k).fe w p k off d poison s

/-- The `n`th block of such bytes that has not been written is written before the others; the blocks written with it (R297, R299). -/
def recvEarly (w : NSet) (p k off : Nat) (d : List Byte) (poison : Bool) (n : Nat) (s : State) : NSet × State :=
  let r := FMap.get ({} : Recv) (s.tile p).net.recvs k
  let ps := [(bwOff r.bw + off, d.take (bwLen r.bw - off))]
  match elemAt ((blocksOf (grain r.src) ps).filter fun b => !NSet.mem w b) n with
  | some b => (NSet.add w b, engineWriteOne (grain r.src) b p ps r.fe poison s)
  | none => (w, s)

/-- A receive and a message joined: the entry takes the message's envelope, length and source (R197, R446). -/
def joinRecv (k ew len src transit sdesc : Nat) (ctl : Bool) (st : Nat) (t : Tile) : Tile :=
  setRecv k (fun r => { r with ew := ew, length := len, src := src, transit := transit, sdesc := sdesc, ctl := ctl, state := st, done := 0 }) t

/-- A receive matched to an RTS (R192): CTS, and with an accepted length of 0 the end and DACK at once. -/
def grantRts (p k : Nat) (s : State) : State :=
  let t := s.tile p
  let r := FMap.get ({} : Recv) t.net.recvs k
  let acc := Nat.min r.length (bwLen r.bw)
  let s := launch p { kind := .cts, grp := ewGrp r.ew, dst := r.src, handle := handleOf t k, acc := acc, sdesc := r.sdesc, ctl := r.ctl } s
  if acc = 0 then
    endRecv p k (launch p { kind := .dack, grp := ewGrp r.ew, dst := r.src, len := r.length, acc := 0, sdesc := r.sdesc, ctl := r.ctl } s)
  else s

/-- Post (R187 rule 2, R197): entry `k` takes a receive, which matches a waiting message at once if there is one; a message of length 0 completes
at once (R195). -/
def postRecv (p k bw ew mask : Nat) (fe : Bool) (s : State) : State :=
  let s := s.onTile p fun t =>
    let t := setRecv k (fun r => { bw := bw, ew := ew, mask := mask, fe := fe, state := 0, gen := (r.gen + 1) % 256, seq := t.net.rseq }) t
    { t with net := { t.net with rseq := t.net.rseq + 1, rorder := t.net.rorder.filter (· != k) } }
  let t := s.tile p
  match matchUnexp t ew mask with
  | none => s
  | some (j, u) =>
    if u.state = 1 then
      if u.length = 0 then endRecv p k (s.onTile p fun t => dropUnexp j (joinRecv k u.ew 0 u.src u.transit u.sdesc u.ctl 1 t))
      else
        s.onTile p fun t =>
          let t := joinRecv k u.ew u.length u.src u.transit u.sdesc u.ctl 1 t
          { t with net := { t.net with unexp := FMap.put t.net.unexp j { u with state := 3, taker := k } } }
    else
      grantRts p k (s.onTile p fun t => dropUnexp j (joinRecv k u.ew u.length u.src u.transit u.sdesc u.ctl 2 t))

/-- The envelope as posted: RANK is ANY with .as (R446). -/
def postEw (ew : Nat) (any : Bool) : Nat := if any then ew - ewRank ew + rankAny else ew

/-! ## RECV and PROBE (R203) -/

/-- RECV, RECVM and RECVM.fe: .as, .at, .fe are bits 0 to 2 of the modifier; `mask` the tag mask. -/
def recvForm (g : Nat) (n : Bool) (d a b : Nat) (any fe : Bool) (mask : Nat) (s : State) : Out :=
  .next (guarded g n (fun s =>
    let bw := (rg s a).toNat
    let ew := (rg s b).toNat
    checked (bwChecks bw ++ [(ewBad s.t ew true any, tr cGroup)]) (fun s =>
      match freeRecvs s.t with
      | [] => wg d (BitVec.allOnes 64) s
      | k :: _ =>
        let s := postRecv s.cur k bw (postEw ew any) mask fe s
        wg d (BitVec.ofNat 64 (handleOf s.t k)) s) s) s)

/-- RECV (R203). -/
def execRecv (x : R) (s : State) : Out :=
  recvForm x.g x.n x.d x.a x.b (bit x.m 0) (bit x.m 2) (if bit x.m 1 then 0 else 0xFFFFFFFF) s

/-- RECVM (R203). -/
def execRecvm (x : L) (s : State) : Out := recvForm x.g x.n x.d x.a x.b false false x.imm s

/-- RECVM.fe (R203). -/
def execRecvmFe (x : L) (s : State) : Out := recvForm x.g x.n x.d x.a x.b false true x.imm s

/-- PROBE and PROBEM: the earliest compatible entry, left as it is. -/
def probeForm (g : Nat) (n : Bool) (d a b : Nat) (any : Bool) (mask : Nat) (s : State) : Out :=
  .next (guarded g n (fun s =>
    let ew := (rg s b).toNat
    checked [(ewBad s.t ew true any, tr cGroup)] (fun s =>
      match matchUnexp s.t (postEw ew any) mask with
      | none => wg a 0 (wg d (BitVec.allOnes 64) s)
      | some (_, u) => wg a (BitVec.ofNat 64 (u.length % 2 ^ 24 + b2n (u.state == 2) * 2 ^ 24)) (wg d (BitVec.ofNat 64 u.ew) s)) s) s)

/-- PROBE (R203). -/
def execProbe (x : R) (s : State) : Out := probeForm x.g x.n x.d x.a x.b (bit x.m 0) (if bit x.m 1 then 0 else 0xFFFFFFFF) s

/-- PROBEM (R203). -/
def execProbem (x : L) (s : State) : Out := probeForm x.g x.n x.d x.a x.b false x.imm s

/-- RCANCEL (R204): 0 cancelled, 1 busy, 2 none. -/
def execRcancel (x : R) (s : State) : Out :=
  .next (guarded x.g x.n (fun s =>
    match entryOf s.t (rg s x.a).toNat with
    | some (k, r) =>
      if r.state = 0 then
        wg x.d 0 (s.onT fun t =>
          let t := setRecv k (fun r => { r with state := 6 }) t
          { t with net := { t.net with rorder := t.net.rorder ++ [k] } })
      else wg x.d (if r.state = 1 ∨ r.state = 2 ∨ r.state = 3 then 1 else 2) s
    | none => wg x.d 2 s) s)

/-! ## RTEST and RWAIT (R205) -/

/-- The status word (n = 0) or the matched envelope (n = 1) of the receive a handle names (R205). -/
def recvStatus (t : Tile) (h n : Nat) : Nat :=
  match entryOf t h with
  | none => if n = 0 then 7 else 0
  | some (_, r) =>
    if n = 0 then r.length % 2 ^ 24 * 2 ^ 8 + b2n r.psn * 2 ^ 4 + r.state
    else if r.state = 0 ∨ r.state = 6 then 0 else r.ew

/-- Complete, Truncated, Cancelled or Gone. -/
def recvOver (t : Tile) (h : Nat) : Bool := match entryOf t h with | none => true | some (_, r) => decide (4 ≤ r.state)

/-- RTEST (R205). -/
def execRtest (x : R) (s : State) : Out :=
  .next (guarded x.g x.n (fun s => wg x.d (BitVec.ofNat 64 (recvStatus s.t (rg s x.a).toNat x.b)) s) s)

/-- RWAIT (R205): the bundle waits for the receive's end. -/
def execRwait (x : R) (s : State) : Out :=
  .next (guarded x.g x.n (fun s =>
    let h := (rg s x.a).toNat
    if recvOver s.t h then wg x.d (BitVec.ofNat 64 (recvStatus s.t h x.b)) s else stall (.rwait h) s) s)

/-! ## SEND (R202) -/

/-- A free send descriptor, the lowest (log 110). -/
def freeSend (t : Tile) : Option Nat := freeKey t.net.sends 64

/-- A descriptor made and held, or released at once (R202): with .e the task becomes Exposed first. -/
def makeSend (d : Nat) (x : Send) (now : Bool) (t : Tile) : Tile :=
  let t := { t with net := { t.net with
    sends := FMap.put t.net.sends d { x with seq := t.net.sseq, state := 1, iss := t.mreq.seq },
    sseq := t.net.sseq + 1 } }
  hold (.send d) (if now then expose t else t)

/-- A send made on the issuing tile; one that is released at once is resolved (R244). -/
def newSend (d : Nat) (x : Send) (now : Bool) (s : State) : State :=
  let s' := s.onT (makeSend d x now)
  if now || s.t.task.run.exposed then settle s.cur s' else s'

/-- SEND, SENDE, CSEND and the send half of XCHG: the descriptor of a buffer (R190). -/
def bufSend (t : Tile) (bw ew : Nat) (rel rdv ctl : Bool) : Send :=
  { bw := bw, ew := ew, rel := rel, ctl := ctl, rdv := rdv || decide ((preSys t).eagermax.toNat < bwLen bw) }

/-- SEND and SENDE (R202): .r is bit 0 and .v bit 1 of the modifier. -/
def sendForm (x : R) (e ctl : Bool) (s : State) : Out :=
  .next (guarded x.g x.n (fun s =>
    let bw := (rg s x.a).toNat
    let ew := (rg s x.b).toNat
    checked ((ctl && !s.t.sys.fw, tr cPriv) :: bwChecks bw ++ [(ewBad s.t ew false false, tr cGroup)]) (fun s =>
      match freeSend s.t with
      | none => wp x.d false s
      | some d => wp x.d true (newSend d (bufSend s.t bw ew (bit x.m 0) (bit x.m 1) ctl) e s)) s) s)

/-- SEND (R202). -/
def execSend (x : R) (s : State) : Out := sendForm x false false s
/-- SENDE (R202). -/
def execSende (x : R) (s : State) : Out := sendForm x true false s
/-- CSEND (R202). -/
def execCsend (x : R) (s : State) : Out := sendForm { x with m := 0 } false true s

/-- SENDV (R202): eager, without a counter; the descriptor's BW shows LEN 64. -/
def execSendv (x : R) (s : State) : Out :=
  .next (guarded x.g x.n (fun s =>
    let ew := (rg s x.b).toNat
    checked [(ewBad s.t ew false false, tr cGroup)] (fun s =>
      match freeSend s.t with
      | none => wp x.d false s
      | some d => wp x.d true (newSend d { bw := 64 * 2 ^ 32, ew := ew, vec := true, payload := vBytes s x.a } false s)) s) s)

/-- XCHG (R206): the receive is posted first; without room for both halves neither takes place, and with neither free the answer is that of the
receive, -1 (log 110). -/
def execXchg (x : R) (s : State) : Out :=
  .next (guarded x.g x.n (fun s =>
    let rbw := (rg s x.d).toNat
    let sbw := (rg s x.a).toNat
    let ew := (rg s x.b).toNat
    checked (bwChecks sbw ++ bwChecks rbw ++ [(ewBad s.t ew false false, tr cGroup)]) (fun s =>
      match freeRecvs s.t, freeSend s.t with
      | [], _ => wg x.d (BitVec.ofInt 64 (-1)) s
      | _, none => wg x.d (BitVec.ofInt 64 (-2)) s
      | k :: _, some d =>
        let s := postRecv s.cur k rbw ew 0xFFFFFFFF false s
        let h := handleOf s.t k
        wg x.d (BitVec.ofNat 64 h) (newSend d (bufSend s.t sbw ew false false false) false s)) s) s)

/-- The snapshot of SQUERY (R207). -/
def squeryWord (t : Tile) (n : Nat) : Nat :=
  let held := t.net.heldq.filter fun h => match h with | .send _ => true | _ => false
  let rel := t.net.sends.filter fun e => decide (2 ≤ e.2.state)
  if n = 0 then
    64 - t.net.sends.length + held.length * 2 ^ 8 + rel.length * 2 ^ 16 + b2n t.task.run.exposed * 2 ^ 24 + b2n (!t.net.blocked.isEmpty) * 2 ^ 25
  else if n = 1 then
    (freeRecvs t).length + (128 - t.net.unexp.length) * 2 ^ 16 + ((preSys t).trsize.toNat / 256 - t.net.cells.length) * 2 ^ 32
  else t.net.trnack + t.net.rtrunc * 2 ^ 16 + t.net.strunc * 2 ^ 32

/-- SQUERY (R207): n = 3 clears the three counts. -/
def execSquery (x : R) (s : State) : Out :=
  .next (guarded x.g x.n (fun s =>
    let n := x.b
    let v := squeryWord s.t n
    wg x.d (BitVec.ofNat 64 v)
      (if n = 3 then s.onT fun t => { t with net := { t.net with trnack := 0, rtrunc := 0, strunc := 0 } } else s)) s)

end Sys2Proof.Machine
end

