-- ==== Sys2Proof/Machine/MessageUnit.lean ====
section
/-!
DEFINITION. Sys2Proof/Machine/MessageUnit.lean: the network interface's own steps: releases (R199, R244), arrivals (R191 to
R196), refusal and resumption (R193, R194), and the parking of packets for an absent context (R210, R382).
-/

namespace Sys2Proof.Machine

/-! ## Releases (R188, R244) -/

/-- Whether a tile's network interface may send at all (R432, R433). -/
def sends (t : Tile) : Bool := t.resident && engLive t

/-- Whether an earlier released send goes to the same place. -/
def sendBefore (t : Tile) (d dest : Nat) : Bool :=
  (t.net.outq.takeWhile (· != .send d)).any fun h => match h with
    | .send e => (FMap.get ({} : Send) t.net.sends e).dest == dest
    | _ => false

/-- The UE port's place that a remote endpoint reference names (R240). -/
def uePort (dev ref : Nat) : Nat := 2 ^ 31 + dev * 2048 + bits ref 10 9 * 512 + 88 + ref % 2

/-- A message of a descriptor on its way, through a UE port where the rank is a remote endpoint (R213). -/
def sendMsg (p : Nat) (x : Send) (m : Msg) (s : State) : State :=
  launchAt p x.rtime { m with
    dst := x.dest, grp := ewGrp x.ew, tag := ewTag x.ew, relaxed := x.rel, ctl := x.ctl
    ue := if ueRef x.dest then some (uePort s.dev x.dest) else none } s

/-- The length of a descriptor's message. -/
def sendLen (x : Send) : Nat := if x.vec then 64 else bwLen x.bw

/-- Bytes of a descriptor's source, with their poison (R196, R212): read when the packet that carries them leaves, but for the sectors that have
been read early (log 31, log 99). -/
def sourceBytes (p : Nat) (x : Send) (off n : Nat) (s : State) : List Byte × Bool × State :=
  if x.vec then ((x.payload.drop off).take n, false, s)
  else if n = 0 then ([], false, s) else engineReadE x.early p (bwOff x.bw + off) n s

/-- EARLY READ: the network interface reads sector `k` before the rest of the source of a released send whose packets have not left (R212, R297). -/
def earlySend (p d k : Nat) (s : State) : State :=
  let x := FMap.get ({} : Send) (s.tile p).net.sends d
  if sends (s.tile p) && (x.state == 2 || x.state == 3) && !x.vec then
    s.onTile p fun t => setSend d (fun x => { x with early := x.early.take t k }) t
  else s

/-- The header of a released descriptor emitted (R199): EAGER with its payload, or RTS. -/
def emitSend (p d : Nat) (s : State) : State :=
  let x := FMap.get ({} : Send) (s.tile p).net.sends d
  let s := s.onTile p fun t =>
    let t := setSend d (fun x => { x with state := 3, answered := false, refseq := t.net.eseq, early := if x.rdv then x.early else {} }) t
    { t with net := { t.net with eseq := t.net.eseq + 1, outq := t.net.outq.filter (· != .send d) } }
  if x.rdv then sendMsg p x { kind := .rts, len := sendLen x, sdesc := d } s
  else
    let r := sourceBytes p x 0 (sendLen x) s
    sendMsg p x { kind := .eager, len := sendLen x, sdesc := d, payload := r.1, poison := r.2.1 } r.2.2

/-- A refused message sent again as an RTS with RESUME (R193). -/
def emitResume (p d : Nat) (s : State) : State :=
  let x := FMap.get ({} : Send) (s.tile p).net.sends d
  sendMsg p x { kind := .rts, len := sendLen x, sdesc := d, resume := true }
    (s.onTile p (setSend d fun x => { x with state := 3, answered := false, resume := true, rdv := true, retry := 0 }))

/-- Whether every message already sent to a place has been answered (R193 step 2). -/
def allAnswered (t : Tile) (dest : Nat) : Bool :=
  !(t.net.sends.any fun e => e.2.dest == dest && e.2.res && e.2.state == 3 && !e.2.answered)

/-- Whether a refused message is the first of its place (R193 step 3). -/
def firstRefused (t : Tile) (x : Send) : Bool :=
  t.net.sends.all fun e => !(e.2.state == 5 && e.2.dest == x.dest && decide (e.2.refseq < x.refseq))

/-- SEND_EMIT (R199, R193, R244): a released descriptor to a place that is not blocked is emitted, in release order towards each
place; the first refused one is resumed once everything sent to its place has been answered. -/
def execSendEmit (p k : Nat) (s : State) : Out :=
  .next (if !sends (s.tile p) then s
  else
    let s := resolveOut p s
    let t := s.tile p
    let x := FMap.get ({} : Send) t.net.sends k
    if x.state = 2 && x.res && t.net.outq.contains (.send k) && !heldBack t (.send k) && !NSet.mem t.net.blocked x.dest
        && !sendBefore t k x.dest then emitSend p k s
    else if x.state = 5 && !x.resume && allAnswered t x.dest && firstRefused t x then emitResume p k s
    else s)

/-- RESUME_RETRY (R193 step 4): a refused RESUME goes again 1 µs after its refusal. -/
def execResumeRetry (p d : Nat) (s : State) : Out :=
  let x := FMap.get ({} : Send) (s.tile p).net.sends d
  .next (if sends (s.tile p) && x.state == 5 && x.resume && decide (x.retry ≤ s.gtime) then emitResume p d s else s)

/-! ## Refusal (R194) -/

/-- A refused message counted for its source. -/
def countRefusal (src : Nat) (t : Tile) : Tile :=
  let n := t.net
  let c := FMap.get 0 n.refusal src
  let n := { n with trnack := sat16 n.trnack }
  { t with net := if c ≠ 0 ∨ n.refusal.length < 64 then { n with refusal := FMap.set 0 n.refusal src (c + 1) }
                  else { n with overflow := n.overflow + 1 } }

/-- A resumed message of a source taken off its count. -/
def uncountRefusal (src : Nat) (t : Tile) : Tile :=
  let c := FMap.get 0 t.net.refusal src
  { t with net := if c ≠ 0 then { t.net with refusal := FMap.set 0 t.net.refusal src (c - 1) }
                  else { t.net with overflow := t.net.overflow - 1 } }

/-- POOL_FULL to a message's source. -/
def refuse (p : Nat) (m : Msg) (count : Bool) (s : State) : State :=
  launch p { kind := .poolFull, grp := m.grp, dst := m.src, sdesc := m.sdesc, ctl := m.ctl }
    (if count then s.onTile p (countRefusal m.src) else s)

/-- The envelope of a message. -/
def msgEw (m : Msg) : Nat := m.tag * 2 ^ 32 + m.grp * 2 ^ 20 + m.srank

/-- The transit of a message at its header's arrival (R436). -/
def transitOf (s : State) (m : Msg) : Nat :=
  let d := (s.gtime % 2 ^ 32 + 2 ^ 32 - m.stime) % 2 ^ 32
  if 2 ^ 31 ≤ d then 0 else d

/-- The free trough cells, the lowest first. -/
def freeCells (t : Tile) : List Nat := (List.range (t.sys.trsize.toNat / 256)).filter fun c => !NSet.mem t.net.cells c

/-- Cells that a payload needs (R191). -/
def cellsFor (len : Nat) : Nat := (len + 255) / 256

/-- Whether a header finds its resources (R191, R194). -/
def hasRoom (t : Tile) (m : Msg) : Bool :=
  (matchRecv t (msgEw m)).isSome
    || ((freeKey t.net.unexp 128).isSome && (m.kind == .rts || decide (cellsFor m.len ≤ (freeCells t).length)))

/-- A payload's pieces by cells. -/
def cellPieces (base : Nat) (cells : List Nat) (d : List Byte) : List (Nat × List Byte) :=
  (List.range cells.length).map fun i => (base + 256 * cells.getD i 0, (d.drop (256 * i)).take 256)

/-- An EAGER message accepted (R191). -/
def acceptEager (p : Nat) (m : Msg) (s : State) : State :=
  let t := s.tile p
  match matchRecv t (msgEw m) with
  | some (k, r) =>
    let s := launch p { kind := .eack, grp := m.grp, dst := m.src, len := m.len, acc := Nat.min m.len (bwLen r.bw), sdesc := m.sdesc, ctl := m.ctl } s
    let s := s.onTile p (joinRecv k (msgEw m) m.len m.src (transitOf s m) m.sdesc m.ctl 1)
    endRecv p k (recvWrite [] p k 0 m.payload m.poison s)
  | none =>
    let j := (freeKey t.net.unexp 128).getD 0
    let cells := (freeCells t).take (cellsFor m.len)
    let s := launch p { kind := .eack, grp := m.grp, dst := m.src, len := m.len, acc := m.len, sdesc := m.sdesc, ctl := m.ctl } s
    let u : Unexp := { ew := msgEw m, length := m.len, src := m.src, seq := t.net.useq, sdesc := m.sdesc, relaxed := m.relaxed,
                       poison := m.poison, state := 1, cells := cells, transit := transitOf s m, ctl := m.ctl }
    s.onTile p fun t =>
      let t := t.writeAll (cellPieces t.sys.trbase.toNat cells m.payload) false m.poison
      { t with net := { t.net with unexp := FMap.put t.net.unexp j u, cells := NSet.addAll t.net.cells cells,
                                   useq := t.net.useq + 1 } }

/-- An RTS accepted (R192). -/
def acceptRts (p : Nat) (m : Msg) (s : State) : State :=
  let t := s.tile p
  match matchRecv t (msgEw m) with
  | some (k, _) => grantRts p k (s.onTile p (joinRecv k (msgEw m) m.len m.src (transitOf s m) m.sdesc m.ctl 2))
  | none =>
    let j := (freeKey t.net.unexp 128).getD 0
    let u : Unexp := { ew := msgEw m, length := m.len, src := m.src, seq := t.net.useq, sdesc := m.sdesc, relaxed := m.relaxed,
                       state := 2, transit := transitOf s m, ctl := m.ctl }
    launch p { kind := .rack, grp := m.grp, dst := m.src, sdesc := m.sdesc, ctl := m.ctl }
      (s.onTile p fun t => { t with net := { t.net with unexp := FMap.put t.net.unexp j u, useq := t.net.useq + 1 } })

/-- The receiver's decision on a header (R194). -/
def header (f : Nat → Msg → State → State) (p : Nat) (m : Msg) (s : State) : State :=
  let t := s.tile p
  if m.resume then (if hasRoom t m then f p m (s.onTile p (uncountRefusal m.src)) else refuse p m false s)
  else if FMap.get 0 t.net.refusal m.src ≠ 0 ∨ t.net.overflow ≠ 0 then refuse p m true s
  else if hasRoom t m then f p m s
  else refuse p m true s

/-- EARLY WRITE of an EAGER message that finds its receive: its header is taken, and a block of its bytes written before the others; the rest of it
follows at its arrival (R191, R297). -/
def earlyEager (p n k : Nat) (m : Msg) (s : State) : State :=
  let t := s.tile p
  match matchRecv t (msgEw m) with
  | some (j, r) =>
    if m.len = 0 || FMap.get 0 t.net.refusal m.src != 0 || t.net.overflow != 0 then s
    else
      let s := launch p { kind := .eack, grp := m.grp, dst := m.src, len := m.len, acc := Nat.min m.len (bwLen r.bw), sdesc := m.sdesc, ctl := m.ctl }
        (checkSeq p m s)
      let s := s.onTile p (joinRecv j (msgEw m) m.len m.src (transitOf s m) m.sdesc m.ctl 1)
      let x := recvEarly [] p j 0 m.payload m.poison k s
      x.2.onFab fun f => { f with net := setAt f.net n { m with handle := handleOf (s.tile p) j, wrote := x.1 } }
  | none => s

/-- A message whose header has been taken: the rest of its bytes, and the end of its receive. -/
def restEager (p : Nat) (m : Msg) (s : State) : State :=
  endRecv p (m.handle % 256) (recvWrite m.wrote p (m.handle % 256) 0 m.payload m.poison s)

/-- A header arrives; a replayed one that finds no room stays first in the replay (R210). -/
def headerArrival (n : Nat) (k : MKind) (f : Nat → Msg → State → State) (s : State) : State :=
  match arrival s n (· == k) with
  | some (p, m) =>
    if !m.wrote.isEmpty then restEager p m (take n s)
    else if m.replay != 0 && !hasRoom (s.tile p) m then s
    else arrive n (· == k) (header f) s
  | none => s

/-- EAGER_ARRIVAL (R191, R194). -/
def execEagerArrival (n : Nat) (s : State) : Out := .next (headerArrival n .eager acceptEager s)

/-- RTS_ARRIVAL (R192, R194). -/
def execRtsArrival (n : Nat) (s : State) : Out := .next (headerArrival n .rts acceptRts s)

/-- The payload of an unexpected entry as its cells hold it, and whether it carries poison: its own or that of its cells' sectors. -/
def troughBytes (t : Tile) (u : Unexp) : List Byte × Bool :=
  ((u.cells.flatMap fun c => Mem.bytes t.sram (t.sys.trbase.toNat + 256 * c) 256).take u.length,
   u.poison || (List.range u.cells.length).any fun i =>
     t.poisoned (t.sys.trbase.toNat + 256 * u.cells.getD i 0) (Nat.min 256 (u.length - 256 * i)))

/-- EARLY WRITE of the copy from the trough: a block of the receive's buffer before the others (R191, R297). -/
def earlyTrough (p k n : Nat) (s : State) : State :=
  let t := s.tile p
  let u := FMap.get ({} : Unexp) t.net.unexp k
  if u.state = 3 && sends t then
    let d := troughBytes t u
    let x := recvEarly u.wrote p u.taker 0 d.1 d.2 n s
    x.2.onTile p fun t => { t with net := { t.net with unexp := FMap.put t.net.unexp k { u with wrote := x.1 } } }
  else s

/-- TROUGH_COPY_DONE (R191): the payload of unexpected entry `k` stands in the receive's buffer, with the poison of its cells'
sectors; its cells are free. -/
def execTroughCopyDone (p k : Nat) (s : State) : Out :=
  let t := s.tile p
  let u := FMap.get ({} : Unexp) t.net.unexp k
  .next (if u.state = 3 && sends t then
    let d := troughBytes t u
    let s := recvWrite u.wrote p u.taker 0 d.1 d.2 s
    endRecv p u.taker (s.onTile p fun t => dropUnexp k { t with net := { t.net with cells := NSet.delAll t.net.cells u.cells } })
  else s)

/-! ## Rendezvous (R192) -/

/-- Byte `o` of a message among the DATA bytes held, with its poison. -/
def heldByte (l : List (Nat × List Byte × Bool)) (o : Nat) : Option (Byte × Bool) :=
  (l.find? fun e => decide (e.1 ≤ o) && decide (o < e.1 + e.2.1.length)).bind fun e => (elemAt e.2.1 (o - e.1)).map fun b => (b, e.2.2)

/-- The part of a receive's stored bytes in block `b` of `g` bytes: the offset in the message and the length. -/
def blockPart (g : Nat) (r : Recv) (b : Nat) : Nat × Nat :=
  let a := bwOff r.bw
  let acc := Nat.min r.length (bwLen r.bw)
  let lo := Nat.max (g * b) a
  (lo - a, Nat.min (g * b + g) (a + acc) - lo)

/-- The bytes of such a block where all of them have arrived: their offset in the message, the bytes, and whether they carry poison. -/
def wholeBlock (g : Nat) (r : Recv) (b : Nat) : Option (Nat × List Byte × Bool) :=
  let e := blockPart g r b
  let l := (List.range e.2).filterMap fun i => heldByte r.held (e.1 + i)
  if l.length = e.2 then some (e.1, l.map (·.1), l.any (·.2)) else none

/-- A receive with a DATA packet's bytes among those held. -/
def withData (m : Msg) (r : Recv) : Recv := { r with state := 3, held := r.held ++ [(m.off, m.payload, m.poison)] }

/-- A DATA packet's bytes: every sector of the buffer whose bytes have now all arrived is written as one event (R196), or every word of a message
that came by a UE port, where the sector's bits change with its last word (R213). -/
def dataWrite (p k : Nat) (m : Msg) (s : State) : State :=
  let s := s.onTile p (setRecv k (withData m))
  let r := FMap.get ({} : Recv) (s.tile p).net.recvs k
  let g := grain r.src
  let s := (blocksOf g [(bwOff r.bw + m.off, m.payload)]).foldl (fun s b =>
    match wholeBlock g r b with
    | some x => recvPut (r.fe && g == 32) (if NSet.mem m.wrote b then NSet.add [] b else []) p k x.1 x.2.1 x.2.2 s
    | none => s) s
  if g = 32 then s
  else
    (sectorsOf (bwOff r.bw + m.off) m.payload.length).foldl (fun s sec =>
      match wholeBlock 32 r sec with
      | some x => s.onTile p (Tile.sectorFlags [(bwOff r.bw + x.1, x.2.1)] r.fe x.2.2)
      | none => s) s

/-- EARLY WRITE of a DATA packet: one of the blocks that it completes is written before the others (R196, R297). -/
def earlyPacket (p n k : Nat) (m : Msg) (s : State) : State :=
  match entryOf (s.tile p) m.handle with
  | some (_, r) =>
    let r := withData m r
    let g := grain r.src
    if entryOf (s.tile p) m.handle |>.any fun e => e.2.state = 2 ∨ e.2.state = 3 then
      match elemAt ((blocksOf g [(bwOff r.bw + m.off, m.payload)]).filter fun b => (wholeBlock g r b).isSome && !NSet.mem m.wrote b) k with
      | some b => match wholeBlock g r b with
        | some x =>
          (engineWriteOne g b p [(bwOff r.bw + x.1, x.2.1)] r.fe x.2.2 s).onFab fun f =>
            { f with net := setAt f.net n { m with wrote := NSet.add m.wrote b } }
        | none => s
      | none => s
    else s
  | none => s

/-- EARLY WRITE of a block of the message at position `n`, which is due at its tile. -/
def earlyMessage (n k : Nat) (s : State) : State :=
  match arrival s n fun x => x == .eager || x == .data with
  | some (p, m) =>
    if m.kind == .data then earlyPacket p n k m s
    else if m.wrote.isEmpty then earlyEager p n k m s
    else
      let x := recvEarly m.wrote p (m.handle % 256) 0 m.payload m.poison k s
      x.2.onFab fun f => { f with net := setAt f.net n { m with wrote := x.1 } }
  | none => s

/-- DATA_ARRIVAL (R192, R196): after the last byte DACK and the end of the receive. -/
def execDataArrival (n : Nat) (s : State) : Out :=
  .next (arrive n (· == .data) (fun p m s =>
    match entryOf (s.tile p) m.handle with
    | some (k, r) =>
      if r.state = 2 ∨ r.state = 3 then
        let s := dataWrite p k m s
        let r := FMap.get ({} : Recv) (s.tile p).net.recvs k
        let acc := Nat.min r.length (bwLen r.bw)
        if r.done = acc then
          endRecv p k (launch p { kind := .dack, grp := ewGrp r.ew, dst := r.src, len := r.length, acc := acc, sdesc := r.sdesc, ctl := r.ctl } s)
        else s
      else s
    | none => s) s)

/-- The last resumed message of a place has been answered: the place is unblocked (R193 step 5). -/
def unblock (dest : Nat) (t : Tile) : Tile :=
  if allAnswered t dest && !(t.net.sends.any fun e => e.2.state == 5 && e.2.dest == dest)
  then { t with net := { t.net with blocked := NSet.del t.net.blocked dest } } else t

/-- A descriptor's header answered by RACK or CTS. -/
def answered (p d : Nat) (s : State) : State :=
  let x := FMap.get ({} : Send) (s.tile p).net.sends d
  s.onTile p fun t =>
    let t := setSend d (fun x => { x with answered := true }) t
    if x.resume then unblock x.dest t else t

/-- The offsets and lengths of the DATA packets of an accepted length (R192). -/
def dataCuts (acc : Nat) : List (Nat × Nat) := (List.range ((acc + 255) / 256)).map fun i => (256 * i, Nat.min 256 (acc - 256 * i))

/-- CTS_ARRIVAL (R192, R199): the descriptor streams its DATA packets. -/
def execCtsArrival (n : Nat) (s : State) : Out :=
  .next (arrive n (· == .cts) (fun p m s =>
    let x := FMap.get ({} : Send) (s.tile p).net.sends m.sdesc
    if x.state = 3 then
      let s := answered p m.sdesc s
      let s := s.onTile p (setSend m.sdesc fun x => { x with state := 4, handle := m.handle, accepted := m.acc, sent := m.acc })
      (dataCuts m.acc).foldl (fun s e =>
        let r := sourceBytes p x e.1 e.2 s
        sendMsg p x { kind := .data, off := e.1, handle := m.handle, sdesc := m.sdesc, payload := r.1, poison := r.2.1 } r.2.2) s
    else s) s)

/-- A send completes (R195, R196): its counter, its descriptor freed. -/
def endSend (p : Nat) (m : Msg) (s : State) : State :=
  let x := FMap.get ({} : Send) (s.tile p).net.sends m.sdesc
  let s := s.onTile p fun t => { t with net := { t.net with
    sends := FMap.drop t.net.sends m.sdesc, strunc := if m.acc < m.len then sat16 t.net.strunc else t.net.strunc } }
  if !x.vec then decField p (bwCntf x.bw) s else s

/-- EACK_ARRIVAL (R196). -/
def execEackArrival (n : Nat) (s : State) : Out :=
  .next (arrive n (· == .eack) (fun p m s => if (FMap.get ({} : Send) (s.tile p).net.sends m.sdesc).state = 3 then endSend p m s else s) s)

/-- DACK_ARRIVAL (R196). -/
def execDackArrival (n : Nat) (s : State) : Out :=
  .next (arrive n (· == .dack) (fun p m s => if (FMap.get ({} : Send) (s.tile p).net.sends m.sdesc).state = 4 then endSend p m s else s) s)

/-- RACK_ARRIVAL (R199). -/
def execRackArrival (n : Nat) (s : State) : Out :=
  .next (arrive n (· == .rack) (fun p m s => if (FMap.get ({} : Send) (s.tile p).net.sends m.sdesc).state = 3 then answered p m.sdesc s else s) s)

/-- A descriptor refused (R193): it travels as a rendezvous from then on and its place is blocked; a refused RESUME is tried again
1 µs later. -/
def refused (p d : Nat) (s : State) : State :=
  let x := FMap.get ({} : Send) (s.tile p).net.sends d
  if x.state = 3 then
    if x.resume then s.onTile p (setSend d fun x => { x with state := 5, answered := true, retry := s.gtime + 1000 })
    else s.onTile p fun t =>
      let t := setSend d (fun x => { x with state := 5, answered := true, rdv := true, early := {} }) t
      { t with net := { t.net with blocked := NSet.add t.net.blocked x.dest } }
  else s

/-- POOL_FULL_ARRIVAL (R193). -/
def execPoolFullArrival (n : Nat) (s : State) : Out :=
  .next (arrive n (· == .poolFull) (fun p m s => refused p m.sdesc s) s)

/-- UE_DEFERRAL (R407): the deferral of a deferrable send to a remote place acts as POOL_FULL. -/
def execUeDeferral (p d : Nat) (s : State) : Out :=
  let x := FMap.get ({} : Send) (s.tile p).net.sends d
  .next (if sends (s.tile p) && ueRef x.dest then refused p d s else s)

/-- RWAIT_WAKE (R205). -/
def execRwaitWake (p : Nat) (s : State) : Out :=
  let t := s.tile p
  .next (wake p (fun w => match w with | .rwait h => recvOver t h | _ => false) s)

/-! ## Parking (R210, R382) -/

/-- The context and the bytes of a packet in the overflow store: its header and payload flits. -/
def Parked.cid : Parked → Nat
  | .msg m => m.cid
  | .reply m => m.cid
def Parked.bytes : Parked → Nat
  | .msg m => 32 + (m.payload.length + 31) / 32 * 32
  | .reply m => 32 + (if m.kind == .put || m.kind == .putd || m.kind == .posted || m.kind == .bfence then 0 else (m.len + 31) / 32 * 32)

/-- The bytes a context's overflow store holds. -/
def parkedBytes (c : Ctx) : Nat := c.parked.foldl (fun n m => n + m.bytes) 0

/-- Whether a context's overflow store takes one more packet. -/
def parkRoom (c : Ctx) (m : Parked) : Bool := decide (parkedBytes c + m.bytes ≤ c.overflowUnits * 2 ^ 21)

/-- Whether a tile place of the device is without the context that a packet is for. -/
def absent (s : State) (cid place : Nat) : Bool :=
  let t := s.tile (s.physOf cid place)
  place / 2048 == s.dev && !(t.resident && t.sys.cid == cid) && (s.ctx cid).st != .free

/-- The message at position `n`, where its path is done, its tile does not hold its context, and its turn has come. A barrier or a
collective's is no such message while its context's save drains that channel (R260, R342). -/
def parkableMsg (s : State) (n : Nat) : Option Parked :=
  match elemAt s.fab.net n with
  | some m =>
    if m.path.isEmpty && m.ue.isNone && m.kind != .chunk && !(isComb m.kind && m.port == 0) && absent s m.cid m.dst
        && !takesMsg (s.tile (s.physOf m.cid m.dst)) m && !replayFirst s m.cid m.dst m.replay
        && !((s.fab.net.take n).any (blocksArrival m)) then some (.msg m) else none
  | none => none

/-- The reply of a memory request at position `n`, whose requester is absent (R210, R295). -/
def parkableReply (s : State) (n : Nat) : Option Parked :=
  match elemAt s.fab.pkts n with
  | some m =>
    if (m.st == .answered || m.st == .faulted) && absent s m.cid m.place && !replayFirst s m.cid m.place m.replay then some (.reply m) else none
  | none => none

/-- The packet at position `n` among the messages and, after them, the packets of the memory edge, where it is to be parked. -/
def parkable (s : State) (n : Nat) : Option Parked :=
  if n < s.fab.net.length then parkableMsg s n else parkableReply s (n - s.fab.net.length)

/-- That packet gone. -/
def unqueue (n : Nat) (s : State) : State :=
  if n < s.fab.net.length then take n s else s.onFab fun f => { f with pkts := dropAt f.pkts (n - f.net.length) }

/-- PACKET_PARK (R210, R295, R382): the packet joins the overflow store; one scheduler trap in each Saved period. -/
def execPacketPark (n : Nat) (s : State) : Out :=
  .next (match parkable s n with
  | some m =>
    if parkRoom (s.ctx m.cid) m then (unqueue n s).onCtx m.cid fun c => { c with parked := c.parked ++ [m], schedTrap := true } else s
  | none => s)

/-- OVERFLOW_STORE_GROW (R382): a full store grows by a unit of function 0's reserve; past OVFSIZE units, or with the reserve empty, the context
faults and what it cannot park is discarded and counted. -/
def execOverflowStoreGrow (c : Nat) (s : State) : Out :=
  let x := s.ctx c
  let size := s.fab.net.length
  let stuck := (List.range (size + s.fab.pkts.length)).filter fun n =>
    match parkable s n with | some m => m.cid == c && !parkRoom x m | none => false
  .next (if stuck.isEmpty then s
  else if x.overflowUnits < x.ovfsize ∧ 0 < s.svc.units then
    { s with svc := { s.svc with units := s.svc.units - 1 } }.onCtx c fun x => { x with overflowUnits := x.overflowUnits + 1 }
  else
    let net := ((List.range size).filter fun n => !stuck.contains n).filterMap (elemAt s.fab.net)
    let pkts := ((List.range s.fab.pkts.length).filter fun n => !stuck.contains (size + n)).filterMap (elemAt s.fab.pkts)
    ((s.onFab fun f => { f with net := net, pkts := pkts }).onCtx c fun x => { x with lostParked := x.lostParked + stuck.length }).push [.ctxFault c])

end Sys2Proof.Machine
end

