-- ==== Sys2Proof/Machine/Barrier.lean ====
section
/-!
DEFINITION. Sys2Proof/Machine/Barrier.lean: barriers (R249 to R266): the combine entries of the switches, arrivals, releases and
cancels, and BARR, BBIND, BWAIT, BCANCEL.
-/

namespace Sys2Proof.Machine

/-! ## The combine tree (R254, R256) -/

/-- The logical places of a group's ranks (R239, R240). -/
def groupPlaces (g : Group) : List Nat :=
  (List.range g.size).map fun r => if g.kind = 1 then (affine g.base g.shape r).1 else g.list.getD r 0

/-- The level of a switch number. -/
def swLevel (sw : Nat) : Nat := sw / 2 ^ 32

/-- The level of a group's lowest common ancestor. -/
def groupLevel (s : State) (g : Group) : Nat :=
  let ps := groupPlaces g
  ps.foldl (fun l a => Nat.max l (lcaLevel s.svc.bw s.svc.rw (ps.headD 0) a)) 0

/-- The switch of a level above a logical place. -/
def swOf (s : State) (lv place : Nat) : Nat := switchAt s.svc.bw s.svc.rw lv place

/-- The number of a child under its switch: the logical port order of R328. -/
def childOf (s : State) (lv place : Nat) : Nat := if lv = 0 then place else swOf s (lv - 1) place

/-- The down ports of a switch below which a group has members, in ascending logical order (R254, R328). -/
def downPorts (s : State) (g : Group) (sw : Nat) : List Nat :=
  sortBy id (((groupPlaces g).filter fun a => swOf s (swLevel sw) a == sw).map (childOf s (swLevel sw))).eraseDups

/-- Every switch of a group's tree: those with a member below, up to the lowest common ancestor (R256). -/
def groupSwitches (s : State) (g : Group) : List Nat :=
  ((List.range (groupLevel s g + 1)).flatMap fun l => (groupPlaces g).map (swOf s l)).eraseDups

/-- The group's lowest common ancestor. -/
def groupRoot (s : State) (g : Group) : Nat := swOf s (groupLevel s g) ((groupPlaces g).headD 0)

/-- The key of a combine-table entry: number 0 to 15 for a barrier, 16 for the group's collectives. -/
def combKey (cid grp num sw : Nat) : Nat := ((cid * 256 + grp) * 32 + num) * 2 ^ 36 + sw

/-- A combine-table entry. -/
def combEnt (s : State) (cid grp num sw : Nat) : CombEnt := FMap.get {} s.fab.comb (combKey cid grp num sw)

/-- A combine-table entry replaced. -/
def setComb (cid grp num sw : Nat) (e : CombEnt) (s : State) : State :=
  s.onFab fun f => { f with comb := FMap.set {} f.comb (combKey cid grp num sw) e }

/-- A group as its context's table holds it. -/
def ctxGroup (s : State) (cid grp : Nat) : Group := FMap.get {} (s.ctx cid).groups grp

/-- The ports from a switch down to a member (R255). -/
def downPath (s : State) (cid sw place : Nat) : List Nat :=
  ((List.range (swLevel sw)).reverse.map fun l => portOfSwitch (swOf s l place)) ++ [portOfPlace (physPlace s cid place)]

/-- The ports from a tile up to the switch of a level. -/
def upPath (s : State) (cid lv place : Nat) : List Nat :=
  portOfPlace (physPlace s cid place) :: (List.range lv).map fun l => portOfSwitch (swOf s l place)

/-- A message that a switch or a tile puts on the control and combine channel, outside the channel sequences. -/
def inject (m : Msg) (s : State) : State := s.onFab fun f => { f with net := f.net ++ [m] }

/-- A message multicast to members of a group from its root (R253, R336). -/
def multicast (m : Msg) (ps : List Nat) (s : State) : State :=
  let root := groupRoot s (ctxGroup s m.cid m.grp)
  ps.foldl (fun s a => inject { m with dst := a, src := portOfSwitch root, path := downPath s m.cid root a, port := 1 } s) s

/-- A combine message at a switch: its path is done, and none of its source is before it. -/
def atSwitch (s : State) (n : Nat) (ok : MKind → Bool) : Option Msg :=
  match elemAt s.fab.net n with
  | some m =>
    if ok m.kind && m.path.isEmpty && m.port == 0
        && !((s.fab.net.take n).any fun o => o.src == m.src && o.cid == m.cid && o.sw == m.sw && vcOf o == 3 && o.port == 0) then some m
    else none
  | none => none

/-- A packet that a switch has no entry for is discarded and reported as a link fault (R255, R208). -/
def misrouted (m : Msg) (s : State) : State := s.push [.ctxFault m.cid]

/-! ## Records (R252, R253) -/

/-- The key of a tile's barrier record. -/
def barKey (slot num : Nat) : Nat := 16 * slot + num

/-- A tile's barrier record. -/
def barRec (t : Tile) (k : Nat) : BarRec := FMap.get {} t.comm.bars k

/-- A record changed. -/
def setBar (k : Nat) (r : BarRec) (t : Tile) : Tile := { t with comm := { t.comm with bars := FMap.put t.comm.bars k r } }

/-- The barrier word of a record (R251). -/
def barWord (r : BarRec) : Nat := r.status * 2 ^ 32 + r.gen

/-- Whether a record takes a release of a status (R266): OK only once its arrival is released, CANCELLED unless it is Cancelled or Aborted,
CONTEXT-ABORT always. -/
def takesRelease (r : BarRec) (status : Nat) : Bool :=
  status == 2 || (r.status == 0 && (status != 0 || r.arrived == 2))

/-- A release reaches a record (R253): the record, the bound word with its Full bit, the counter; an arrival that has not left is discarded. -/
def releaseRec (p k status : Nat) (s : State) : State :=
  let r := barRec (s.tile p) k
  let r' := { r with gen := (r.gen + 1) % 2 ^ 32, status := status, arrived := 0 }
  let s := s.onTile p fun t =>
    let t := setBar k r' t
    let other (h : Held) : Bool := match h with | .arrive k' _ => k' != k | _ => true
    { t with net := { t.net with heldq := t.net.heldq.filter other, outq := t.net.outq.filter other } }
  match r.bind with
  | some (o, cntf) => decField p cntf (engineWrite p o (natLe 8 (barWord r')) true false s)
  | none => s

/-- A release reaches a record that takes it; any other is discarded (R266). -/
def acceptRelease (p k status : Nat) (s : State) : State :=
  if takesRelease (barRec (s.tile p) k) status then releaseRec p k status s else s

/-- BARRIER_RELEASE_DELIVERY (R253). -/
def execBarrierReleaseDelivery (n : Nat) (s : State) : Out :=
  .next (match arrival s n (· == .release) with
  | some (p, m) =>
    match memberOf (s.tile p) m.grp with
    | some (slot, e) => if m.num < e.desc.nb then acceptRelease p (barKey slot m.num) m.status (take n s) else misrouted m (take n s)
    | none => misrouted m (take n s)
  | none => s)

/-! ## Counting at the switches (R254, R258) -/

/-- The release of a barrier to every member. -/
def issueRelease (cid grp num status : Nat) (s : State) : State :=
  multicast { kind := .release, cid := cid, grp := grp, num := num, status := status } (groupPlaces (ctxGroup s cid grp)) s

/-- An arrival of a parity counted by an entry: the entry, and whether its count has reached EXP. -/
def countArrival (e : CombEnt) (parity : Nat) : CombEnt × Bool :=
  let c := (if parity = 0 then e.c0 else e.c1) + 1
  let c' := if c = e.exp then 0 else c
  (if parity = 0 then { e with c0 := c' } else { e with c1 := c' }, c == e.exp)

/-- BARRIER_ARRIVE_AT_SWITCH (R254): the count of the parity; at EXP one arrival goes up, or at the root the release down. -/
def execBarrierArriveAtSwitch (n : Nat) (s : State) : Out :=
  .next (match atSwitch s n (· == .arrive) with
  | some m =>
    let s := take n s
    let g := ctxGroup s m.cid m.grp
    let e := combEnt s m.cid m.grp m.num m.sw
    if e.exp = 0 then misrouted m s
    else if e.cancelled then s
    else
      let c := countArrival e m.parity
      let s := setComb m.cid m.grp m.num m.sw c.1 s
      if !c.2 then s
      else if m.sw = groupRoot s g then issueRelease m.cid m.grp m.num 0 s
      else
        let up := swOf s (swLevel m.sw + 1) m.dst
        inject { m with sw := up, src := portOfSwitch m.sw, path := [portOfSwitch m.sw] } s
  | none => s)

/-- BARRIER_CANCEL_AT_LCA (R258). -/
def execBarrierCancelAtLca (n : Nat) (s : State) : Out :=
  .next (match atSwitch s n (· == .cancel) with
  | some m =>
    let s := take n s
    let g := ctxGroup s m.cid m.grp
    let e := combEnt s m.cid m.grp m.num m.sw
    if e.exp = 0 then misrouted m s
    else if e.cancelled then s
    else
      let s := (groupSwitches s g).foldl (fun s sw =>
        setComb m.cid m.grp m.num sw { combEnt s m.cid m.grp m.num sw with c0 := 0, c1 := 0, cancelled := sw == m.sw } s) s
      issueRelease m.cid m.grp m.num 1 s
  | none => s)

/-! ## Leaving the tile -/

/-- An arrival leaves tile `p` (R254): to its cluster switch, or for a group of one member straight to its own release. `dst` holds
the sender's place, from which the switches on its way follow; the destination field of the header is zero (R255). -/
def sendArrive (p k : Nat) (s : State) : State :=
  let t := s.tile p
  match FMap.get none (t.comm.slots.map fun e => (e.1, some e.2)) (k / 16) with
  | some e =>
    let r := barRec t k
    if e.desc.size = 1 then acceptRelease p k 0 s
    else
      let me := s.placeOf p
      inject { kind := .arrive, cid := t.sys.cid, grp := e.grp, srank := e.rank, num := k % 16, parity := r.gen % 2, src := me, dst := me,
               sw := swOf s 0 me, path := [portOfPlace (physPlace s t.sys.cid me)] } s
  | none => s

/-- A cancel leaves tile `p` for the root (R258, R265). -/
def sendCancel (p grp num : Nat) (s : State) : State :=
  let t := s.tile p
  let me := s.placeOf p
  let g := ctxGroup s t.sys.cid grp
  inject { kind := .cancel, cid := t.sys.cid, grp := grp, srank := ownRank t grp, num := num, src := me, dst := me, sw := groupRoot s g,
           path := upPath s t.sys.cid (groupLevel s g) me } s

/-! ## The instructions -/

/-- The fields of a barrier identifier (R250). -/
def barGrp (a : W64) : Nat := bits a.toNat 7 0
def barNum (a : W64) : Nat := bits a.toNat 11 8

/-- The number of barriers of a group the tile is a member of (R249). -/
def groupNb (t : Tile) (grp : Nat) : Nat := match memberOf t grp with | some (_, m) => m.desc.nb | none => 0

/-- The checks of a barrier identifier (R250). -/
def barChecks (s : State) (a : W64) : List (Bool × TrapInfo) :=
  [(decide (a.toNat ≥ 4096), tr cIllegalOp), (groupBad s.t (barGrp a) || decide (groupNb s.t (barGrp a) ≤ barNum a), tr cGroup)]

/-- The record an identifier names. -/
def barKeyOf (t : Tile) (a : W64) : Nat := match memberOf t (barGrp a) with | some (slot, _) => barKey slot (barNum a) | none => 0

/-- BARR (R262). -/
def execBarr (x : R) (s : State) : Out :=
  .next (guarded x.g x.n (fun s =>
    let a := rg s x.a
    checked (barChecks s a) (fun s =>
      let k := barKeyOf s.t a
      let r := barRec s.t k
      if r.status ≠ 0 then wg x.d 2 s
      else if r.arrived ≠ 0 then wg x.d 1 s
      else wg x.d 0 (holdAt s.cur (.arrive k s.t.mreq.seq) (s.onT (setBar k { r with arrived := 1 })))) s) s)

/-- The checks of BBIND's binding word (R263). -/
def bindChecks (b : Nat) : List (Bool × TrapInfo) :=
  let d := b % 2 ^ 32
  [(bits b 55 32 != 0, tr cIllegalOp), (bits b 31 24 != 0 || cntfBad (bits b 63 56), tr cWindow d),
   (bits b 23 21 != 0, tr cLocalRange d), (b % 8 != 0, tr cAlign d)]

/-- BBIND (R263): a binding word of 0 removes the binding and writes nothing; a write of the word leaves FULL as it is. -/
def execBbind (x : R) (s : State) : Out :=
  .next (guarded x.g x.n (fun s =>
    let a := rg s x.a
    let b := (rg s x.b).toNat
    checked (barChecks s a ++ bindChecks b) (fun s =>
      let k := barKeyOf s.t a
      let r := barRec s.t k
      let w := barWord r
      let s :=
        if b = 0 then s.onT (setBar k { r with bind := none })
        else engineWrite s.cur (bits b 20 0) (natLe 8 w) false false (s.onT (setBar k { r with bind := some (bits b 20 0, bits b 63 56) }))
      wg x.d (BitVec.ofNat 64 w) s) s) s)

/-- Whether the task holds the arrival of a record. -/
def holdsArrival (t : Tile) (k : Nat) : Bool := t.net.heldq.any fun h => match h with | .arrive k' _ => k' == k | _ => false

/-- BWAIT (R264): a held arrival is released with the task's held sends, as TCOMMIT does; then the wait. -/
def execBwait (x : R) (s : State) : Out :=
  .next (guarded x.g x.n (fun s =>
    let a := rg s x.a
    checked (barChecks s a) (fun s =>
      let k := barKeyOf s.t a
      let s := if holdsArrival s.t k then (releaseHeld s.cur s).onT expose else s
      let r := barRec s.t k
      let gen := (rg s x.b).toNat % 2 ^ 32
      if r.gen ≠ gen ∨ r.status ≠ 0 then wg x.d (BitVec.ofNat 64 (barWord r)) s else stall (.bwait k gen) s) s) s)

/-- BWAIT_RELEASE (R264). -/
def execBwaitRelease (p : Nat) (s : State) : Out :=
  let t := s.tile p
  .next (wake p (fun w => match w with
    | .bwait k gen => (barRec t k).gen != gen || (barRec t k).status != 0
    | _ => false) s)

/-- BCANCEL (R265). -/
def execBcancel (x : R) (s : State) : Out :=
  .next (guarded x.g x.n (fun s =>
    let a := rg s x.a
    checked (barChecks s a) (fun s =>
      if (barRec s.t (barKeyOf s.t a)).status ≠ 0 then wg x.d 1 s
      else wg x.d 0 ((sendCancel s.cur (barGrp a) (barNum a) s).onT expose)) s) s)

end Sys2Proof.Machine
end

