-- ==== Sys2Proof/Machine/Collective.lean ====
section
/-!
DEFINITION. Sys2Proof/Machine/Collective.lean: collectives (R327 to R341): the combine steps, the chunks on their way up and down,
aborts, and CRED, CARED, CBCAST, CSTART, CABORT.
-/

namespace Sys2Proof.Machine

/-! ## Values (R327, R329) -/

/-- Bytes of an element in storage. -/
def elSize (ty : Nat) : Nat := if ty = 1 then 2 else 4

/-- An element as it travels: FP32, or 48-bit two's complement. -/
def wireVal (ty raw : Nat) : Nat := if ty = 1 then widen bf16 raw else if ty = 2 then wrapN 48 (sext raw 32) else raw

/-- The status flags of R337. -/
def sOvf : Nat := 1
def sSat : Nat := 2
def sNv : Nat := 4
def sPsn : Nat := 8

/-- A float combine step with its flags (R327, R329). -/
def combineF (op a b : Nat) : Nat × Nat :=
  let x := f32.unpack a
  let y := f32.unpack b
  let r := if op = 0 then (f32.finish 0 (FV.sum 0 [x, y])).1 else (fpMinMax f32 (op == 2) a b).1
  let z := f32.unpack r
  (r, (if z.isInf && !x.isInf && !y.isInf && !x.isNan && !y.isNan then sOvf else 0) + (if z.isNan && !x.isNan && !y.isNan then sNv else 0))

/-- A 48-bit integer combine step with its flags (R327). -/
def combineI (op a b : Nat) : Nat × Nat :=
  let x := sext a 48
  let y := sext b 48
  if op = 0 then
    let t := x + y
    let c : Int := if t < -(2 ^ 47) then -(2 ^ 47) else if t > 2 ^ 47 - 1 then 2 ^ 47 - 1 else t
    (wrapN 48 c, if c = t then 0 else sSat)
  else if op = 1 then (if y < x then b else a, 0)
  else if op = 2 then (if x < y then b else a, 0)
  else if op = 3 then (Nat.land a b, 0)
  else if op = 4 then (Nat.lor a b, 0)
  else (Nat.xor a b, 0)

/-- One combine step. -/
def combine (ty op a b : Nat) : Nat × Nat := if ty = 2 then combineI op a b else combineF op a b

/-- Two chunks folded element by element; a chunk without values stands for a member that adds none (CBCAST). -/
def foldChunk (ty op : Nat) (a b : List Nat × Nat × Bool) : List Nat × Nat × Bool :=
  if b.1.isEmpty then (a.1, Nat.lor a.2.1 b.2.1, a.2.2 || b.2.2)
  else if a.1.isEmpty then (b.1, Nat.lor a.2.1 b.2.1, a.2.2 || b.2.2)
  else
    let l := (a.1.zip b.1).map fun e => combine ty op e.1 e.2
    (l.map (·.1), l.foldl (fun f e => Nat.lor f e.2) (Nat.lor a.2.1 b.2.1), a.2.2 || b.2.2)

/-- An element as it is delivered to storage, with its flags (R329). -/
def delivered (ty v : Nat) : Nat × Nat :=
  if ty = 1 then
    let x := f32.unpack v
    let r := (bf16.finish 0 (x, false)).1
    (r, if (bf16.unpack r).isInf && !x.isInf then sOvf else 0)
  else if ty = 2 then
    let x := sext v 48
    let c : Int := if x < -(2 ^ 31) then -(2 ^ 31) else if x > 2 ^ 31 - 1 then 2 ^ 31 - 1 else x
    (wrapN 32 c, if c = x then 0 else sSat)
  else (v, 0)

/-! ## Records -/

/-- The key of a tile's collective record. -/
def collKey (slot id : Nat) : Nat := 64 * slot + id

/-- A tile's collective record. -/
def collRec (t : Tile) (k : Nat) : Coll := FMap.get {} t.comm.colls k

/-- A record changed. -/
def setColl (k : Nat) (f : Coll → Coll) (t : Tile) : Tile :=
  { t with comm := { t.comm with colls := FMap.set {} t.comm.colls k (f (collRec t k)) } }

/-- The membership a record's key stands for. -/
def memberAt (t : Tile) (slot : Nat) : Member := FMap.get {} t.comm.slots slot

/-- Chunks of 32 elements. -/
def chunksOf (count : Nat) : Nat := (count + 31) / 32

/-- The status word written and the counter decremented (R334, R337); the record is then Idle, or Aborted. -/
def endColl (p k result : Nat) (s : State) : State :=
  let r := collRec (s.tile p) k
  let w := result * 2 ^ 32 + r.flags
  let s := engineWrite p r.stw (natLe 8 w) false false (s.onTile p fun t =>
    setColl k (fun r => if result = 1 then { r with st := .aborted, got := [], poisoned := [], held := false, collected := true } else {}) t)
  decField p r.cntf s

/-- COLLECTED sent up to the group's root (R336). -/
def sendCollected (p k : Nat) (s : State) : State :=
  let t := s.tile p
  let e := memberAt t (k / 64)
  let me := s.placeOf p
  let g := ctxGroup s t.sys.cid e.grp
  inject { kind := .collected, cid := t.sys.cid, grp := e.grp, srank := e.rank, num := k % 64, src := me, dst := me, sw := groupRoot s g,
           path := upPath s t.sys.cid (groupLevel s g) me } s

/-- What a tile still holds or has to send of a record goes (R335). -/
def dropContrib (k : Nat) (t : Tile) : Tile :=
  let other (h : Held) : Bool := match h with | .contrib k' _ => k' != k | _ => true
  { t with net := { t.net with heldq := t.net.heldq.filter other, outq := t.net.outq.filter other } }

/-- A record ends Aborted (R336): status word, counter, COLLECTED. -/
def abortRec (p k : Nat) (s : State) : State :=
  let s := endColl p k 1 (s.onTile p (dropContrib k))
  if (memberAt (s.tile p) (k / 64)).desc.coll then sendCollected p k s else s.onTile p (setColl k fun _ => {})

/-! ## Chunks upward (R328, R331) -/

/-- A contribution leaves tile `p`: its chunks go to the cluster switch, as the source stands then (R334, log 31). -/
def sendContrib (p k : Nat) (s : State) : State :=
  let t := s.tile p
  let r := collRec t k
  let e := memberAt t (k / 64)
  let me := s.placeOf p
  if r.st != .contributing then s
  else (List.range (chunksOf r.count)).foldl (fun s c =>
    let n := Nat.min 32 (r.count - 32 * c)
    let gives := !(r.form == 2 && e.rank != r.root)
    let x := if gives then engineReadE r.early p (r.src + 32 * c * elSize r.ty) (n * elSize r.ty) s else ([], false, s)
    let raw := (List.range n).map fun i => leNat ((x.1.drop (i * elSize r.ty)).take (elSize r.ty))
    let vals := if gives then raw.map (if r.form = 2 then id else wireVal r.ty) else []
    inject { kind := .up, cid := t.sys.cid, grp := e.grp, srank := e.rank, num := k % 64, chunk := c, vals := vals, poison := x.2.1, src := me, dst := me,
             parity := r.ty, status := r.op, handle := r.form, acc := r.root,
             sw := swOf s 0 me, path := [portOfPlace (physPlace s t.sys.cid me)] } x.2.2) s

/-- EARLY READ: the network interface reads sector `k` before the rest of the source of a released contribution (R212, R297, R334). -/
def earlyContrib (p key k : Nat) (s : State) : State :=
  let r := collRec (s.tile p) key
  if sends (s.tile p) && r.st == .contributing && !r.held then
    s.onTile p fun t => setColl key (fun r => { r with early := r.early.take t k }) t
  else s

/-- The key of a group's combine state for one identifier in a switch (R328). -/
def ccombKey (cid grp id sw : Nat) : Nat := ((cid * 256 + grp) * 64 + id) * 2 ^ 36 + sw

/-- The combine state. -/
def ccomb (s : State) (cid grp id sw : Nat) : CollEnt := FMap.get {} s.fab.ccomb (ccombKey cid grp id sw)

/-- The combine state replaced. -/
def setCcomb (cid grp id sw : Nat) (e : CollEnt) (s : State) : State :=
  s.onFab fun f => { f with ccomb := FMap.set {} f.ccomb (ccombKey cid grp id sw) e }

/-- The child of a switch that a message comes from. -/
def childFrom (m : Msg) : Nat := if 2 ^ 32 ≤ m.src then m.src - 2 ^ 32 else m.src

/-- The cluster switch has taken a member's chunk: after its last one the record is Combining, or, for CRED at a member that is not
the root, Complete (R338). -/
def tookUp (m : Msg) (s : State) : State :=
  let p := s.physOf m.cid m.src
  match memberOf (s.tile p) m.grp with
  | some (slot, e) =>
    let k := collKey slot m.num
    let r := collRec (s.tile p) k
    if r.st == .contributing && m.chunk + 1 == chunksOf r.count then
      if r.form = 0 ∧ e.rank ≠ r.root then endColl p k 0 s else s.onTile p (setColl k fun r => { r with st := .combining })
    else s
  | none => s

/-- The first part of each child for a chunk, in ascending port order, if every expected port has one; and what is left (R328). -/
def readyParts (ports : List Nat) (l : List (Nat × List Nat × Nat × Bool)) :
    Option (List (List Nat × Nat × Bool) × List (Nat × List Nat × Nat × Bool)) :=
  ports.foldl (fun o c => match o with
    | none => none
    | some (got, left) =>
      match findIdx (fun e : Nat × List Nat × Nat × Bool => e.1 == c) left 0 with
      | some (i, e) => some (got ++ [e.2], dropAt left i)
      | none => none) (some ([], l))

/-- The members a result goes to: the root of a CRED, every member otherwise (R332). -/
def resultTo (s : State) (m : Msg) : List Nat :=
  let l := groupPlaces (ctxGroup s m.cid m.grp)
  if m.handle = 0 then [l.getD m.acc 0] else l

/-- COMBINE_UP_CHUNK (R328). -/
def execCombineUpChunk (n : Nat) (s : State) : Out :=
  .next (match atSwitch s n (· == .up) with
  | some m =>
    let s := take n s
    let s := if swLevel m.sw = 0 then tookUp m s else s
    let g := ctxGroup s m.cid m.grp
    let e := ccomb s m.cid m.grp m.num m.sw
    if (combEnt s m.cid m.grp 16 m.sw).exp = 0 then misrouted m s
    else if (ccomb s m.cid m.grp m.num (groupRoot s g)).aborted then s
    else
      let l := FMap.get [] e.parts m.chunk ++ [(childFrom m, m.vals, m.flags, m.poison)]
      match readyParts (downPorts s g m.sw) l with
      | none => setCcomb m.cid m.grp m.num m.sw { e with parts := FMap.set [] e.parts m.chunk l } s
      | some (got, left) =>
        let s := setCcomb m.cid m.grp m.num m.sw { e with parts := FMap.set [] e.parts m.chunk left } s
        let r := got.foldl (foldChunk m.parity m.status) ([], 0, false)
        let out := { m with vals := r.1, flags := r.2.1, poison := r.2.2, src := portOfSwitch m.sw }
        if m.sw = groupRoot s g then multicast { out with kind := .down } (resultTo s m) s
        else inject { out with sw := swOf s (swLevel m.sw + 1) m.dst, path := [portOfSwitch m.sw] } s
  | none => s)

/-! ## Chunks downward (R334) -/

/-- The bytes of a record's extent in sector `sec`, if every chunk that covers it has arrived, with their poison. -/
def sectorOut (r : Coll) (sec : Nat) : Option (Nat × List Byte × Bool) :=
  let es := elSize r.ty
  let lo := Nat.max (32 * sec) r.dst
  let hi := Nat.min (32 * sec + 32) (r.dst + r.count * es)
  let first := (lo - r.dst) / es
  let els := (List.range ((hi - lo) / es)).map (· + first)
  let val (i : Nat) : Option Nat := elemAt (FMap.get [] r.got (i / 32)) (i % 32)
  if els.all fun i => (val i).isSome then
    some (lo, els.flatMap fun i => natLe es (if r.form = 2 then (val i).getD 0 else (delivered r.ty ((val i).getD 0)).1),
          els.any fun i => NSet.mem r.poisoned (i / 32))
  else none

/-- A record with a result chunk taken in. -/
def withChunk (m : Msg) (r : Coll) : Coll :=
  { r with
    st := .delivering, got := FMap.put r.got m.chunk m.vals, poisoned := if m.poison then NSet.add r.poisoned m.chunk else r.poisoned,
    flags := Nat.lor (Nat.lor r.flags m.flags) (Nat.lor (if m.poison then sPsn else 0)
      (if r.form = 2 then 0 else m.vals.foldl (fun f v => Nat.lor f (delivered r.ty v).2) 0)) }

/-- The sectors of the destination extent that a chunk touches. -/
def chunkSectors (r : Coll) (m : Msg) : List Nat := sectorsOf (r.dst + 32 * m.chunk * elSize r.ty) (m.vals.length * elSize r.ty)

/-- A result chunk taken by a record: the sectors it completes are written, each as one event, and after the last byte the status word
and the counter follow (R334). -/
def takeDown (p k : Nat) (m : Msg) (s : State) : State :=
  let s := s.onTile p (setColl k (withChunk m))
  let r := collRec (s.tile p) k
  let s := ((chunkSectors r m).filter fun sec => !NSet.mem m.wrote sec).foldl (fun s sec =>
    match sectorOut r sec with
    | some (o, d, psn) => engineWrite p o d r.fe psn s
    | none => s) s
  if r.got.length = chunksOf r.count then endColl p k 0 s else s

/-- COMBINE_DOWN_CHUNK (R334, R338): one that comes while the last chunk upward of its member is still to be taken waits for that. -/
def execCombineDownChunk (n : Nat) (s : State) : Out :=
  .next (match arrival s n (· == .down) with
  | some (p, m) =>
    match memberOf (s.tile p) m.grp with
    | some (slot, _) =>
      let k := collKey slot m.num
      let st := (collRec (s.tile p) k).st
      if st == .contributing then s
      else if st == .combining || st == .delivering then takeDown p k m (take n s) else take n s
    | none => misrouted m (take n s)
  | none => s)

/-- EARLY WRITE of a sector that a result chunk completes, before the others (R297, R334). -/
def earlyDown (n k : Nat) (s : State) : State :=
  match arrival s n (· == .down) with
  | some (p, m) =>
    match memberOf (s.tile p) m.grp with
    | some (slot, _) =>
      let r := collRec (s.tile p) (collKey slot m.num)
      let r' := withChunk m r
      match r.st == .combining || r.st == .delivering,
          elemAt ((chunkSectors r' m).filter fun sec => (sectorOut r' sec).isSome && !NSet.mem m.wrote sec) k with
      | true, some sec => match sectorOut r' sec with
        | some (o, d, psn) => (engineWrite p o d r.fe psn s).onFab fun f => { f with net := setAt f.net n { m with wrote := NSet.add m.wrote sec } }
        | none => s
      | _, _ => s
    | none => s
  | none => s

/-! ## Aborts (R335, R336) -/

/-- A member's engine takes part in a schedule (R341). -/
def schedOf (s : State) (p grp id : Nat) : Option (Nat × Sched) :=
  s.fab.scheds.find? fun e => e.2.tile == p && e.2.cid == (s.tile p).sys.cid && e.2.grp == grp && e.2.id == id

/-- COLLECTIVE_ABORT_AT_LCA (R336): the partials are discarded and the abort goes down behind the chunks already issued. -/
def execCollectiveAbortAtLca (n : Nat) (s : State) : Out :=
  .next (match atSwitch s n (· == .abort) with
  | some m =>
    let s := take n s
    let g := ctxGroup s m.cid m.grp
    if (combEnt s m.cid m.grp 16 m.sw).exp = 0 then misrouted m s
    else if (ccomb s m.cid m.grp m.num m.sw).aborted then s
    else
      let s := (groupSwitches s g).foldl (fun s sw =>
        setCcomb m.cid m.grp m.num sw { ccomb s m.cid m.grp m.num sw with parts := [], aborted := sw == m.sw } s) s
      multicast { m with path := [] } (groupPlaces g) s
  | none => s)

/-- The first word of entry `i` of a schedule, where it can be read. -/
def schedWord (s : State) (x : Sched) (i : Nat) : Option Nat :=
  match vnum s x.cid (x.sched + 16 * i) 8 true false false with | .ok w => some w | .error _ => none

/-- The entries of a schedule still pending: those in flight, and those not started up to its END (R341). -/
def pendingEntries (s : State) (x : Sched) : List Nat :=
  (x.running.filterMap (schedWord s x)) ++
    ((List.range (x.nent - x.next)).map fun i => schedWord s x (x.next + i)).foldr
      (fun o l => match o with | some w => if bits w 3 0 = 0 then [] else w :: l | none => []) []

/-- The place of the collective engine of a place's die (R11). -/
def engineOf (a : Nat) : Nat := enginePlace (bits a 30 11) (bits a 10 9)

/-- A message of a schedule's engine put on its way to a rank's place: to the engine of its die, or through its UE port (R341). -/
def toPeer (x : Sched) (a : Nat) (m : Msg) (s : State) : State :=
  let ue := if ueRef a then some (uePort s.dev a) else none
  let path := pathOf s.svc.bw s.svc.rw (engineOf (tilePlace s.dev x.tile)) (ue.getD (engineOf (physPlace s x.cid a)))
  inject { m with cid := x.cid, grp := x.grp, num := x.id, srank := x.rank, src := s.placeOf x.tile, dst := a, path := path, ue := ue } s

/-- The abort of a schedule: its engine stops, and every peer of an entry still pending hears of it (R341). -/
def stopSched (key : Nat) (s : State) : State :=
  let x := FMap.get ({} : Sched) s.fab.scheds key
  let g := ctxGroup s x.cid x.grp
  let peers := (((pendingEntries s x).filter fun w => decide (bits w 3 0 ≤ 4)).map fun w => (groupPlaces g).getD (bits w 27 8) 0).eraseDups
  peers.foldl (fun s a => toPeer x a { kind := .abort, port := 1 } s) (s.onFab fun f => { f with scheds := FMap.drop f.scheds key })

/-- A record's schedule stopped, if it runs one. -/
def stopOwn (p grp id : Nat) (s : State) : State := match schedOf s p grp id with | some (k, _) => stopSched k s | none => s

/-- The partials that this device's switches hold of a collective discarded, as an abort from a switch above them passes (R336). -/
def clearPartials (m : Msg) (s : State) : State :=
  (groupSwitches s (ctxGroup s m.cid m.grp)).foldl (fun s sw =>
    setCcomb m.cid m.grp m.num sw { ccomb s m.cid m.grp m.num sw with parts := [] } s) s

/-- COLLECTIVE_ABORT_ARRIVAL (R336, R338): a member in progress ends Aborted; one that has completed keeps OK, and its identifier
stays Aborted until the release (log 32). An abort that comes by a port of the device (2) was multicast by a switch above it. -/
def execCollectiveAbortArrival (n : Nat) (s : State) : Out :=
  .next (match (arrival s n (· == .abort)).filter (fun e => e.2.port != 0) with
  | some (p, m) =>
    let s := take n s
    let s := if m.port = 2 then clearPartials m s else s
    match memberOf (s.tile p) m.grp with
    | some (slot, e) =>
      let k := collKey slot m.num
      match (collRec (s.tile p) k).st with
      | .contributing => abortRec p k s
      | .combining => abortRec p k (stopOwn p m.grp m.num s)
      | .delivering => abortRec p k s
      | .aborted => s
      | _ => if e.desc.coll then sendCollected p k (s.onTile p (setColl k fun r => { r with st := .aborted, collected := true })) else s
    | none => misrouted m s
  | none => s)

/-- Whether a chunk upward of a collective is still on its way: the COLLECTED of its members come after it on the ordered channel. -/
def upsLeft (s : State) (m : Msg) : Bool := s.fab.net.any fun o => o.kind == .up && o.cid == m.cid && o.grp == m.grp && o.num == m.num

/-- COLLECTED_AT_LCA (R336): counted, behind every chunk upward; with one of every member the release goes down. -/
def execCollectedAtLca (n : Nat) (s : State) : Out :=
  .next (match (atSwitch s n (· == .collected)).filter fun m => !upsLeft s m with
  | some m =>
    let s := take n s
    let g := ctxGroup s m.cid m.grp
    let e := ccomb s m.cid m.grp m.num m.sw
    if (combEnt s m.cid m.grp 16 m.sw).exp = 0 then misrouted m s
    else if e.collected + 1 = g.size then
      multicast { kind := .collRelease, cid := m.cid, grp := m.grp, num := m.num } (groupPlaces g) (setCcomb m.cid m.grp m.num m.sw {} s)
    else setCcomb m.cid m.grp m.num m.sw { e with collected := e.collected + 1 } s
  | none => s)

/-- COLLECTIVE_ID_RELEASE (R338). -/
def execCollectiveIdRelease (n : Nat) (s : State) : Out :=
  .next (match arrival s n (· == .collRelease) with
  | some (p, m) =>
    let s := take n s
    match memberOf (s.tile p) m.grp with
    | some (slot, _) =>
      let k := collKey slot m.num
      if (collRec (s.tile p) k).st == .aborted then s.onTile p (setColl k fun _ => {}) else s
    | none => misrouted m s
  | none => s)

/-! ## The instructions (R332 to R335) -/

/-- A descriptor's words as they stood before the bundle (R42). -/
def descWord (s : State) (o k : Nat) : Nat := Mem.le (preSram s.t) (o + 8 * k) 8

/-- Whether a buffer lies outside window 0, past the top of SRAM, or off its alignment. -/
def bufBad (ta n al : Nat) : Bool := bits ta 31 24 != 0 || bits ta 23 21 != 0 || decide (bits ta 20 0 + n > sramTop) || ta % al != 0

/-- Whether two ranges of one length overlap without being equal. -/
def overlaps (a b n : Nat) : Bool := a != b && decide (a < b + n) && decide (b < a + n)

/-- A field error of a collective descriptor (R334). `form` is 0 CRED, 1 CARED, 2 CBCAST. -/
def collBad (form w0 w1 w2 w3 : Nat) : Bool :=
  let ty := bits w0 11 8
  let op := bits w0 3 0
  let n := bits w0 63 32 * elSize ty
  bits w0 31 30 != 0 || bits w0 15 12 != 0 || bits w0 7 4 != 0 || bits w2 55 53 != 0 || bits w2 51 20 != 0 || bits w3 63 32 != 0
    || decide (3 ≤ ty) || decide (6 ≤ op) || (form == 1 && bits w2 19 0 != 0)
    || bits w0 63 32 == 0 || decide (524288 < bits w0 63 32) || (decide (3 ≤ op) && ty != 2) || (form == 2 && op != 0)
    || bufBad (bits w1 31 0) n (elSize ty) || bufBad (bits w1 63 32) n (elSize ty) || overlaps (bits w1 31 0) (bits w1 63 32) n
    || bufBad (bits w3 31 0) 8 8 || cntfBad (bits w2 63 56)

/-- A record made from a descriptor. -/
def collOf (form w0 w1 w2 w3 : Nat) : Coll :=
  { st := .contributing, form := form, count := bits w0 63 32, ty := bits w0 11 8, op := bits w0 3 0, src := bits w1 31 0, dst := bits w1 63 32,
    fe := bit w2 52, root := bits w2 19 0, stw := bits w3 31 0, cntf := bits w2 63 56, held := true }

/-- CRED, CARED and CBCAST (R334). -/
def collForm (form : Nat) (x : R) (s : State) : Out :=
  .next (guarded x.g x.n (fun s =>
    let a := rg s x.a
    let o := bits a.toNat 20 0
    checked (win0Checks s a 32 32 true) (fun s =>
      let w (k : Nat) : Nat := descWord s o k
      let grp := bits (w 0) 23 16
      match memberOf s.t grp with
      | some (slot, e) =>
        checked [(groupBad s.t grp || !e.desc.coll || e.desc.ue || decide (e.desc.size ≤ bits (w 2) 19 0), tr cGroup)] (fun s =>
          let k := collKey slot (bits (w 0) 29 24)
          if collBad form (w 0) (w 1) (w 2) (w 3) then wg x.d 0 (raiseAsync s.cur (tr cReq) s)
          else if (collRec s.t k).st != .idle then wg x.d 1 s
          else wg x.d 0 (holdAt s.cur (.contrib k s.t.mreq.seq) (s.onT (setColl k fun _ => collOf form (w 0) (w 1) (w 2) (w 3))))) s
      | none => raise (tr cGroup) s) s) s)

/-- CRED (R334). -/
def execCred (x : R) (s : State) : Out := collForm 0 x s
/-- CARED (R334). -/
def execCared (x : R) (s : State) : Out := collForm 1 x s
/-- CBCAST (R334). -/
def execCbcast (x : R) (s : State) : Out := collForm 2 x s

/-- A field error of a schedule descriptor (R339). -/
def schedBad (w : Nat → Nat) : Bool :=
  bits (w 0) 63 56 != 0 || bits (w 1) 55 47 != 0 || bits (w 2) 63 56 != 0 || bits (w 3) 63 56 != 0 || bits (w 4) 63 32 != 0
    || w 5 != 0 || w 6 != 0 || w 7 != 0 || decide (bits (w 1) 46 42 < 8) || decide (22 < bits (w 1) 46 42) || bits (w 1) 19 0 == 0
    || decide (3 ≤ bits (w 1) 41 38) || decide (6 ≤ bits (w 1) 37 34) || (decide (3 ≤ bits (w 1) 37 34) && bits (w 1) 41 38 != 2)
    || bufBad (bits (w 4) 31 0) 8 8 || cntfBad (bits (w 1) 63 56)

/-- A schedule made from a descriptor, for tile `p`. -/
def schedFrom (p cid rank : Nat) (actw : W64) (asn : Nat) (w : Nat → Nat) : Sched :=
  { die := p / 512, tile := p, actw := actw, asn := asn, cid := cid, grp := bits (w 1) 27 20, rank := rank, id := bits (w 1) 33 28, sched := bits (w 0) 55 0,
    nent := bits (w 1) 19 0, clog := bits (w 1) 46 42, ty := bits (w 1) 41 38, op := bits (w 1) 37 34, src := bits (w 2) 55 0,
    dst := bits (w 3) 55 0 }

/-- The lowest number no schedule has. -/
def freeSched (s : State) : Nat := (freeKey s.fab.scheds (s.fab.scheds.length + 1)).getD 0

/-- CSTART (R339): never held; the task becomes Exposed. -/
def execCstart (x : R) (s : State) : Out :=
  .next (guarded x.g x.n (fun s =>
    let a := rg s x.a
    let o := bits a.toNat 20 0
    checked (win0Checks s a 64 64 true) (fun s =>
      let w (k : Nat) : Nat := descWord s o k
      let grp := bits (w 1) 27 20
      match memberOf s.t grp with
      | some (slot, e) =>
        checked [(groupBad s.t grp, tr cGroup)] (fun s =>
          let k := collKey slot (bits (w 1) 33 28)
          let y := s.onT expose
          if schedBad w then wg x.d 0 (raiseAsync s.cur (tr cReq) y)
          else if (collRec s.t k).st != .idle then wg x.d 1 y
          else
            let y := y.onT (setColl k fun _ => { st := .combining, form := 3, stw := bits (w 4) 31 0, cntf := bits (w 1) 63 56 })
            wg x.d 0 (y.onFab fun f => { f with scheds := FMap.put f.scheds (freeSched y) (schedFrom s.cur s.t.sys.cid e.rank s.t.sys.actw s.t.task.asn w) })) s
      | none => raise (tr cGroup) s) s) s)

/-- CABORT (R335): at issue, with the checks on the group of R334; the record's own end as Aborted follows at once. -/
def execCabort (x : R) (s : State) : Out :=
  .next (guarded x.g x.n (fun s =>
    let a := (rg s x.a).toNat
    let grp := bits a 7 0
    let id := bits a 13 8
    match memberOf s.t grp with
    | some (slot, e) =>
      checked [(decide (2 ^ 14 ≤ a), tr cIllegalOp), (groupBad s.t grp || !e.desc.coll || e.desc.ue, tr cGroup)]
        (fun s =>
          let k := collKey slot id
          let st := (collRec s.t k).st
          if st == .contributing || st == .combining || st == .delivering then
            let p := s.cur
            let me := s.placeOf p
            let g := ctxGroup s s.t.sys.cid grp
            let s := stopOwn p grp id s
            let s := inject { kind := .abort, cid := s.t.sys.cid, grp := grp, srank := e.rank, num := id, src := me, dst := me,
                              sw := groupRoot s g, path := upPath s s.t.sys.cid (groupLevel s g) me } s
            wg x.d 0 ((abortRec p k s).onTile p expose)
          else wg x.d 1 s) s
    | none => checked [(decide (2 ^ 14 ≤ a), tr cIllegalOp), (true, tr cGroup)] (fun s => s) s) s)

/-! ## What leaves the tile besides sends -/

/-- The first released arrival or contribution that no fence holds leaves tile `p` (R262, R285, R290, R334). -/
def flushComm (p : Nat) (s : State) : State :=
  let t := s.tile p
  let free (iss : Nat) : Bool := !fenceHolds t iss && !bfenceHolds t iss
  if !sends t then s
  else match findIdx (fun h : Held => match h with | .arrive _ i => free i | .contrib _ i => free i | .send _ => false) t.net.outq 0 with
    | some (i, h) =>
      let s := s.onTile p fun t => { t with net := { t.net with outq := dropAt t.net.outq i } }
      match h with
      | .arrive k _ => sendArrive p k s
      | .contrib k _ => sendContrib p k s
      | .send _ => s
    | none => s

end Sys2Proof.Machine
end

