-- ==== Sys2Proof/Machine/Schedule.lean ====
section
/-!
DEFINITION. Sys2Proof/Machine/Schedule.lean: the die collective engines, which run chunk schedules (R340, R341).
-/

namespace Sys2Proof.Machine

/-- The two words of entry `i` of a schedule. -/
def schedEntry (s : State) (x : Sched) (i : Nat) : Except Nat (Nat × Nat) :=
  match vread s x.cid (x.sched + 16 * i) 16 true false false with
  | .ok d => .ok (leNat (d.take 8), leNat (d.drop 8))
  | .error e => .error e

/-- The fields of an entry (R340). -/
def seKind (w : Nat × Nat) : Nat := bits w.1 3 0
def sePeer (w : Nat × Nat) : Nat := bits w.1 27 8
def seChunk (w : Nat × Nat) : Nat := bits w.1 55 32
def seDep (w : Nat × Nat) : Nat := bits w.2 15 0

/-- An entry that ends the schedule as Aborted (R340). -/
def seBad (w : Nat × Nat) : Bool :=
  bits w.1 63 56 != 0 || bits w.1 31 28 != 0 || bits w.1 7 4 != 0 || bits w.2 63 16 != 0 || decide (6 ≤ seKind w)

/-- A schedule ends: dropped, and its member's record ends with it. -/
def closeSched (k : Nat) (s : State) : State :=
  let x := FMap.get ({} : Sched) s.fab.scheds k
  let s := s.onFab fun f => { f with scheds := FMap.drop f.scheds k }
  match memberOf (s.tile x.tile) x.grp with
  | some (slot, _) =>
    let key := collKey slot x.id
    endColl x.tile key 0 (s.onTile x.tile (setColl key fun r => { r with flags := Nat.lor r.flags x.flags }))
  | none => s

/-- A schedule ends as Aborted. -/
def breakSched (k : Nat) (s : State) : State :=
  let x := FMap.get ({} : Sched) s.fab.scheds k
  let s := stopSched k s
  match memberOf (s.tile x.tile) x.grp with
  | some (slot, _) => abortRec x.tile (collKey slot x.id) s
  | none => s

/-- A schedule ends as Aborted with REQ reported to the pager (R340). -/
def badSched (k : Nat) (s : State) : State :=
  let x := FMap.get ({} : Sched) s.fab.scheds k
  orphanFault x.tile (tr cReq) x.actw (breakSched k s)

/-- A schedule ends as Aborted for a request of its engine that completes with FAULT, which is raised as for any request of the tile's
(R280, R341): at the boundary of the activation that started it, or as the fault of one that has ended. -/
def faultSched (k e va : Nat) (s : State) : State :=
  let x := FMap.get ({} : Sched) s.fab.scheds k
  let ti : TrapInfo := { cause := cMemFault, sub := e * 256, daddr := va % 2 ^ 32 }
  let t := s.tile x.tile
  let s := breakSched k s
  if t.life == .running && t.task.asn == x.asn && t.sys.actw == x.actw then raiseAsync x.tile ti s else orphanFault x.tile ti x.actw s

/-- Whether entry `i` has what it waits for: entry i − DEP complete (R340). -/
def depMet (x : Sched) (i : Nat) (w : Nat × Nat) : Bool := seDep w == 0 || decide (i < seDep w) || x.complete.contains (i - seDep w)

/-- SCHEDULE_ENTRY_START (R341): in order, up to 32 in flight; END starts once every entry before it has completed. -/
def execScheduleEntryStart (k : Nat) (s : State) : Out :=
  .next (match FMap.get none (s.fab.scheds.map fun e => (e.1, some e.2)) k with
  | none => s
  | some x =>
    if x.nent ≤ x.next then (if x.running.isEmpty then closeSched k s else s)
    else match schedEntry s x x.next with
      | .error 0 => s
      | .error e => faultSched k e (x.sched + 16 * x.next) s
      | .ok w =>
        if seBad w then badSched k s
        else if seKind w = 0 then (if x.running.isEmpty then closeSched k s else s)
        else if x.running.length < 32 ∧ depMet x x.next w then
          s.onFab fun f => { f with scheds := FMap.put f.scheds k { x with running := x.running ++ [x.next], next := x.next + 1 } }
        else s)

/-- The schedule of the member that a chunk is for. -/
def schedFor (s : State) (m : Msg) : Option (Nat × Sched) :=
  let p := s.physOf m.cid m.dst
  s.fab.scheds.find? fun e => e.2.tile == p && e.2.cid == m.cid && e.2.grp == m.grp && e.2.id == m.num

/-- SCHEDULE_CHUNK_ARRIVAL (R341): the chunk is held until the entry that consumes it runs; before its schedule has started it waits
on its way. -/
def execScheduleChunkArrival (n : Nat) (s : State) : Out :=
  .next (match elemAt s.fab.net n with
  | some m =>
    if m.kind == .chunk && m.path.isEmpty && m.dst / 2048 == s.dev && !((s.fab.net.take n).any (blocksArrival m)) then
      match schedFor s m with
      | some (k, x) =>
        (take n s).onFab fun f => { f with scheds := FMap.put f.scheds k { x with held := x.held ++ [(m.srank, m.chunk, m.payload, m.poison)] } }
      | none => s
    else s
  | none => s)

/-- Two chunks of storage combined elementwise and rounded back to their type, with the flags (R341). -/
def redBytes (ty op : Nat) (a b : List Byte) : List Byte × Nat :=
  let es := elSize ty
  let at_ (l : List Byte) (i : Nat) : Nat := wireVal ty (leNat ((l.drop (i * es)).take es))
  let r := (List.range (a.length / es)).map fun i =>
    let c := combine ty op (at_ a i) (at_ b i)
    let d := delivered ty c.1
    (d.1, Nat.lor c.2 d.2)
  (r.flatMap fun e => natLe es e.1, r.foldl (fun f e => Nat.lor f e.2) 0)

/-- Whether an earlier entry of the schedule that touches a chunk is still running (R341). -/
def chunkBusy (s : State) (x : Sched) (i c : Nat) : Bool :=
  x.running.any fun j => decide (j < i) && (match schedEntry s x j with | .ok w => seChunk w == c | .error _ => false)

/-- A chunk of device memory read by an engine, whether a sector of it carries poison, or the reason of its fault (R279, R281, R329). -/
def chunkRead (s : State) (cid va n : Nat) : Except Nat (List Byte × Bool) :=
  match vplaces s cid va n true false false with
  | .error e => .error e
  | .ok l => .ok (l.flatMap fun e => (locRead e.1 e.2.2 s.fab).1, l.any fun e => (locRead e.1 e.2.2 s.fab).2)

/-- A chunk written by an engine, its sectors carrying poison where `psn` (R329), or the reason of its fault. -/
def chunkWrite (cid va : Nat) (d : List Byte) (psn : Bool) (s : State) : Except Nat State :=
  match vplaces s cid va d.length false true false with
  | .error e => .error e
  | .ok l => .ok (s.onFab fun f => l.foldl (fun f e => locWrite e.1 ((d.drop e.2.1).take e.2.2) psn f) f)

/-- The effect of an entry (R340): the state with it, or none while it waits for its chunk; the reason and the VA of a fault. -/
def runEntry (k i : Nat) (x : Sched) (w : Nat × Nat) (s : State) : Except (Nat × Nat) (Option State) :=
  let n := 2 ^ x.clog
  let c := seChunk w
  let src := x.src + c * n
  let dst := x.dst + c * n
  let upd (f : Sched → Sched) (s : State) : State :=
    s.onFab fun g => { g with scheds := FMap.put g.scheds k (f (FMap.get ({} : Sched) g.scheds k)) }
  let done (s : State) : State := upd (fun y => { y with running := y.running.filter (· != i), complete := y.complete ++ [i] }) s
  let kind := seKind w
  let got := findIdx (fun e : Nat × Nat × List Byte × Bool => e.1 == sePeer w && e.2.1 == c) x.held 0
  let flag (fl : Nat) (s : State) : State := upd (fun y => { y with flags := Nat.lor y.flags fl }) s
  let store (d : List Byte) (psn : Bool) (f : State → State) : Except (Nat × Nat) (Option State) :=
    match chunkWrite x.cid dst d psn s with
    | .error e => .error (e, dst)
    | .ok s => .ok (some (done (flag (if psn then sPsn else 0) (f s))))
  if kind = 1 ∨ kind = 2 then
    let va := if kind = 1 then dst else src
    match chunkRead s x.cid va n with
    | .error e => .error (e, va)
    | .ok d =>
      let a := (groupPlaces (ctxGroup s x.cid x.grp)).getD (sePeer w) 0
      .ok (some (done (toPeer x a { kind := .chunk, chunk := c, payload := d.1, poison := d.2 } s)))
  else if kind = 5 then
    match chunkRead s x.cid src n with
    | .error e => .error (e, src)
    | .ok d => store d.1 d.2 id
  else match got with
    | none => .ok none
    | some (j, _, _, d, psn) =>
      let use (s : State) : State := upd (fun y => { y with held := dropAt y.held j }) s
      if kind = 4 then store d psn use
      else
        match chunkRead s x.cid dst n with
        | .error e => .error (e, dst)
        | .ok o =>
          let r := redBytes x.ty x.op o.1 d
          store r.1 (psn || o.2) fun s => flag r.2 (use s)

/-- SCHEDULE_ENTRY_COMPLETE (R341): an entry in flight takes effect, those of one chunk in schedule order; after the last the status
word and the counter follow. -/
def execScheduleEntryComplete (k i : Nat) (s : State) : Out :=
  .next (match FMap.get none (s.fab.scheds.map fun e => (e.1, some e.2)) k with
  | none => s
  | some x =>
    if !x.running.contains i then s
    else match schedEntry s x i with
      | .error 0 => s
      | .error e => faultSched k e (x.sched + 16 * i) s
      | .ok w =>
        if chunkBusy s x i (seChunk w) then s
        else match runEntry k i x w s with
          | .error (0, _) => s
          | .error (e, va) => faultSched k e va s
          | .ok none => s
          | .ok (some s') =>
            let y := FMap.get ({} : Sched) s'.fab.scheds k
            if y.nent ≤ y.next && y.running.isEmpty then closeSched k s' else s')

end Sys2Proof.Machine
end

