-- ==== Sys2Proof/Machine/Wire.lean ====
section
/-!
DEFINITION. Sys2Proof/Machine/Wire.lean: what a Welim port puts on the wire: link packets and their CRC (R392), the replay buffer (R393), the
virtual channels and their credits (R397), and the up-port hash (R15, R403).
-/

namespace Sys2Proof.Machine

/-! ## Bytes and CRC (R392) -/

/-- One bit of the CRC-32 of IEEE 802.3, reflected. -/
def crcBit (c : Nat) : Nat := if c % 2 = 1 then Nat.xor (c / 2) 0xEDB88320 else c / 2

/-- One byte of it. -/
def crcByte (c : Nat) (b : Byte) : Nat :=
  crcBit (crcBit (crcBit (crcBit (crcBit (crcBit (crcBit (crcBit (Nat.xor c b.toNat))))))))

/-- The CRC-32 of some bytes. -/
def crc32 (l : List Byte) : Nat := Nat.xor (l.foldl crcByte 0xFFFFFFFF) 0xFFFFFFFF

/-- The header of a link packet (R392). -/
def linkHeader (p : LinkPkt) : Nat :=
  p.seq % 2 ^ 12 + p.ty % 2 ^ 4 * 2 ^ 12 + p.ack % 2 ^ 12 * 2 ^ 16 + p.vc % 4 * 2 ^ 28 + p.z0 % 4 * 2 ^ 30 + p.nflit % 8 * 2 ^ 32
    + p.z1 % 2 ^ 5 * 2 ^ 35 + p.head % 2 ^ 8 * 2 ^ 40 + p.tail % 2 ^ 8 * 2 ^ 48 + p.z2 % 2 ^ 8 * 2 ^ 56
    + ((List.range 4).map fun i => p.credit.getD i 0 % 2 ^ 16 * 2 ^ (64 + 16 * i)).sum + p.tstamp % 2 ^ 64 * 2 ^ 128

/-- A link packet's header and payload as bytes. -/
def linkBytes (p : LinkPkt) : List Byte := natLe 24 (linkHeader p) ++ p.flits.flatMap (natLe 32)

/-- A link packet with its flit count and its CRC. -/
def sealPkt (p : LinkPkt) : LinkPkt :=
  let p := { p with nflit := p.flits.length - 1 }
  { p with crc := crc32 (linkBytes p) }

/-- Whether a packet has a zero field that is not zero (R392, R396). -/
def zerosBad (p : LinkPkt) : Bool :=
  p.z0 != 0 || p.z1 != 0 || p.z2 != 0 || (p.ty != 0 && (p.seq != 0 || p.nflit != 0))
    || (!(p.ty == 3 || p.ty == 4 || p.ty == 5) && p.tstamp != 0)
    || ((p.ty == 3 || p.ty == 4) && (bits p.tstamp 63 28 != 0 || bits p.tstamp 15 5 != 0 || (p.ty == 3 && bits p.tstamp 27 16 != 0)))

/-- Whether a packet is discarded before anything else (R392): for its CRC, which its flit count takes part in, for its TYPE or for a zero field. -/
def badPkt (p : LinkPkt) : Bool :=
  p.crc != crc32 (linkBytes p) || p.flits.length != (if p.ty = 0 then p.nflit + 1 else 0) || decide (8 < p.flits.length) || decide (6 < p.ty) || zerosBad p

/-! ## Ports -/

/-- A Welim port of the device. -/
def welim (s : State) (q : Nat) : Welim := FMap.get {} s.ports q

/-- A Welim port replaced. -/
def setWelim (q : Nat) (w : Welim) (s : State) : State := { s with ports := FMap.put s.ports q w }

/-- Whether a port sends DATA: framing is up (R402). -/
def sendsData (w : Welim) : Bool := w.st == .up || w.st == .degraded || w.st == .swap

/-- Whether a Welim port is left that may carry traffic, now or once it has trained: one neither Failed nor Down (R403). -/
def linkLeft (s : State) : Bool := s.ports.any fun e => e.2.st != .failed && e.2.st != .down

/-- Entry `i` of a list of four counts, and the list with it changed. -/
def vcAt (l : List Nat) (i : Nat) : Nat := l.getD i 0
def vcSet (l : List Nat) (i v : Nat) : List Nat := (List.range 4).map fun j => if j = i then v else vcAt l j

/-- A packet made ready for the wire: it carries ACK and CREDIT, and goes out (R392). -/
def emit (p : LinkPkt) (w : Welim) : Welim :=
  { w with outp := w.outp ++ [sealPkt { p with ack := (w.rxseq + 4095) % 4096, credit := w.back }], back := [0, 0, 0, 0], unacked := 0 }

/-! ## Flits that wait for a port -/

/-- The flits of a message or request as they wait, each alone: the first opens it, the last ends it (R392). -/
def waitingFlits (vc : Nat) (req : List Nat) (l : List Nat) : List LinkPkt :=
  (List.range l.length).map fun i =>
    { vc := vc, flits := [l.getD i 0], head := b2n (i == 0), tail := b2n (i + 1 == l.length), req := req }

/-- Flits of one channel joined to one packet. -/
def joinFlits (l : List LinkPkt) : LinkPkt :=
  let mark (f : LinkPkt → Nat) : Nat := ((List.range l.length).map fun i => f (l.getD i {}) * 2 ^ i).sum
  { vc := (l.headD {}).vc, flits := l.flatMap (·.flits), head := mark (·.head), tail := mark (·.tail), req := (l.flatMap (·.req)).eraseDups }

/-- The next DATA packet: up to eight flits of a channel, by the arbitration of R397 and the credits; and the flits left. -/
def nextData (w : Welim) : Option (LinkPkt × List LinkPkt) :=
  let go (vc : Nat) : Option (LinkPkt × List LinkPkt) :=
    let mine := w.sendq.filter fun p => p.vc == vc
    let n := Nat.min 8 (vcAt w.credits vc)
    if mine.isEmpty || n == 0 then none
    else some (joinFlits (mine.take n), w.sendq.filter (fun p => p.vc != vc) ++ mine.drop n)
  let order := if w.rr then [3, 2, 1, 0] else [3, 2, 0, 1]
  order.findSome? go

/-- DATA packets sent while the replay buffer, the credits and the port allow (R393, R397). -/
def sendLoop : Nat → Nat → Welim → Welim
  | 0, _, w => w
  | n + 1, now, w =>
    if !sendsData w || decide (2048 ≤ w.replay.length) then w
    else match nextData w with
    | none => w
    | some (p, left) =>
      let p := { p with seq := w.txseq }
      let w := { w with
        sendq := left, txseq := (w.txseq + 1) % 4096, credits := vcSet w.credits p.vc (vcAt w.credits p.vc - p.flits.length)
        txAt := if w.replay.isEmpty then now else w.txAt, replay := w.replay ++ [p], rr := if p.vc < 2 then p.vc == 0 else w.rr }
      sendLoop n now (emit p w)

/-- A port sends what it can. -/
def flush (q : Nat) (s : State) : State :=
  let w := welim s q
  setWelim q (sendLoop w.sendq.length s.now w) s

/-- Flits put before a port. -/
def putFlits (q : Nat) (l : List LinkPkt) (s : State) : State :=
  flush q (setWelim q { welim s q with sendq := (welim s q).sendq ++ l } s)

/-- A control packet sent. -/
def sendCtl (q ty tstamp : Nat) (s : State) : State := setWelim q (emit { ty := ty, tstamp := tstamp } (welim s q)) s

/-- The ports in the up-port hash. -/
def upPorts (s : State) : List Nat := (s.ports.filter fun e => e.2.hashed && e.2.st != .failed && e.2.st != .down).map fun e => e.1

/-- The up port for a channel and a destination place: a fixed hash for the ordered class, any for the relaxed (R15, R397; log 6). -/
def upPortOf (s : State) (vc dst : Nat) : Option Nat :=
  let l := upPorts s
  match l with
  | [] => none
  | q :: _ => some (l.getD ((if vc = 1 then Config.unstated 15 s.picks else Config.unstated 397 dst) % l.length) q)

end Sys2Proof.Machine
end

