-- ==== Sys2Proof/Machine/Edge.lean ====
section
/-!
DEFINITION. Sys2Proof/Machine/Edge.lean: the memory edge: request packets (R277), the stations (R274, R275), the cisterns' performing of
GET, PUT and atomic packets (R278, R279, R284).
-/

namespace Sys2Proof.Machine

/-! ## Packets -/

/-- The requesters that are no tile. -/
def hostParty : Nat := 2 ^ 33
def ueParty (port : Nat) : Nat := 2 ^ 34 + port
def farParty (src : Nat) : Nat := 2 ^ 35 + src

/-- A packet of the memory edge replaced, or gone. -/
def setPkt (n : Nat) (m : Pkt) (s : State) : State := s.onFab fun f => { f with pkts := setAt f.pkts n m }
def dropPkt (n : Nat) (s : State) : State := s.onFab fun f => { f with pkts := dropAt f.pkts n }

/-! ## Doorbells (R354, R356) -/

/-- The place of the primary tile of a role (R367): 0 queue, 1 loader, 2 pager. -/
def rolePlace (s : State) (k : Nat) : Nat :=
  let r := ((elemAt s.svc.roles k).map (·.1)).getD 0
  svcPlace s.dev (r / 16) (r % 16)

/-- The place of the queue role's primary tile (R356, R367). -/
def queueRole (s : State) : Nat := rolePlace s 0

/-- The port that keeps what a tile of a context sends to a role of the pump house from it (R17, R368): a port on the way that does not pass the CID,
or the firewall, which must pass control-class traffic. -/
def noticeStop (s : State) (cid src k : Nat) : Option Nat :=
  let dst := rolePlace s k
  match stopPort s.fab (pathOf s.svc.bw s.svc.rw src dst) cid true with
  | some q => some q
  | none => if firewallPasses s.fab (bits dst 10 9) 6 then none else some (portOfSwitch (switchAt s.svc.bw s.svc.rw 0 dst))

/-- The notice of a TAIL word from its cistern to the queue role's primary tile (R356). -/
def sendNotice (c q v : Nat) (s : State) : State :=
  let src := doorCistern s c
  let dst := queueRole s
  inject { kind := .queueNotice, cid := c, num := q, val := v, stime := s.gtime, len := 32, ctl := true, src := src, dst := dst,
           path := pathOf s.svc.bw s.svc.rw src dst } s

/-- A performed write of a queue's TAIL word (R354 to R356), of a Free queue too. -/
def tailWrite (c q val : Nat) (s : State) : State :=
  let x := FMap.get ({} : Queue) (s.ctx c).queues q
  if decide (64 ≤ q) || (s.ctx c).st == .free then s
  else
    let v := val % 2 ^ 64
    sendNotice c q v (s.onCtx c fun y => { y with queues := FMap.put y.queues q { x with tail := v } })

/-- Bytes performed in a context's doorbell page at an offset, inside one aligned word: TAIL words are rung, every other word is RO (R354). -/
def doorWrite (c o : Nat) (d : List Byte) (s : State) : State :=
  if o / 8 % 8 = 3 then
    let old := natLe 8 (FMap.get ({} : Queue) (s.ctx c).queues (o / 64)).tail
    tailWrite c (o / 64) (leNat (old.take (o % 8) ++ d ++ old.drop (o % 8 + d.length))) s
  else s

/-- Whether a packet lies in the doorbell page of its context. -/
def inDoor (s : State) (m : Pkt) : Bool := atDoor s m.cid m.va

/-- Whether a packet has still to be performed. -/
def unperformed (m : Pkt) : Bool := m.st != .answered && m.st != .faulted

/-- A piece of a range cut at an address. -/
def cutAtVa (b : Nat) (e : Nat × Nat) : List (Nat × Nat) :=
  if e.1 < b ∧ b < e.1 + e.2 then [(e.1, b - e.1), (b, e.1 + e.2 - b)] else [e]

/-- The packets of a range (R277): at most 256 bytes, the sectors covered in part alone. -/
def cutRange (va n : Nat) : List (Nat × Nat) :=
  let blocks := if n = 0 then [] else (List.range ((va + n - 1) / 256 + 1 - va / 256)).map fun j =>
    let lo := Nat.max va ((va / 256 + j) * 256)
    (lo, Nat.min (va + n) ((va / 256 + j + 1) * 256) - lo)
  let head := if va % 32 = 0 then blocks else blocks.flatMap (cutAtVa ((va / 32 + 1) * 32))
  if (va + n) % 32 = 0 then head else head.flatMap (cutAtVa ((va + n) / 32 * 32))

/-- Whether two ranges share a byte. -/
def rangesMeet (a n b m : Nat) : Bool := decide (a < b + m) && decide (b < a + n)

/-- The granules of a packet: what is performed as one event, a sector of device memory, or an aligned word elsewhere (R278). -/
def granules (g va n : Nat) : List (Nat × Nat) :=
  if n = 0 then [] else (List.range ((va + n - 1) / g + 1 - va / g)).map fun j =>
    let lo := Nat.max va ((va / g + j) * g)
    (lo - va, Nat.min (va + n) ((va / g + j + 1) * g) - lo)

/-! ## Leaving the tile (R279, R285, R290) -/

/-- Requests whose answer brings bytes to the tile. -/
def isRead : RKind → Bool
  | .put => false
  | .putd => false
  | .posted => false
  | .bfence => false
  | _ => true

/-- The packets of one request of the tile that holds a place. -/
def pktsOf (s : State) (cid place seq : Nat) : List Pkt := s.fab.pkts.filter fun m => m.place == place && m.cid == cid && m.seq == seq

/-- Whether a request has been acknowledged (R279 rule 5): replies written, or packets performed. -/
def acked (s : State) (cid place : Nat) (r : Req) : Bool :=
  if isRead r.kind then r.left == 0 else (pktsOf s cid place r.seq).all fun m => !unperformed m

/-- Whether a request holds the ones after it: a GET or fetch atomic with .acq and packets to perform (R279 rules 4 and 6). -/
def acqHolds (s : State) (cid place : Nat) (r : Req) : Bool :=
  r.ord == 2 && isRead r.kind && (pktsOf s cid place r.seq).any unperformed

/-- Whether a request waits as .rel for an earlier one (R279 rules 5 and 6). -/
def relWaits (s : State) (cid place : Nat) (t : Tile) (r : Req) : Bool :=
  r.ord == 2 && !isRead r.kind && t.mreq.reqs.any fun e => decide (e.2.seq < r.seq) && !acked s cid place e.2

/-- Whether an earlier request of the tile to a range is still to be performed (R290 step 1). -/
def rangeBusy (s : State) (m : Pkt) : Bool :=
  s.fab.pkts.any fun o => o.place == m.place && o.cid == m.cid && decide (o.seq < m.seq) && unperformed o && o.kind != .bfence
    && o.kind != .pqry && rangesMeet o.va o.len m.va m.len

/-- Whether a packet of a tile was issued before another of it (R277). -/
def issuedBefore (o m : Pkt) : Bool :=
  o.place == m.place && o.cid == m.cid && (decide (o.seq < m.seq) || (o.seq == m.seq && decide (o.idx < m.idx)))

/-- Whether an earlier packet of the tile must be emitted first (R277): any but a BFENCE, and a bank operation that one holds (R290). -/
def emitBefore (s : State) (t : Tile) (m : Pkt) : Bool :=
  s.fab.pkts.any fun o => o.st == .atStation && issuedBefore o m && o.kind != .bfence && !((o.kind == .bmv || o.kind == .bmvt) && bfenceHolds t o.seq)

/-- Whether a packet of a tile may leave it. -/
def mayLeave (s : State) (m : Pkt) : Bool :=
  let t := s.tile (s.physOf m.cid m.place)
  if 2 ^ 33 ≤ m.place then !emitBefore s {} m
  else
    sends t && t.sys.cid == m.cid && !fenceHolds t m.seq && !((m.kind == .bmv || m.kind == .bmvt) && bfenceHolds t m.seq)
      && !(t.mreq.reqs.any fun e => (decide (e.2.seq < m.seq) && acqHolds s m.cid m.place e.2)
            || (decide (e.2.seq ≤ m.seq) && relWaits s m.cid m.place t e.2))
      && !(m.kind == .bfence && rangeBusy s m) && !emitBefore s t m

/-- The pieces of a packet: offset in it, local offset, length. -/
def pktPieces (m : Pkt) : List (Nat × Nat × Nat) := if m.pieces.isEmpty then [(0, m.off, m.len)] else m.pieces.map fun e => (e.1, e.2.1, e.2.2.1)

/-- The memory sectors of a packet whose bytes come from a poisoned sector of SRAM (R123, R212). -/
def sourcePoison (t : Tile) (m : Pkt) : NSet :=
  (pktPieces m).foldl (fun x q => ((granules 32 (m.va + q.1) q.2.2).filter fun e => t.poisoned (q.2.1 + e.1) e.2).foldl
    (fun x e => NSet.add x ((m.va + q.1 + e.1) / 32)) x) []

/-- A packet with the bytes that it takes along, read when it leaves, but for the sectors that have been read early (log 31, log 99): the source of
a PUT, the input of a bank operation. -/
def loadPkt (s : State) (m : Pkt) : Pkt × State :=
  if m.read then (m, s)
  else
    let p := s.physOf m.cid m.place
    let t := if m.early.took.isEmpty then s.tile p else m.early.view (s.tile p)
    if m.kind == .put || m.kind == .putd then
      let r := (pktPieces m).foldl (fun (x : Mem × State) q =>
        let r := engineReadE m.early p q.2.1 q.2.2 x.2
        (Mem.setBytes x.1 q.1 r.1, r.2.2)) ([], s)
      ({ m with data := Mem.bytes r.1 0 m.len, psec := sourcePoison t m, read := true }, r.2)
    else if m.kind == .bmv || m.kind == .bmvt then
      ({ m with data := Mem.bytes t.sram m.off m.c, psec := if t.poisoned m.off m.c then NSet.add [] 0 else [], read := true }, s)
    else (m, s)

/-- EARLY READ: the network interface reads sector `k` of the source of the packet at position `n` before the rest (R278, R297). -/
def earlySource (n k : Nat) (s : State) : State :=
  match elemAt s.fab.pkts n with
  | some m =>
    let t := s.tile (s.physOf m.cid m.place)
    if m.st == .atStation && !m.read && decide (m.place < 2 ^ 33) && sends t && t.sys.cid == m.cid then
      setPkt n { m with early := m.early.take t k } s
    else s
  | none => s

/-! ## The station (R274, R275) -/

/-- The station of a die for a VA (R274). -/
def stationOf (die va : Nat) : Nat := die * 3 + va / 2 ^ 21 % 3

/-- The die of a packet's requester. -/
def dieOf (s : State) (m : Pkt) : Nat :=
  if m.place = hostParty then 0 else if 2 ^ 34 ≤ m.place then m.place % 16 / 2 else tileDie (s.physOf m.cid m.place)

/-- The place by which a packet's requester hangs in the tree (R11). -/
def partyPlace (s : State) (m : Pkt) : Nat :=
  if m.place = hostParty then pciePlace s.dev else if 2 ^ 34 ≤ m.place then uePlace s.dev (m.place % 16)
  else tilePlace s.dev (s.physOf m.cid m.place)

/-- A packet that must pass the ports between two places: it goes on as `f` says, or the first port that does not pass its CID discards
it (R17). -/
def passPorts (n a b : Nat) (m : Pkt) (f : State → State) (s : State) : State :=
  match stopPort s.fab (pathOf s.svc.bw s.svc.rw a b) m.cid false with
  | some q => isolateAt q m.cid m.place (dropPkt n s)
  | none => f s

/-- The entry of a station's translation cache for a page (R274). -/
def tlbHit (l : List Tlb) (cid va : Nat) : Option Tlb := l.find? fun e => e.cid == cid && e.va == va / 2 ^ e.sh * 2 ^ e.sh

/-- An entry made the most recently used of a station (R274). -/
def tlbUse (st : Nat) (e : Tlb) (f : Fabric) : Fabric :=
  { f with tlb := FMap.put f.tlb st ((e :: (FMap.get [] f.tlb st).filter fun o => o != e).take 32768) }

/-- What a station does with a packet under an entry. -/
inductive Check
  | park (r : Nat)
  | freeze
  | fault (r : Nat)
  | go (l : Loc)
deriving DecidableEq, Repr

/-- Whether a request is a bank operation, or an atomic. -/
def isBank (k : RKind) : Bool := k == .bmv || k == .bmvt
def isAtomic (k : RKind) : Bool := k == .fetch || k == .posted

/-- Bits of an element of a page's format, and the bytes of a unit (R271, R272). -/
def pageBits (w0 : Nat) : Nat := if eFmt w0 = 2 then 4 else if eFmt w0 = 3 ∨ eFmt w0 = 4 then 16 else 8
def unitBytes (w0 : Nat) : Nat := if eLayout w0 = 2 then 2560 else 2048

/-- The fields of a bank operation's descriptor as its packet carries them: ROWS and COLS. -/
def bankRows (m : Pkt) : Nat := m.desc.getD 0 0
def bankCols (m : Pkt) : Nat := m.desc.getD 1 0

/-- Chunks of 64 bytes in a row, and units of the matrix (R272). -/
def bankChunks (m : Pkt) (w0 : Nat) : Nat := bankCols m * pageBits w0 / 512
def bankUnits (m : Pkt) (w0 : Nat) : Nat := bankRows m / 32 * bankChunks m w0

/-- Whether a matrix does not fit its page (R275, R286). -/
def bankMisfit (m : Pkt) (sh w0 : Nat) : Bool :=
  let po := m.va % 2 ^ sh
  eLayout w0 == 0 || bankCols m * pageBits w0 % 512 != 0 || po % unitBytes w0 != 0 || decide (2 ^ sh < po + bankUnits m w0 * unitBytes w0)

/-- The rights a request needs (R275): R, W, A. -/
def needs (k : RKind) : Bool × Bool × Bool :=
  match k with
  | .put => (false, true, false)
  | .putd => (false, true, false)
  | .fetch => (true, true, true)
  | .posted => (true, true, true)
  | _ => (true, false, false)

/-- The check of a packet under a leaf (R271, R273, R275, R294, R404). -/
def checkPkt (s : State) (m : Pkt) (sh w0 w1 : Nat) : Check :=
  let n := needs m.kind
  if eMigrating w1 || inMigration s m.cid m.va then .freeze
  else if isBank m.kind && decide (12 ≤ eStack w0) then .fault 5
  else if isAtomic m.kind && (eStack w0 == 15 || (eStack w0 == 14 && m.op == 24)) then .fault 4
  else match lacks w0 n.1 n.2.1 n.2.2 with
    | some e => .park e
    | none =>
      if isBank m.kind && (!bit w0 4 || bankMisfit m sh w0) then .park 5
      else match locate s m.cid n.2.1 m.va sh w0 w1 with
        | .ok l => .go l
        | .error e => .fault e

/-- The answer of PQRY (R291). -/
def pqryWord (sh w0 w1 : Nat) : Nat :=
  eHome w0 * 2 ^ 32 + eStack w0 * 2 ^ 24 + eFmt w0 * 2 ^ 20 + eLayout w0 * 2 ^ 16 + b2n (ePinned w1) * 2 ^ 12 + b2n (ePoison w1) * 2 ^ 11
    + b2n (eMigrating w1) * 2 ^ 10 + (if sh = 16 then 0 else if sh = 21 then 1 else 2) * 2 ^ 8 + w0 % 32

/-- The next stamp of the order in which stations translate, park and drop. -/
def stamp (s : State) : Nat × State := (s.fab.nextPkt, s.onFab fun f => { f with nextPkt := f.nextPkt + 1 })

/-- A packet joins its station's park store, for a fault or a migration, in the order of arrival; it completes with FAULT 8 where the store is
full (R275, R294). -/
def storePkt (n : Nat) (m : Pkt) (st : PSt) (r : Nat) (s : State) : State :=
  let others := s.fab.pkts.take n ++ s.fab.pkts.drop (n + 1)
  let held := (others.filter fun o => (o.st == .parked || o.st == .frozen) && o.station == m.station).length
  if 4096 ≤ held then setPkt n { m with st := .faulted, reason := 8 } s
  else
    let (g, s) := stamp s
    setPkt n { m with st := st, reason := r, gen := g } s

/-- A packet parks for a fault, and the station sends the pager a notice with its CID, VA and kind (R275); a host access is never parked
(R411). -/
def parkPkt (n : Nat) (m : Pkt) (r : Nat) (s : State) : State :=
  if m.place = hostParty then setPkt n { m with st := .faulted, reason := r } s
  else storePkt n m .parked r (s.onFab fun f => { f with notices := f.notices ++ [(m.cid, m.va, m.kind)] })

/-- The order span of a packet under a page of 2^sh bytes (R274): the 2 MiB span, or the page where it is smaller. -/
def sameSpan (sh : Nat) (m o : Pkt) : Bool := o.va / 2 ^ 21 == m.va / 2 ^ 21 && (decide (21 ≤ sh) || o.va / 65536 == m.va / 65536)

/-- Whether a packet is one of the ordinary packets that R279 rule 1 orders. -/
def ordinary (m : Pkt) : Bool := m.ord != 1 && !isBank m.kind && m.kind != .bfence && m.kind != .pqry

/-- Whether an earlier ordinary packet of the requester in the order span still waits at its station (R275, R279): parked packets of one
requester keep their order. -/
def behind (s : State) (sh : Nat) (m : Pkt) : Bool :=
  ordinary m && s.fab.pkts.any fun o => issuedBefore o m && ordinary o && sameSpan sh m o
    && (o.st == .walking || o.st == .parked || o.st == .frozen)

/-- The number of the unit of its page in which a packet under a page of 2^sh bytes lies (R271). -/
def unitOf (m : Pkt) (sh w0 : Nat) : Nat := m.va % 2 ^ sh / unitBytes w0

/-- The place of a packet's home on its device (R271, R273): a cistern, the PCI Express endpoint, or the entry's UE port. -/
def homePlace (s : State) (m : Pkt) (sh w0 : Nat) (l : Loc) : Nat :=
  match l with
  | .hbm _ => cisternPlace (eHome w0) (eStack w0) (unitOf m sh w0)
  | .host _ _ => pciePlace (eHome w0)
  | .ue _ => uePlace s.dev (bits (((ueEndpoint s m.cid (eHome w0)).getD []).getD 3 0) 34 32)
  | .door _ => doorCistern s m.cid

/-- The ports between a place of this device and a packet's home (R17); towards another device those up to the device root. -/
def homePorts (s : State) (a b : Nat) : List Nat :=
  if bits b 30 11 = s.dev then pathOf s.svc.bw s.svc.rw a b else wayUp s.svc.bw s.svc.rw 4 a

/-- The ports that a packet passes from its station to its home. -/
def exitPorts (s : State) (m : Pkt) (sh w0 : Nat) (l : Loc) : List Nat := homePorts s (stationPlace s.dev m.station) (homePlace s m sh w0 l)

/-- The ports that the answer of a packet passes: from its home, or from its station for a fault and for PQRY's answer, to its requester. -/
def replyPorts (s : State) (m : Pkt) : List Nat :=
  if m.st == .faulted || m.kind == .pqry then pathOf s.svc.bw s.svc.rw (stationPlace s.dev m.station) (partyPlace s m)
  else homePorts s (partyPlace s m) (homePlace s m m.sh m.w0 m.loc)

/-- A packet sent on by its station, unless a port on its way discards it (R17). -/
def forward (n : Nat) (m : Pkt) (sh w0 : Nat) (l : Loc) (f : State → State) (s : State) : State :=
  match (exitPorts s m sh w0 l).find? fun q => !portPasses s.fab q m.cid false with
  | some q => isolateAt q m.cid m.place (dropPkt n s)
  | none => f s

/-- The packets of a bank operation, one for each channel pair that holds units of its matrix (R271, R287). -/
def bankPkts (m : Pkt) (w0 : Nat) : List Pkt :=
  let u0 := m.va % 2 ^ m.sh / unitBytes w0
  (List.range 16).filterMap fun c =>
    let us := (List.range (bankUnits m w0)).filter fun u => (u0 + u) % 16 == c
    if us.isEmpty then none else some { m with st := .routed, todo := us.map fun u => (u, 0), len := bankUnits m w0 * unitBytes w0 }

/-- A packet under an entry: answered, parked, frozen, faulted, or sent on to its cistern (R274, R275). -/
def translated (n : Nat) (m : Pkt) (sh w0 w1 : Nat) (s : State) : State :=
  if m.kind == .pqry then setPkt n { m with st := .answered, reply := Mem.setLe [] 0 8 (pqryWord sh w0 w1) } s
  else match checkPkt s m sh w0 w1 with
    | .park r => parkPkt n m r s
    | .freeze => storePkt n m .frozen 0 s
    | .fault r => setPkt n { m with st := .faulted, reason := r } s
    | .go l =>
      if behind s sh m then setPkt n { m with st := .walking } s
      else forward n m sh w0 l (fun s =>
        let (g, s) := stamp s
        let m := { m with st := .routed, sh := sh, w0 := w0, w1 := w1, gen := g, loc := l,
                          todo := granules (match l with | .hbm _ => 32 | _ => 8) m.va m.len }
        if isBank m.kind then s.onFab fun f => { f with pkts := f.pkts.take n ++ bankPkts m w0 ++ f.pkts.drop (n + 1) }
        else setPkt n m s) s

/-- A packet in the doorbell page, which is mapped with W alone (R354). -/
def doorPkt (n : Nat) (m : Pkt) (s : State) : State :=
  if m.kind == .pqry then setPkt n { m with st := .answered, reply := Mem.setLe [] 0 8 (pqryWord 16 (doorEntry s m.cid) 0) } s
  else if m.kind == .put || m.kind == .putd then
    forward n m 16 0 (.door (m.va % 4096)) (setPkt n { m with st := .routed, sh := 16, w0 := s.dev * 2 ^ 16, loc := .door (m.va % 4096), todo := granules 8 m.va m.len }) s
  else parkPkt n m 2 s

/-- STATION_REQUEST (R274, R17): a packet leaves its requester, passes the ports to the station and is looked up; a miss starts a walk, of
which a station runs 64. -/
def execStationRequest (n : Nat) (s : State) : Out :=
  .next (match elemAt s.fab.pkts n with
  | some m =>
    if m.st != .atStation || !mayLeave s m then s
    else
      let st := stationOf (dieOf s m) m.va
      passPorts n (partyPlace s m) (stationPlace s.dev st) m (fun s =>
        let r := loadPkt s m
        let m := { r.1 with station := st }
        let s := setPkt n m r.2
        if inDoor s m then doorPkt n m s
        else match tlbHit (FMap.get [] s.fab.tlb st) m.cid m.va with
        | some e => translated n m e.sh e.w0 e.w1 (s.onFab (tlbUse st e))
        | none =>
          if (s.fab.pkts.filter fun o => o.st == .walking && o.station == st).length < 64 then setPkt n { m with st := .walking } s else s) s
  | none => s)

/-- The end of a walk for a packet (R270, R274): a leaf is cached; without a valid entry the packet parks, and a malformed one gives
FAULT 7 and is reported to the pager. PQRY gets zero. -/
def walked (n : Nat) (m : Pkt) (s : State) : State :=
  match walk s m.cid m.va with
  | .leaf sh w0 w1 _ =>
    translated n m sh w0 w1 (s.onFab (tlbUse m.station { cid := m.cid, va := m.va / 2 ^ sh * 2 ^ sh, sh := sh, w0 := w0, w1 := w1 }))
  | .none _ _ => if m.kind == .pqry then setPkt n { m with st := .answered } s else parkPkt n m 1 s
  | .bad _ =>
    setPkt n (if m.kind == .pqry then { m with st := .answered } else { m with st := .faulted, reason := 7 })
      (s.onFab fun f => { f with malformed := f.malformed ++ [(m.cid, m.va)] })

/-- TRANSLATION_WALK_DONE (R274). -/
def execTranslationWalkDone (n : Nat) (s : State) : Out :=
  .next (match elemAt s.fab.pkts n with
  | some m => if m.st == .walking then walked n m s else s
  | none => s)

/-- The positions of the packets that a test accepts. -/
def pktsWhere (s : State) (f : Pkt → Bool) : List Nat := ((List.range s.fab.pkts.length).zip s.fab.pkts).filterMap fun e => if f e.2 then some e.1 else none

/-- The stored packet of a stamp walked again. -/
def rewalkOne (s : State) (g : Nat) : State :=
  match findIdx (fun m : Pkt => (m.st == .parked || m.st == .frozen) && m.gen == g) s.fab.pkts 0 with
  | some (n, m) => walked n m s
  | none => s

/-- Stored packets that a test accepts, walked again and forwarded in the order of their arrival (R275, R294). -/
def rewalk (f : Pkt → Bool) (s : State) : State := (sortBy id ((s.fab.pkts.filter f).map (·.gen))).foldl rewalkOne s

/-- PAGER_FAULT_RESOLUTION (R275): `ok` 0 refuses: the packets of the page that wait for the same reason complete with FAULT; otherwise
the pager has changed the page, and they are walked again. -/
def execPagerFaultResolution (n ok : Nat) (s : State) : Out :=
  .next (match elemAt s.fab.pkts n with
  | some m =>
    if m.st != .parked then s
    else
      let waits (o : Pkt) : Bool :=
        o.st == .parked && o.station == m.station && o.cid == m.cid && o.va / 65536 == m.va / 65536 && o.reason == m.reason
      let s := s.onFab fun f => { f with notices := f.notices.filter fun e => !(e.1 == m.cid && e.2.1 / 65536 == m.va / 65536) }
      if ok = 0 then
        (pktsWhere s waits).foldl (fun s k => match elemAt s.fab.pkts k with | some o => setPkt k { o with st := .faulted } s | none => s) s
      else rewalk waits s
  | none => s)

/-! ## Performing (R278, R279, R284) -/

/-- Whether an earlier ordinary packet of the requester in the order span must be performed first (R279 rule 1): the 2 MiB span, or
the page where it is smaller. -/
def spanBefore (m o : Pkt) : Bool :=
  o.place == m.place && o.cid == m.cid && m.ord != 1 && unperformed o && ordinary o && sameSpan m.sh m o

/-- The new value of an atomic (R284): `op` is FN[4:0]. -/
def atomicNew (op n old b c : Nat) : Nat :=
  let w := 8 * n
  let lt (x y : Nat) : Bool := decide (sext x w < sext y w)
  (if op = 16 ∨ op = 25 then old + b
    else if op = 17 then Nat.land old b
    else if op = 18 then Nat.lor old b
    else if op = 19 then Nat.xor old b
    else if op = 20 then (if lt b old then b else old)
    else if op = 21 ∨ op = 26 then (if lt old b then b else old)
    else if op = 22 then b
    else if op = 23 then (if old = c then b else old)
    else (fpAdd f32 0 (f32.unpack old) (f32.unpack b)).1) % 2 ^ w

/-- Whether a home is on another device of the domain: its memory, or its host's. -/
def farHome (s : State) (m : Pkt) : Bool := (eStack m.w0 < 12 || eStack m.w0 == 15) && eHome m.w0 != s.dev

/-- The virtual channel of a memory request (R209): ordered, or relaxed with .r. -/
def reqVc (m : Pkt) : Nat := if m.ord = 1 then 1 else 0

/-- The header of a memory request to another device, or of a reply to one: class, CID, source and destination as R208 lays them out. The
other fields are laid out nowhere (log 115), but a reply's kind is none of the four of messages. -/
def requestHeader (cls cid src dst g : Nat) : Nat :=
  let u (i n : Nat) : Nat := Config.unstated 208 (4 * g + i) % n
  dst % 2 ^ 32 + src % 2 ^ 32 * 2 ^ 32 + cid % 2 ^ 12 * 2 ^ 64 + u 0 (2 ^ 28) * 2 ^ 76 + cls * 2 ^ 104
    + u 1 (2 ^ 4) * 2 ^ 108 + (if cls = 5 then 4 + u 2 12 else u 2 16) * 2 ^ 112 + u 3 (2 ^ 140) * 2 ^ 116

/-- Bytes as flits. -/
def byteFlits (d : List Byte) : List Nat := (List.range ((d.length + 31) / 32)).map fun i => leNat ((d.drop (32 * i)).take 32)

/-- The flits of a memory request: its header, and the bytes or the operands that it takes along. -/
def requestFlits (s : State) (m : Pkt) : List Nat :=
  requestHeader 4 m.cid m.place (homePlace s m m.sh m.w0 m.loc) m.gen
    :: byteFlits (if isAtomic m.kind then natLe 8 m.b ++ natLe 8 m.c else m.data)

/-- What a packet to another device's home comes to before it is performed there (R209, R280 reason 8, R403): it stands before the port of its
hash, unless that discards it; it waits while a port may still train, and until its flits have gone out. None for one that may be performed. -/
def farGate (n : Nat) (m : Pkt) (s : State) : Option State :=
  if !farHome s m then none
  else if m.sent then (if s.ports.any fun e => e.2.sendq.any fun p => p.req.contains m.gen then some s else none)
  else match upPortOf s (reqVc m) (homePlace s m m.sh m.w0 m.loc) with
    | none => some (if linkLeft s then s else setPkt n { m with st := .faulted, reason := 8 } s)
    | some q =>
      let port := portOfPlace (welimPlace s.dev q)
      some (if portPasses s.fab port m.cid false then putFlits q (waitingFlits (reqVc m) [m.gen] (requestFlits s m)) (setPkt n { m with sent := true } s)
        else isolateAt port m.cid m.place (dropPkt n s))

/-- The runs of bytes that a write packet has inside a granule: offset in the packet and length. Pieces that cover all of it are one run. -/
def writeRuns (m : Pkt) (e : Nat × Nat) : List (Nat × Nat) :=
  let l := (pktPieces m).filterMap fun q =>
    let lo := Nat.max q.1 e.1
    let hi := Nat.min (q.1 + q.2.2) (e.1 + e.2)
    if lo < hi then some (lo, hi - lo) else none
  if (List.range e.2).all fun i => l.any fun r => decide (r.1 ≤ e.1 + i) && decide (e.1 + i < r.1 + r.2) then [e] else l

/-- One granule of a packet performed: an event at its point of order (R278, R296). -/
def performGranule (m : Pkt) (e : Nat × Nat) (s : State) : Pkt × State :=
  let l := m.loc.plus e.1
  let sec := (m.va + e.1) / 32
  let x := locRead l e.2 s.fab
  if isAtomic m.kind then
    if x.2 then ({ m with st := .faulted, reason := 6 }, s)
    else
      let old := leNat x.1
      let new := atomicNew m.op e.2 old (m.b % 2 ^ (8 * e.2)) (m.c % 2 ^ (8 * e.2))
      ({ m with reply := Mem.setBytes [] 0 x.1 }, s.onFab (locWrite l (natLe e.2 new) false))
  else if isRead m.kind then
    ({ m with reply := Mem.setBytes m.reply e.1 x.1, rpsec := if x.2 then NSet.add m.rpsec sec else m.rpsec }, s)
  else
    let bytes (r : Nat × Nat) : List Byte := (m.data.drop r.1).take r.2
    (m, (writeRuns m e).foldl (fun s r => match m.loc with
      | .door q => doorWrite m.cid (q + r.1) (bytes r) s
      | l => s.onFab (locWrite (l.plus r.1) (bytes r) (NSet.mem m.psec sec))) s)

/-- PACKET_PERFORM (R278): one granule of a packet, which of those left being open, once the ordinary packets before it are performed. A packet to
another device goes out by a Welim port first (R209).
A remote device may refuse a packet (R273); one whose home no link reaches completes with FAULT 8. -/
def execPacketPerform (n : Nat) (s : State) : Out :=
  .next (match elemAt s.fab.pkts n with
  | some m =>
    if m.st != .routed || isBank m.kind || m.kind == .bfence || (s.fab.pkts.take n).any (spanBefore m) then s
    else match farGate n m s with
    | some t => t
    | none =>
      let (c, s) := s.takeFree
      let ue := match m.loc with | .ue _ => true | _ => false
      if ue && Config.unstated 273 c % 2 == 1 then setPkt n { m with st := .faulted, reason := 8 } s
      else
        let k := Config.unstated 278 c % m.todo.length
        match elemAt m.todo k with
        | none => setPkt n { m with st := .answered } s
        | some e =>
          let r := performGranule { m with todo := dropAt m.todo k } e s
          setPkt n (if r.1.todo.isEmpty && r.1.st == .routed then { r.1 with st := .answered } else r.1) r.2
  | none => s)

end Sys2Proof.Machine
end

