-- ==== Sys2Proof/Machine/Request.lean ====
section
/-!
DEFINITION. Sys2Proof/Machine/Request.lean: the request slots of a tile (R277, R280): GET, PUT, GETD, PUTD, GETI, PQRY and the memory
atomics (R282 to R284, R291, R292), and their replies.
-/

namespace Sys2Proof.Machine

/-! ## Issue (R277) -/

/-- The lowest free request slot. -/
def freeReq (t : Tile) : Option Nat := freeKey t.mreq.reqs 64

/-- A request put in slot `k` with its packets, which wait to leave. -/
def issueReq (k : Nat) (base : Pkt) (cntf : Nat) (spans : List Span) (s : State) : State :=
  let t := s.t
  let q := t.mreq.seq
  let r : Req := { kind := base.kind, seq := q, ord := base.ord, cntf := cntf, spans := spans, left := spans.length,
                   asn := t.task.asn, actw := t.sys.actw, desc := base.desc }
  let me := s.placeOf s.cur
  let one (e : Nat × Span) : Pkt :=
    { base with place := me, slot := k, seq := q, idx := e.1, cid := t.sys.cid, va := e.2.va, off := e.2.off, len := e.2.len, pieces := e.2.pieces }
  (s.onT fun t => { t with mreq := { t.mreq with reqs := FMap.put t.mreq.reqs k r, seq := q + 1 } }).onFab fun f =>
    { f with pkts := f.pkts ++ ((List.range spans.length).zip spans).map one }

/-- The packets of a contiguous range from local offset `o`. -/
def spansOf (va o n : Nat) : List Span := (cutRange va n).map fun e => { va := e.1, off := o + (e.1 - va), len := e.2 }

/-- The check of a register that carries a VA (R267). -/
def vaBad (a : W64) : Bool × TrapInfo := (bits a.toNat 63 56 != 0, tr cTenant (a.toNat % 2 ^ 32))

/-- A request that is accepted: P[D] says whether a slot was free (R277); `f` issues it. -/
def accepted (x : R) (f : Nat → State → State) (s : State) : State :=
  match freeReq s.t with
  | none => wp x.d false s
  | some k => wp x.d true (f k s)

/-! ## GET and PUT (R283) -/

/-- GET and PUT; a length of 0 completes at once. -/
def moveForm (kind : RKind) (x : R) (s : State) : Out :=
  .next (guarded x.g x.n (fun s =>
    let bw := (rg s x.a).toNat
    let va := (rg s x.b).toNat
    checked (vaBad (rg s x.b) :: bwChecks bw) (accepted x fun k s =>
      if bwLen bw = 0 then decField s.cur (bwCntf bw) s
      else issueReq k { kind := kind, ord := x.m } (bwCntf bw) (spansOf va (bwOff bw) (bwLen bw)) s) s) s)

/-- GET (R283). -/
def execGet (x : R) (s : State) : Out := moveForm .get x s
/-- PUT (R283). -/
def execPut (x : R) (s : State) : Out := moveForm .put x s

/-- A field error of a 2-D descriptor (R283): its rows must lie in the VA space and in SRAM. -/
def rowsBad (w0 w1 w2 w3 o : Nat) : Bool :=
  let len := bits w1 23 0
  let rows := bits w1 47 32
  let last : Int := (rows : Int) - 1
  let stride := sext w2 48
  bits w0 63 56 != 0 || bits w1 31 24 != 0 || bits w1 63 48 != 0 || bits w2 63 48 != 0 || bits w3 63 21 != 0 || rows == 0 || len == 0
    || decide ((w0 : Int) + last * stride < 0) || decide ((2 : Int) ^ 56 < (w0 : Int) + last * stride + len) || decide (2 ^ 56 < w0 + len)
    || decide (sramTop < o + (rows - 1) * bits w3 20 0 + len)

/-- Whether two packets have bytes in one sector of memory. -/
def shareSector (a b : Span) : Bool := (sectorsOf a.va a.len).any (sectorsOf b.va b.len).contains

/-- The pieces of a packet: offset in it, local offset, length, row. -/
def Span.parts (e : Span) : List (Nat × Nat × Nat × Nat) := if e.pieces.isEmpty then [(0, e.off, e.len, e.row)] else e.pieces

/-- A packet with the bytes of another row in its sectors taken in. -/
def joinSpan (a b : Span) : Span :=
  let lo := Nat.min a.va b.va
  let move (e : Span) : List (Nat × Nat × Nat × Nat) := e.parts.map fun q => (q.1 + (e.va - lo), q.2)
  { va := lo, off := a.off, len := Nat.max (a.va + a.len) (b.va + b.len) - lo, row := a.row, pieces := move a ++ move b }

/-- A row's packet put among those of the rows before it: the bytes of one request in one sector travel in one packet (R277). -/
def addSpan (l : List Span) (e : Span) : List Span :=
  if !l.any (shareSector e) then l ++ [e]
  else ((granules 32 e.va e.len).map fun g => { e with va := e.va + g.1, off := e.off + g.1, len := g.2 }).foldl (fun l g =>
    match findIdx (shareSector g) l 0 with | some (i, h) => setAt l i (joinSpan h g) | none => l ++ [g]) l

/-- The packets of a 2-D request, row after row (R277, R283). -/
def rowSpans (w0 w1 w2 w3 o : Nat) : List Span :=
  ((List.range (bits w1 47 32)).flatMap fun (i : Nat) =>
    let va : Int := w0 + i * sext w2 48
    (spansOf va.toNat (o + i * bits w3 20 0) (bits w1 23 0)).map fun e => { e with row := i }).foldl addSpan []

/-- GETD and PUTD: the descriptor is read at issue; one that is wrong raises REQ and nothing is sent. -/
def rowForm (kind : RKind) (x : R) (s : State) : Out :=
  .next (guarded x.g x.n (fun s =>
    let bw := (rg s x.a).toNat
    let b := rg s x.b
    checked ((bwLen bw != 0, tr cIllegalOp) :: bwChecks bw ++ win0Checks s b 32 8 true) (fun s =>
      let w (k : Nat) : Nat := Mem.le (preSram s.t) (bits b.toNat 20 0 + 8 * k) 8
      match freeReq s.t with
      | none => wp x.d false s
      | some k =>
        if rowsBad (w 0) (w 1) (w 2) (w 3) (bwOff bw) then wp x.d false (raiseAsync s.cur (tr cReq) s)
        else wp x.d true (issueReq k { kind := kind, ord := x.m } (bwCntf bw) (rowSpans (w 0) (w 1) (w 2) (w 3) (bwOff bw)) s)) s) s)

/-- GETD (R283). -/
def execGetd (x : R) (s : State) : Out := rowForm .getd x s
/-- PUTD (R283). -/
def execPutd (x : R) (s : State) : Out := rowForm .putd x s

/-! ## Memory atomics (R284) -/

/-- The width of an atomic in bytes. -/
def atomicSize (x : R) : Nat := if bit x.m 2 then 4 else 8

/-- The checks of an atomic (R267, R284). -/
def atomicChecks (x : R) (a : W64) (extra : Bool) : List (Bool × TrapInfo) :=
  [(extra, tr cIllegalOp), (a.toNat % atomicSize x != 0, tr cAlign (a.toNat % 2 ^ 32)), vaBad a]

/-- A fetch atomic: the bundle waits for a free slot, then for the reply, which it writes to G[D]. -/
def fetchForm (op : Nat) (x : R) (s : State) : Out :=
  .next (guarded x.g x.n (fun s =>
    let a := rg s x.a
    checked (atomicChecks x a (op == 24 && !bit x.m 2)) (fun s =>
      match wokenVal s with
      | some v => wg x.d (BitVec.ofNat 64 v) s
      | none =>
        match freeReq s.t with
        | none => stall (.atomic 64) s
        | some k =>
          let base : Pkt := { kind := .fetch, ord := x.m % 4, op := op, w := bit x.m 2, b := (rg s x.b).toNat, c := (rg s x.d).toNat }
          stall (.atomic k) (issueReq k base 0 [{ va := a.toNat, off := 0, len := atomicSize x }] s)) s) s)

/-- MAADD (R284). -/
def execMaadd (x : R) (s : State) : Out := fetchForm 16 x s
/-- MAAND (R284). -/
def execMaand (x : R) (s : State) : Out := fetchForm 17 x s
/-- MAOR (R284). -/
def execMaor (x : R) (s : State) : Out := fetchForm 18 x s
/-- MAXOR (R284). -/
def execMaxor (x : R) (s : State) : Out := fetchForm 19 x s
/-- MAMIN (R284). -/
def execMamin (x : R) (s : State) : Out := fetchForm 20 x s
/-- MAMAX (R284). -/
def execMamax (x : R) (s : State) : Out := fetchForm 21 x s
/-- MASWAP (R284). -/
def execMaswap (x : R) (s : State) : Out := fetchForm 22 x s
/-- MACAS (R284): G[D] is compared. -/
def execMacas (x : R) (s : State) : Out := fetchForm 23 x s
/-- MAFADD (R284): W only. -/
def execMafadd (x : R) (s : State) : Out := fetchForm 24 x s

/-- A posted atomic. -/
def postedForm (op : Nat) (x : R) (s : State) : Out :=
  .next (guarded x.g x.n (fun s =>
    let a := rg s x.a
    checked (atomicChecks x a false) (accepted x fun k s =>
      let base : Pkt := { kind := .posted, ord := x.m % 4, op := op, w := bit x.m 2, b := (rg s x.b).toNat }
      issueReq k base 0 [{ va := a.toNat, off := 0, len := atomicSize x }] s) s) s)

/-- MSADD (R284). -/
def execMsadd (x : R) (s : State) : Out := postedForm 25 x s
/-- MSMAX (R284). -/
def execMsmax (x : R) (s : State) : Out := postedForm 26 x s

/-! ## PQRY, GETI and FENCE (R285, R291, R292) -/

/-- PQRY (R291): the bundle waits for a slot, then for the station's answer. -/
def execPqry (x : R) (s : State) : Out :=
  .next (guarded x.g x.n (fun s =>
    let a := rg s x.a
    checked [vaBad a] (fun s =>
      match wokenVal s with
      | some v => wg x.d (BitVec.ofNat 64 v) s
      | none =>
        match freeReq s.t with
        | none => stall (.pqry 64) s
        | some k => stall (.pqry k) (issueReq k { kind := .pqry } 0 [{ va := a.toNat, off := 0, len := 1 }] s)) s) s)

/-- The checks of GETI (R292). -/
def getiChecks (s : State) (a b : W64) : List (Bool × TrapInfo) :=
  let w := a.toNat
  let n := bits w 31 16
  [(n == 0 || decide (32768 < n) || bit w 15 || bits w 55 32 != 0 || cntfBad (bits w 63 56), tr cIllegalOp),
   (decide (32768 < bits w 14 0 + n), tr cLocalRange (b.toNat % 2 ^ 32)), (b.toNat % 4 != 0, tr cAlign (b.toNat % 2 ^ 32)), vaBad b,
   (!(s.ctx s.t.sys.cid).overlayOk, tr cTenant (b.toNat % 2 ^ 32))]

/-- GETI (R292): `off` is the byte offset in IMEM. -/
def execGeti (x : R) (s : State) : Out :=
  .next (guarded x.g x.n (fun s =>
    let a := (rg s x.a).toNat
    checked (getiChecks s (rg s x.a) (rg s x.b)) (accepted x fun k s =>
      issueReq k { kind := .geti } (bits a 63 56) (spansOf (rg s x.b).toNat (4 * bits a 14 0) (4 * bits a 31 16)) s) s) s)

/-- A fence placed among the tile's requests (R285). -/
def addFence (p scope act : Nat) (s : State) : State :=
  s.onTile p fun t =>
    let f : Fence := { scope := scope, seq := t.mreq.seq, mx := t.mx.done + t.mx.queue.length, act := act, kern := t.kernel.getD 0 }
    { t with mreq := { t.mreq with fences := t.mreq.fences ++ [f], seq := t.mreq.seq + 1 } }

/-- FENCE (R285): the A field is the scope. -/
def execFence (x : R) (s : State) : Out := .next (guarded x.g x.n (fun s => addFence s.cur x.a 0 s) s)

/-! ## Completion (R280) -/

/-- A request's slot freed: a bundle that waits for a free slot goes on. -/
def endReq (p k : Nat) (s : State) : State :=
  wake p (fun w => match w with | .atomic j => decide (64 ≤ j) | .pqry j => decide (64 ≤ j) | _ => false)
    (s.onTile p fun t => { t with mreq := { t.mreq with reqs := FMap.drop t.mreq.reqs k } })

/-- A request of tile `p` changed. -/
def setReq (p k : Nat) (f : Req → Req) (s : State) : State :=
  s.onTile p fun t => { t with mreq := { t.mreq with reqs := FMap.put t.mreq.reqs k (f (FMap.get {} t.mreq.reqs k)) } }

/-- The first port that keeps an answer from its requester (R17): one that does not pass its CID, or the firewall before a service tile, which its
class must pass (R368). -/
def replyStop (s : State) (m : Pkt) : Option Nat :=
  let p := s.physOf m.cid m.place
  match stopPort s.fab (replyPorts s m) m.cid false with
  | some q => some q
  | none => if m.place < 2 ^ 33 ∧ firewalled s p 5 then some (portOfSwitch (switchAt s.svc.bw s.svc.rw 0 (tilePlace s.dev p))) else none

/-- The answered packet at position `n` gone from the edge and taken as `f` says, unless a port on its way discards it (R17, R368). -/
def takeReply (n : Nat) (m : Pkt) (f : State → State) (s : State) : State :=
  let s' := dropPkt n s
  match replyStop s m with
  | some q => isolateAt q m.cid (homePlace s m m.sh m.w0 m.loc) s'
  | none => f s'

/-- The answered packet at position `n` that a tile is there to take, with the tile (R295: until then it waits). -/
def replyFor (s : State) (n : Nat) (ok : RKind → Bool) : Option (Nat × Pkt) :=
  match elemAt s.fab.pkts n with
  | some m =>
    let p := s.physOf m.cid m.place
    if ok m.kind && !unperformed m && decide (m.place < 2 ^ 33) && takes (s.tile p) m.cid && !replayFirst s m.cid m.place m.replay
    then some (p, m) else none
  | none => none

/-- The first fault of a request: that of its first packet (R280). -/
def firstFault (a b : Option (Nat × Nat × Nat)) : Option (Nat × Nat × Nat) :=
  match a, b with
  | some x, some y => if y.2.1 < x.2.1 then some y else some x
  | some x, none => some x
  | none, o => o

/-- The fault a packet brings: reason, number, VA. -/
def faultOf (m : Pkt) : Option (Nat × Nat × Nat) := if m.st == .faulted then some (m.reason, m.idx, m.va) else none

/-- A packet of request `k` is answered: after the last one the request completes, or its fault waits to be raised (R280). -/
def endPkt (p k : Nat) (m : Pkt) (s : State) : State :=
  let s := setReq p k (fun r => { r with ansd := NSet.add r.ansd m.idx, left := r.left - 1, fault := firstFault r.fault (faultOf m) }) s
  let r := FMap.get ({} : Req) (s.tile p).mreq.reqs k
  if r.left = 0 ∧ r.fault.isNone then decField p r.cntf (endReq p k s) else s

/-- The bytes of a read packet's piece that fall in sector `sec` of SRAM: row, offset, bytes, and whether they carry poison. -/
def pieceIn (va : Nat) (q : Nat × Nat × Nat × Nat) (d : List Byte × NSet) (sec : Nat) : Nat × Nat × List Byte × Bool :=
  let off := q.2.1
  let lo := Nat.max off (32 * sec)
  let n := Nat.min (off + q.2.2.1) (32 * sec + 32) - lo
  (q.2.2.2, lo, (d.1.drop (q.1 + (lo - off))).take n, (sectorsOf (va + q.1 + (lo - off)) n).any (NSet.mem d.2))

/-- The pieces of a packet that touch sector `sec` of SRAM. -/
def partsIn (e : Span) (sec : Nat) : List (Nat × Nat × Nat × Nat) := e.parts.filter fun q => (sectorsOf q.2.1 q.2.2.1).contains sec

/-- A sector of SRAM written once every packet that has bytes for it has been answered, the later rows last (R196, R278, R283). -/
def fillSector (p : Nat) (r : Req) (sec : Nat) (s : State) : State :=
  let l := ((List.range r.spans.length).zip r.spans).filter fun e => !(partsIn e.2 sec).isEmpty
  if l.all fun e => NSet.mem r.ansd e.1 then
    let ps := sortBy (fun e => e.1) (l.flatMap fun e => match r.got.find? fun g => g.1 == e.1 with
      | some g => (partsIn e.2 sec).map fun q => pieceIn e.2.va q g.2 sec
      | none => [])
    if ps.isEmpty then s
    else ps.foldl (fun s e => noteAccess p true true e.2.1 e.2.2.1.length s)
      (s.onTile p fun t => t.writeAll (ps.map fun e => (e.2.1, e.2.2.1)) false (ps.any fun e => e.2.2.2))
  else s

/-- The packet gone from the edge, and its request if that still stands in its slot. -/
def requestOf (s : State) (p : Nat) (m : Pkt) : Option Req := (FMap.get none ((s.tile p).mreq.reqs.map fun e => (e.1, some e.2)) m.slot).filter fun r => r.seq == m.seq

/-- A request with a read packet's bytes kept. -/
def withReply (m : Pkt) (r : Req) : Req :=
  { r with ansd := NSet.add r.ansd m.idx, got := if m.st == .faulted then r.got else FMap.put r.got m.idx (Mem.bytes m.reply 0 m.len, m.rpsec) }

/-- The sectors of SRAM that a read packet's bytes go to and its reply has not reached already. -/
def replySectors (m : Pkt) : List Nat :=
  ((pktPieces m).flatMap fun q => sectorsOf q.2.1 q.2.2).eraseDups.filter fun k => !NSet.mem m.wrote k

/-- A read packet's bytes kept, and the sectors that they complete written. -/
def takeBytes (p : Nat) (m : Pkt) (s : State) : State :=
  let s := setReq p m.slot (withReply m) s
  (replySectors m).foldl (fun s sec => fillSector p (FMap.get {} (s.tile p).mreq.reqs m.slot) sec s) s

/-- EARLY WRITE of a sector that the reply at position `n` completes, before the others (R278, R297). -/
def earlyReply (n k : Nat) (s : State) : State :=
  match replyFor s n fun x => x == .get || x == .getd with
  | some (p, m) =>
    match requestOf s p m, elemAt (replySectors m) k, (replyStop s m).isNone with
    | some r, some sec, true =>
      let r := withReply m r
      if (List.range r.spans.length).all fun i => (partsIn (r.spans.getD i {}) sec).isEmpty || NSet.mem r.ansd i then
        setPkt n { m with wrote := NSet.add m.wrote sec } (fillSector p r sec s)
      else s
    | _, _, _ => s
  | none => s

/-- The value a fetch atomic returns (R284). -/
def fetched (m : Pkt) : Nat :=
  if m.w then wrapN 64 (sext (Mem.le m.reply 0 4) 32) else Mem.le m.reply 0 8

/-- PQRY_REPLY (R291). -/
def execPqryReply (n : Nat) (s : State) : Out :=
  .next (match replyFor s n (· == .pqry) with
  | some (p, m) => takeReply n m (fun s =>
    match requestOf s p m with
    | some _ =>
      let v := Mem.le m.reply 0 8
      endPkt p m.slot m (wakeVal p (fun w => match w with | .pqry j => if j = m.slot then some v else none | _ => none) s)
    | none => s) s
  | none => s)

/-- Code words written in IMEM from a byte offset, with fresh SECDED; their blocks are marked in the overlay map (R27, R292). -/
def writeCode (o : Nat) (d : List Byte) (t : Tile) : Tile :=
  let ws := (List.range (d.length / 4)).map fun i => (o / 4 + i, leNat ((d.drop (4 * i)).take 4))
  { t with
    imem := ws.foldl (fun m e => FMap.set 0 m e.1 (BitVec.ofNat 32 e.2)) t.imem
    imemBad := NSet.delAll t.imemBad (ws.map (·.1))
    overlay := NSet.addAll t.overlay (ws.map fun e => e.1 / 256) }

/-- GETI_WORD_WRITE (R292): the words of a reply are written. -/
def execGetiWordWrite (n : Nat) (s : State) : Out :=
  .next (match replyFor s n (· == .geti) with
  | some (p, m) => takeReply n m (fun s =>
    match requestOf s p m with
    | some _ => endPkt p m.slot m (if m.st == .faulted then s else s.onTile p (writeCode m.off (Mem.bytes m.reply 0 m.len)))
    | none => s) s
  | none => s)

/-- Whether the activation that issued a request still runs (R280). -/
def stillRuns (t : Tile) (r : Req) : Bool := (t.life == .running || t.dbg.suspended) && t.task.asn == r.asn && t.sys.actw == r.actw

/-- MEM_FAULT raised for a request (R280): at the running activation's next boundary, or as the fault of one that has ended. -/
def raiseFault (p k : Nat) (r : Req) (f : Nat × Nat × Nat) (s : State) : State :=
  let ti : TrapInfo := { cause := cMemFault, sub := f.1 * 256, daddr := f.2.2 % 2 ^ 32 }
  let run := stillRuns (s.tile p) r
  let s := endReq p k s
  let s := if r.kind == .bfence then settle p s else s
  if run then raiseAsync p ti s else orphanFault p ti r.actw s

/-- MEM_FAULT_TRAP (R280): the first request whose packets have all been answered, one of them with FAULT. -/
def execMemFaultTrap (p : Nat) (s : State) : Out :=
  .next (match (s.tile p).mreq.reqs.find? fun e => e.2.left == 0 && e.2.fault.isSome with
  | some (k, r) => match r.fault with | some f => raiseFault p k r f s | none => s
  | none => s)

end Sys2Proof.Machine
end

