-- ==== Sys2Proof/Machine/Bank.lean ====
section
/-!
DEFINITION. Sys2Proof/Machine/Bank.lean: bank compute: BMV, BMVT (R286, R287), the cistern decode tables (R288), the bank row
buffers (R289), BFENCE (R290).
-/

namespace Sys2Proof.Machine

/-! ## Issue (R286) -/

/-- The descriptor of a bank operation as kept: ROWS, COLS, XFMT, YTA, YFMT, ACC, FE, and 1 for BMVT. -/
def bankDesc (tr : Bool) (w1 w2 w3 : Nat) : List Nat :=
  [bits w1 15 0, bits w1 47 32, bits w2 33 32, bits w3 20 0, bits w3 32 32, bits w3 33 33, bits w3 34 34, b2n tr]

/-- Inputs and outputs of a bank operation, and the bytes of each element. -/
def bankIn (d : List Nat) : Nat := if d.getD 7 0 = 1 then d.getD 0 0 else d.getD 1 0
def bankOut (d : List Nat) : Nat := if d.getD 7 0 = 1 then d.getD 1 0 else d.getD 0 0
def bankXs (d : List Nat) : Nat := if d.getD 2 0 = 0 then 4 else 2
def bankYs (d : List Nat) : Nat := if d.getD 4 0 = 0 then 4 else 2

/-- A field error of the descriptor (R286). -/
def bankBad (d : List Nat) (w0 w1 w2 w3 w4 : Nat) (rest : List Nat) : Bool :=
  let rows := d.getD 0 0
  bits w0 63 56 != 0 || bits w1 31 16 != 0 || bits w1 63 48 != 0 || bits w2 63 34 != 0 || bits w3 63 35 != 0 || bits w4 63 8 != 0
    || rest.any (· != 0) || bit w4 6 || d.getD 2 0 == 3 || rows % 32 != 0 || rows == 0 || decide (65504 < rows) || d.getD 1 0 == 0
    || bits w2 31 21 != 0 || bits w3 31 21 != 0 || decide (sramTop < bits w2 20 0 + bankIn d * bankXs d)
    || decide (sramTop < bits w3 20 0 + bankOut d * bankYs d)

/-- BMV and BMVT: the descriptor is read at issue. -/
def bankForm (kind : RKind) (x : R) (s : State) : Out :=
  .next (guarded x.g x.n (fun s =>
    let a := rg s x.a
    checked (win0Checks s a 64 64 true) (fun s =>
      let w (k : Nat) : Nat := Mem.le (preSram s.t) (bits a.toNat 20 0 + 8 * k) 8
      let d := bankDesc (kind == .bmvt) (w 1) (w 2) (w 3)
      match freeReq s.t with
      | none => wp x.d false s
      | some k =>
        if bankBad d (w 0) (w 1) (w 2) (w 3) (w 4) [w 5, w 6, w 7] then wp x.d false (raiseAsync s.cur (tr cReq) s)
        else
          let base : Pkt := { kind := kind, desc := d, c := bankIn d * bankXs d }
          let span : Span := { va := w 0, off := bits (w 2) 20 0, len := 2 * d.getD 0 0 * d.getD 1 0 }
          wp x.d true (issueReq k base (bits (w 4) 7 0) [span] s)) s) s)

/-- BMV (R286). -/
def execBmv (x : R) (s : State) : Out := bankForm .bmv x s
/-- BMVT (R286). -/
def execBmvt (x : R) (s : State) : Out := bankForm .bmvt x s

/-! ## Values (R287) -/

/-- Input `i` of a bank operation as an SF19 value: F16 and BF16 exactly, F32 rounded. -/
def bankX (m : Pkt) (i : Nat) : FV :=
  let n := bankXs m.desc
  let v := leNat ((m.data.drop (n * i)).take n)
  if m.desc.getD 2 0 = 0 then sf19.unpack (sf19.deliver 0 (f32.unpack v)).1
  else if m.desc.getD 2 0 = 1 then f16.unpack v else bf16.unpack v

/-- The weight of row `rr`, element `j` of a chunk, in a unit's bytes (R272); `cdt` are the entries of the page's decode table. -/
def bankW (w0 : Nat) (cdt : List Nat) (d : List Byte) (rr j : Nat) : FV :=
  let w := pageBits w0
  let b := j * w / 8
  let raw := leNat ((d.drop (64 * rr + b)).take ((w + 7) / 8))
  let code (c : Nat) : FV := sf19.unpack (bits (cdt.getD c 0) 18 0)
  if eFmt w0 = 3 then f16.unpack raw
  else if eFmt w0 = 4 then bf16.unpack raw
  else if eFmt w0 = 2 then code (if j % 2 = 0 then raw % 16 else raw / 16)
  else if eFmt w0 = 5 then scaled (code raw) (leNat ((d.drop (2048 + 16 * rr + b / 4)).take 1))
  else code raw

/-- The partial of one output: groups of four products summed exactly and rounded, in ascending order. -/
def bankSum (ps : List (FV × FV)) : Nat :=
  (List.range (ps.length / 4)).foldl (fun p g =>
    let t := (FV.sum 0 (((ps.drop (4 * g)).take 4).map fun e => (e.1.mul e.2).1)).1
    (fpAdd f32 0 (f32.unpack p) (f32.unpack (f32.deliver 0 t).1)).1) 0

/-- The weight sectors of a unit that an output uses: row `rr` of a BMV, element `j` of a BMVT. -/
def bankSectors (trans : Bool) (w0 k : Nat) : List Nat :=
  if trans then
    let b := k * pageBits w0 / 8
    (List.range 32).flatMap fun rr => (2 * rr + b / 32) :: (if eFmt w0 = 5 then [(2048 + 16 * rr + b / 4) / 32] else [])
  else [2 * k, 2 * k + 1] ++ (if eFmt w0 = 5 then [64 + k / 2] else [])

/-- The partials of unit `u` (R287): the unit, the values of its outputs in their order, and which of them are poisoned. -/
def bankPartial (m : Pkt) (u : Nat) (cdt : List Nat) (d : List Byte) (psn : NSet) : Nat × List Nat × NSet :=
  let per := 512 / pageBits m.w0
  let nch := bankChunks m m.w0
  let trans := m.kind == .bmvt
  let rb := u / nch
  let k := u % nch
  let n := if trans then per else 32
  let vals := (List.range n).map fun o =>
    if trans then bankSum ((List.range 32).map fun rr => (bankX m (32 * rb + rr), bankW m.w0 cdt d rr o))
    else bankSum ((List.range per).map fun j => (bankX m (k * per + j), bankW m.w0 cdt d o j))
  (u, vals, NSet.addAll [] ((List.range n).filter fun o => (bankSectors trans m.w0 o).any (NSet.mem psn)))

/-- The first output of unit `u`. -/
def bankFirst (d : List Nat) (w0 u : Nat) : Nat :=
  let nch := d.getD 1 0 * pageBits w0 / 512
  if d.getD 7 0 = 1 then u % nch * (512 / pageBits w0) else u / nch * 32

/-! ## Cisterns (R271, R288, R289) -/

/-- The cistern of a unit of a page: its device, stack and channel pair. -/
def cisternOf (w0 c : Nat) : Nat := eHome w0 * 192 + eStack w0 * 16 + c % 16

/-- The number of a unit in its page. -/
def pageUnit (m : Pkt) (u : Nat) : Nat := unitOf m m.sh m.w0 + u

/-- The key of a unit's first byte in device memory. -/
def unitKey (m : Pkt) (u : Nat) : Nat := match m.loc with | .hbm k => k + u * unitBytes m.w0 | _ => 0

/-- Whether a page's format decodes through a table, and the cistern's copy of it (R288). -/
def usesCdt (w0 : Nat) : Bool := eFmt w0 == 1 || eFmt w0 == 2 || eFmt w0 == 5
def cdtCopy (s : State) (ci cid t : Nat) : Option (List Nat) :=
  ((FMap.get [] s.fab.cdtc ci).find? fun e => e.1 == cid && e.2.1 == t).map (·.2.2)

/-- A cistern's copies of a table made the most recently used; it holds 32. -/
def cdtUse (ci cid t : Nat) (l : List Nat) (f : Fabric) : Fabric :=
  { f with cdtc := FMap.put f.cdtc ci (((cid, t, l) :: (FMap.get [] f.cdtc ci).filter fun e => !(e.1 == cid && e.2.1 == t)).take 32) }

/-- The first units of a row buffer as far as `n` bytes hold them (R289). -/
def fitRows : Nat → List RowBuf → List RowBuf
  | _, [] => []
  | n, r :: l => if r.data.length ≤ n then r :: fitRows (n - r.data.length) l else []

/-- A unit as a bank operation sees it (R289): each sector from device memory or from the copy an earlier one made, which being open. -/
def readUnit (m : Pkt) (u : Nat) (s : State) : List Byte × NSet × State :=
  let k := unitKey m u
  let n := unitBytes m.w0
  let ci := cisternOf m.w0 (pageUnit m u)
  let rows := FMap.get [] s.fab.rows ci
  let (c, s) := s.takeFree
  let held := rows.find? fun r => r.key == k && r.data.length == n
  let sec (i : Nat) : List Byte × Bool :=
    match held with
    | some r =>
      if Config.unstated 289 (c + i * 2 ^ 64) % 2 = 0 then hbmRead s.fab (k + 32 * i) 32
      else ((r.data.drop (32 * i)).take 32, NSet.mem r.poison i)
    | none => hbmRead s.fab (k + 32 * i) 32
  let l := (List.range (n / 32)).map sec
  let d := l.flatMap (·.1)
  let psn := NSet.addAll [] ((List.range (n / 32)).filter fun i => (l.getD i ([], false)).2)
  let r := match held with
    | some r => r
    | none => { cid := m.cid, va := m.va + u * n, key := k, data := d, poison := psn }
  let rest := rows.filter fun o => o.key != k
  (d, psn, s.onFab fun f => { f with rows := FMap.put f.rows ci (fitRows 65536 (r :: rest)) })

/-- Where the context block keeps its decode tables (R288, R378). -/
def cdtVa (c : Ctx) (t : Nat) : Nat := c.saveva + 0xF8000 + 1032 * t

/-- Whether a bank operation waits at a cistern for a table. -/
def wantsCdt (s : State) (ci cid t : Nat) : Bool :=
  s.fab.pkts.any fun m => m.st == .routed && isBank m.kind && m.cid == cid && usesCdt m.w0 && bits m.w1 39 36 == t
    && (match m.todo with | e :: _ => cisternOf m.w0 (pageUnit m e.1) == ci | [] => false)

/-- CDT_CACHE_FILL (R288): a cistern reads the table that a bank operation misses from the context block. -/
def execCdtCacheFill (p c t : Nat) (s : State) : Out :=
  .next (if !wantsCdt s p c t then s
  else match plainRead s c (cdtVa (s.ctx c) t + 8) 1024 with
    | some d => s.onFab (cdtUse p c t ((List.range 256).map fun i => leNat ((d.drop (4 * i)).take 4)))
    | none => s)

/-- BMV_PARTIAL (R287): a cistern forms the partials of the next unit it holds; a missing decode table is waited for. -/
def execBmvPartial (n : Nat) (s : State) : Out :=
  .next (match elemAt s.fab.pkts n with
  | some m =>
    if m.st != .routed || !isBank m.kind then s
    else match m.todo with
      | [] => setPkt n { m with st := .answered } s
      | (u, _) :: r => match farGate n m s with
        | some t => t
        | none =>
        let ci := cisternOf m.w0 (pageUnit m u)
        let t := bits m.w1 39 36
        match cdtCopy s ci m.cid t, usesCdt m.w0 with
        | none, true => s
        | o, _ =>
          let s := match o with | some l => s.onFab (cdtUse ci m.cid t l) | none => s
          let x := readUnit m u s
          let m := { m with todo := r, parts := m.parts ++ [bankPartial m u (o.getD []) x.1 x.2.1] }
          setPkt n (if r.isEmpty then { m with st := .answered } else m) x.2.2
  | none => s)

/-! ## The result (R287) -/

/-- An output as it stood, widened. -/
def oldOut (t : Tile) (d : List Nat) (o : Nat) : Nat :=
  let v := Mem.le t.sram (d.getD 3 0 + o * bankYs d) (bankYs d)
  if bankYs d = 2 then widen bf16 v else v

/-- Output `o` with the partials of its units added in ascending order, as stored, and whether it carries poison. -/
def bankOutput (t : Tile) (d : List Nat) (w0 : Nat) (parts : List (Nat × List Nat × NSet)) (o : Nat) : Nat × Bool :=
  let y0 := if d.getD 5 0 = 1 then oldOut t d o else 0
  let mine := parts.filter fun e => decide (bankFirst d w0 e.1 ≤ o) && decide (o < bankFirst d w0 e.1 + e.2.1.length)
  let y := mine.foldl (fun y e => (fpAdd f32 0 (f32.unpack y) (f32.unpack (e.2.1.getD (o - bankFirst d w0 e.1) 0))).1) y0
  (if bankYs d = 2 then (bf16.deliver 0 (f32.unpack y)).1 else y, mine.any fun e => NSet.mem e.2.2 (o - bankFirst d w0 e.1))

/-- The parts of a bank operation in ascending unit number. -/
def sortParts (l : List (Nat × List Nat × NSet)) : List (Nat × List Nat × NSet) :=
  (l.foldl (fun (m : FMap (List Nat × NSet)) e => FMap.put m e.1 e.2) []).map fun e => (e.1, e.2)

/-- The sectors of SRAM that the outputs of a bank operation lie in. -/
def outSectors (d : List Nat) : List Nat := sectorsOf (d.getD 3 0) (bankOut d * bankYs d)

/-- One sector of the outputs written, with its FULL and poison bits. -/
def writeOut (p : Nat) (d : List Nat) (ys : List (Nat × Bool)) (allPsn : Bool) (sec : Nat) (s : State) : State :=
  let n := bankYs d
  let o := d.getD 3 0
  let bs := ys.flatMap fun e => natLe n e.1
  let lo := Nat.max o (32 * sec)
  let hi := Nat.min (o + bs.length) (32 * sec + 32)
  let psn := allPsn || (((ys.drop ((lo - o) / n)).take ((hi - o + n - 1) / n - (lo - o) / n)).any (·.2))
  engineWrite p lo ((bs.drop (lo - o)).take (hi - lo)) (d.getD 6 0 == 1) psn s

/-- The outputs of a request that its answered packets give, by the tile as it stands. -/
def bankOuts (t : Tile) (r : Req) (l : List Pkt) : List (Nat × Bool) :=
  (List.range (bankOut r.desc)).map (bankOutput t r.desc ((l.headD {}).w0) (sortParts (l.flatMap (·.parts))))

/-- The packets of a bank operation once every cistern has answered and the tile is there to take them. -/
def bankDue (s : State) (p : Nat) (r : Req) : List Pkt :=
  let t := s.tile p
  let l := pktsOf s t.sys.cid (s.placeOf p) r.seq
  if !takes t t.sys.cid || l.any unperformed || l.any (fun m => replayFirst s m.cid m.place m.replay) then [] else l

/-- BMV_COMBINE (R287): once every cistern has answered, the outputs are written and the request completes. -/
def execBmvCombine (p k : Nat) (s : State) : Out :=
  .next (match (s.tile p).mreq.reqs.find? fun e => e.1 == k && isBank e.2.kind && e.2.left != 0 with
  | some (_, r) =>
    match bankDue s p r with
    | [] => s
    | m :: l =>
      let ys := bankOuts (s.tile p) r (m :: l)
      let s := s.onFab fun f => { f with pkts := f.pkts.filter fun o => !((m :: l).contains o) }
      match (m :: l).findSome? fun o => (stopPort s.fab (replyPorts s o) o.cid false).map fun q => (q, o) with
      | some (q, o) => isolateAt q o.cid (homePlace s o o.sh o.w0 o.loc) s
      | none =>
        match (m :: l).find? (fun o => o.st == .faulted) with
        | some o => endPkt p k o s
        | none =>
          endPkt p k m (((outSectors r.desc).filter fun sec => !NSet.mem m.wrote sec).foldl (fun s sec => writeOut p r.desc ys (NSet.mem m.psec 0) sec s) s)
  | none => s)

/-- EARLY WRITE of one sector of the outputs before the others (R287, R297); `n` is the place of the operation's first packet. An output that is
added to its old value and lies in two sectors is written with both (log 99). -/
def earlyBank (n k : Nat) (s : State) : State :=
  match elemAt s.fab.pkts n with
  | some m =>
    let p := s.physOf m.cid m.place
    match requestOf s p m with
    | some r =>
      let l := bankDue s p r
      match isBank m.kind && (r.desc.getD 5 0 != 1 || r.desc.getD 3 0 % bankYs r.desc == 0) && l.head? == some m && !(l.any fun o => o.st == .faulted), elemAt ((outSectors r.desc).filter fun sec => !NSet.mem m.wrote sec) k with
      | true, some sec => setPkt n { m with wrote := NSet.add m.wrote sec } (writeOut p r.desc (bankOuts (s.tile p) r l) (NSet.mem m.psec 0) sec s)
      | _, _ => s
    | none => s
  | none => s

/-! ## BFENCE (R290) -/

/-- The packets of a fence over a range: one for each page, or each order span of a larger page, by the tables as they stand. -/
def fenceSpans (s : State) (cid va n : Nat) : List Span :=
  let piece (g : Nat) (a m : Nat) : List Span := (granules g a m).map fun e => { va := a + e.1, off := 0, len := e.2 }
  (granules (2 ^ 21) va n).flatMap fun e =>
    let a := va + e.1
    let small := match walk s cid a with | .leaf sh _ _ _ => decide (sh < 21) | .none sh _ => decide (sh < 21) | .bad _ => false
    if small then piece 65536 a e.2 else [{ va := a, off := 0, len := e.2 }]

/-- BFENCE (R290). -/
def execBfence (x : R) (s : State) : Out :=
  .next (guarded x.g x.n (fun s =>
    let va := (rg s x.a).toNat
    let b := (rg s x.b).toNat
    checked [vaBad (rg s x.a), (bits b 47 0 == 0 || bits b 55 48 != 0 || cntfBad (bits b 63 56), tr cIllegalOp)]
      (accepted x fun k s => issueReq k { kind := .bfence } (bits b 63 56) (fenceSpans s s.t.sys.cid va (bits b 47 0)) s) s) s)

/-- The buffered units of a range of a context dropped in every cistern (R289). -/
def dropRows (f : RowBuf → Bool) (fb : Fabric) : Fabric :=
  { fb with rows := fb.rows.map fun e => (e.1, e.2.filter fun r => !f r) }

/-- Whether a buffered unit lies in the frames of a fence packet's range. -/
def rowMeets (m : Pkt) (r : RowBuf) : Bool := match m.loc with | .hbm k => rangesMeet r.key r.data.length k m.len | _ => false

/-- BFENCE_PACKET (R290 step 2): the station drops the range from the row buffers, whatever context and VA the units were read by, then
answers once every packet of any party that it translated to the range before has been performed. -/
def execBfencePacket (n : Nat) (s : State) : Out :=
  .next (match elemAt s.fab.pkts n with
  | some m =>
    if m.kind != .bfence then s
    else if m.st == .routed then
      (farGate n m s).getD (setPkt n { m with st := .fenced } (s.onFab (dropRows (rowMeets m))))
    else if m.st == .fenced then
      (if s.fab.pkts.any fun o => o.cid == m.cid && o.station == m.station && o.kind != .bfence && o.st == .routed && decide (o.gen < m.gen)
          && rangesMeet o.va o.len m.va m.len then s
        else setPkt n { m with st := .answered } s)
    else s
  | none => s)

/-- BFENCE_ANSWER (R290 step 3): a fence packet's answer reaches the tile. -/
def execBfenceAnswer (n : Nat) (s : State) : Out :=
  .next (match replyFor s n (· == .bfence) with
  | some (p, m) => takeReply n m (fun s =>
    match requestOf s p m with
    | some _ => settle p (endPkt p m.slot m s)
    | none => s) s
  | none => s)

end Sys2Proof.Machine
end

