-- ==== Sys2Proof/Machine/Pager.lean ====
section
/-!
DEFINITION. Sys2Proof/Machine/Pager.lean: the pager's work on the page tables: changes of a mapping (R276), MAP, UNMAP and MIGRATE
(R293, R294, R447), poison (R281) and pins (R293).
-/

namespace Sys2Proof.Machine

/-! ## Entries -/

/-- The cells of memory from `a` upward gone, `n` bytes. -/
def clearCells (m : Mem) (a n : Nat) : Mem := m.filter fun e => decide (e.1 < a) || decide (a + n ≤ e.1)

/-- `n` bytes of memory copied from `a` to `b`, as a copy of the listed cells. -/
def copyCells (m : Mem) (a b n : Nat) : Mem :=
  (m.filter fun e => decide (a ≤ e.1) && decide (e.1 < a + n)).foldl (fun x e => FMap.put x (b + (e.1 - a)) e.2) (clearCells m b n)

/-- The same of a set of numbers. -/
def copySet (m : NSet) (a b n : Nat) : NSet :=
  (m.filter fun e => decide (a ≤ e.1) && decide (e.1 < a + n)).foldl (fun x e => NSet.add x (b + (e.1 - a)))
    (m.filter fun e => decide (e.1 < b) || decide (b + n ≤ e.1))

/-- The two words of an entry at a device physical address written. -/
def putEntry (a w0 w1 : Nat) (s : State) : State :=
  s.onFab fun f => { f with hbm := Mem.setLe (Mem.setLe f.hbm (devKey s a) 8 w0) (devKey s a + 8) 8 w1 }

/-- The valid leaves under a table, each with its VA, the log of its size, its words and its address. -/
def leavesFrom (s : State) : List (Nat × Nat) → Nat → Nat → List (Nat × Nat × Nat × Nat × Nat)
  | [], _, _ => []
  | (sh, n) :: r, t, base => (List.range (2 ^ n)).flatMap fun i =>
    let a := t + 16 * i
    let w0 := Mem.le s.fab.hbm (devKey s a) 8
    let w1 := Mem.le s.fab.hbm (devKey s a + 8) 8
    if !bit w0 0 then []
    else if bit w0 5 then (if badLeaf sh w0 w1 then [] else [(base + i * 2 ^ sh, sh, w0, w1, a)])
    else if badPointer sh w0 w1 then []
    else leavesFrom s r (bits w1 39 0) (base + i * 2 ^ sh)

/-- The tables under a table, itself included. -/
def tablesFrom (s : State) : List (Nat × Nat) → Nat → List Nat
  | [], _ => []
  | (sh, n) :: r, t => t :: (List.range (2 ^ n)).flatMap fun i =>
    let a := t + 16 * i
    let w0 := Mem.le s.fab.hbm (devKey s a) 8
    let w1 := Mem.le s.fab.hbm (devKey s a + 8) 8
    if !bit w0 0 || bit w0 5 || badPointer sh w0 w1 then [] else tablesFrom s r (bits w1 39 0)

/-- Every valid leaf of a context. -/
def leavesOf (s : State) (cid : Nat) : List (Nat × Nat × Nat × Nat × Nat) :=
  if (s.ctx cid).st == .free then [] else leavesFrom s levels (s.ctx cid).root 0

/-- The place in device memory of a leaf's first frame. -/
def leafKey (w0 w1 : Nat) : Nat := hbmKey (eHome w0) (eStack w0) (eFrame w1 * 65536)

/-- Word 1 of a context's leaf changed, in the tables and in the stations' copies. -/
def editLeaf (cid va : Nat) (f : Nat → Nat) (s : State) : State :=
  match walk s cid va with
  | .leaf sh w0 w1 a =>
    (putEntry a w0 (f w1) s).onFab fun fb => { fb with tlb := fb.tlb.map fun e => (e.1, e.2.map fun o =>
      if o.cid == cid && o.sh == sh && o.va == va / 2 ^ sh * 2 ^ sh then { o with w1 := f o.w1 } else o) }
  | _ => s

/-- One bit of a word set or cleared. -/
def putBit (n : Nat) (v : Bool) (w : Nat) : Nat := w / 2 ^ (n + 1) * 2 ^ (n + 1) + b2n v * 2 ^ n + w % 2 ^ n

/-! ## Pins (R293) -/

/-- Pages pinned for a reason. -/
def pinPages (cid src : Nat) (vas : List Nat) (s : State) : State :=
  vas.foldl (fun s va => match walk s cid va with
    | .leaf sh _ _ _ =>
      let b := va / 2 ^ sh * 2 ^ sh
      editLeaf cid va (putBit 34 true) (s.onCtx cid fun c => { c with pins := if c.pins.contains (b, src) then c.pins else c.pins ++ [(b, src)] })
    | _ => s) s

/-- What one reason pins released: a page that nothing else pins is Mapped again. -/
def unpin (cid src : Nat) (ok : Nat → Bool) (s : State) : State :=
  let mine := (s.ctx cid).pins.filter fun e => e.2 == src && ok e.1
  let s := s.onCtx cid fun c => { c with pins := c.pins.filter fun e => !(mine.contains e) }
  mine.foldl (fun s e => if (s.ctx cid).pins.any fun o => o.1 == e.1 then s else editLeaf cid e.1 (putBit 34 false) s) s

/-! ## Changes (R276) -/

/-- Whether a packet lies in a page. -/
def inPage (cid va sh : Nat) (m : Pkt) : Bool := m.cid == cid && rangesMeet m.va m.len va (2 ^ sh)

/-- A station's entries for a page of a context dropped. -/
def dropTlb (st cid va sh : Nat) (f : Fabric) : Fabric :=
  { f with tlb := FMap.put f.tlb st ((FMap.get [] f.tlb st).filter fun e => !(e.cid == cid && rangesMeet e.va (2 ^ e.sh) va (2 ^ sh))) }

/-- MAPPING_INVALIDATE (R276 steps 2 and 3): station `k` drops the entries of every change it has not dropped yet. -/
def execMappingInvalidate (c k : Nat) (s : State) : Out :=
  .next (if 12 ≤ k then s
  else
    let (g, s) := stamp s
    let l := (s.ctx c).changes
    let fresh (x : MapChange) : Bool := !(x.dropped.any fun e => e.1 == k)
    let s := (l.filter fresh).foldl (fun s x => s.onFab (dropTlb k c x.va x.sh)) s
    s.onCtx c fun y => { y with changes := l.map fun x => if fresh x then { x with dropped := FMap.put x.dropped k g } else x })

/-- Whether a packet translated before its station dropped the old entry is still to be performed. -/
def underOld (x : MapChange) (c : Nat) (m : Pkt) : Bool :=
  inPage c x.va x.sh m && (m.st == .routed || m.st == .fenced) && decide (m.gen < FMap.get 0 x.dropped m.station)

/-- MAPPING_CHANGE_COMPLETE (R276 step 4): the frames given up leave the row buffers (R289). -/
def execMappingChangeComplete (c k : Nat) (s : State) : Out :=
  .next (match elemAt (s.ctx c).changes k with
  | some x =>
    if x.dropped.length < 12 || s.fab.pkts.any (underOld x c) then s
    else
      let s := s.onCtx c fun y => { y with changes := dropAt y.changes k }
      match x.key with
      | some q => s.onFab (dropRows fun r => rangesMeet r.key r.data.length q (2 ^ x.sh))
      | none => s
  | none => s)

/-- A change begun. -/
def startChange (cid va sh pkt : Nat) (key : Option Nat) (s : State) : State :=
  s.onCtx cid fun c => { c with changes := c.changes ++ [{ va := va, sh := sh, key := key, pkt := pkt }] }

/-! ## MAP (R447) -/

/-- Whether two leaves agree in all that a MAP sets: the pager keeps PINNED, POISON and MIGRATING. -/
def sameLeaf (w0 w1 v0 v1 : Nat) : Bool := w0 == v0 && bits w1 31 0 == bits v1 31 0 && bits w1 63 35 == bits v1 63 35

/-- A table taken from the reserve of table memory, zeroed; none when the reserve is empty. -/
def takeTable (s : State) : Option (Nat × State) :=
  match s.svc.reserve with
  | [] => none
  | a :: r => some (a, { s with svc := { s.svc with reserve := r }, fab := { s.fab with hbm := clearCells s.fab.hbm (devKey s a) 8192 } })

/-- Statuses of a packet that the pager answers (R365); 0 here means that the packet waits for a migration (R293). -/
def stWait : Nat := 0
def stPinned : Nat := 7
def stMalformed : Nat := 9
def stRefused : Nat := 14

/-- One leaf of 2^`tsh` bytes written from a table downward. -/
def mapInto (cid pkt va tsh w0 w1 : Nat) (pin : Bool) : List (Nat × Nat) → Nat → State → Except Nat State
  | [], _, _ => .error stRefused
  | (sh, n) :: r, t, s =>
    let a := t + 16 * (va / 2 ^ sh % 2 ^ n)
    let o0 := Mem.le s.fab.hbm (devKey s a) 8
    let o1 := Mem.le s.fab.hbm (devKey s a + 8) 8
    let leaf := bit o0 5
    if sh = tsh then
      if bit o0 0 && leaf && (eMigrating o1 || inMigration s cid va) then .error stWait
      else if bit o0 0 && leaf && ePinned o1 then
        if sameLeaf w0 w1 o0 o1 then .ok (if pin then pinPages cid 0 [va] s else unpin cid 0 (· == va) s) else .error stPinned
      else if bit o0 0 && !leaf && !(leavesFrom s r (bits o1 39 0) 0).isEmpty then .error stRefused
      else
        let freed := if bit o0 0 && !leaf then tablesFrom s r (bits o1 39 0) else []
        let key := if bit o0 0 && leaf && eStack o0 < 12 && leafKey o0 o1 != leafKey w0 w1 then some (leafKey o0 o1) else none
        let s := startChange cid va sh pkt key (putEntry a w0 (bits w1 31 0 + bits w1 63 35 * 2 ^ 35) s)
        let s := { s with svc := { s.svc with reserve := s.svc.reserve ++ freed } }
        .ok (if pin then pinPages cid 0 [va] s else s)
    else if !bit o0 0 then
      match takeTable s with
      | some (b, s) => mapInto cid pkt va tsh w0 w1 pin r b (putEntry a 1 b s)
      | none => .error stRefused
    else if leaf || badPointer sh o0 o1 then .error stRefused
    else mapInto cid pkt va tsh w0 w1 pin r (bits o1 39 0) s

/-- MAP of `count` pages from `va`, all or nothing. -/
def mapPages (cid pkt va count tsh w0 w1 : Nat) (pin : Bool) (s : State) : Except Nat State :=
  if va % 2 ^ tsh ≠ 0 then .error stMalformed
  else (List.range count).foldl (fun o k => match o with
    | .error e => .error e
    | .ok s =>
      let v1 := w1 + k * 2 ^ (tsh - 16)
      if !bit w0 0 || !bit w0 5 || badLeaf tsh w0 v1 || decide (2 ^ 20 ≤ eFrame w1 + k * 2 ^ (tsh - 16)) then .error stRefused
      else mapInto cid pkt (va + k * 2 ^ tsh) tsh w0 v1 pin levels (s.ctx cid).root s) (.ok s)

/-! ## UNMAP (R447) -/

/-- UNMAP of a range, all or nothing. -/
def unmapRange (cid pkt va n : Nat) (s : State) : Except Nat State :=
  if va % 65536 ≠ 0 then .error stMalformed
  else
    let l := (leavesOf s cid).filter fun e => rangesMeet e.1 (2 ^ e.2.1) va n
    let verdict (e : Nat × Nat × Nat × Nat × Nat) : Option Nat :=
      if e.1 < va ∨ va + n < e.1 + 2 ^ e.2.1 then some stRefused
      else if ePinned e.2.2.2.1 then some stPinned else if eMigrating e.2.2.2.1 || inMigration s cid e.1 then some stWait else none
    match l.findSome? verdict with
    | some e => .error e
    | none =>
      .ok (l.foldl (fun s e => startChange cid e.1 e.2.1 pkt (if eStack e.2.2.1 < 12 then some (leafKey e.2.2.1 e.2.2.2.1) else none)
        (putEntry e.2.2.2.2 (e.2.2.1 - 1) e.2.2.2.1 s)) s)

/-! ## MIGRATE (R294, R447) -/

/-- MIGRATE of `count` pages from `va` to the frames given, all or nothing: MIGRATING is set and the freeze begins. -/
def migratePages (cid pkt va count home stack frame : Nat) (s : State) : Except Nat State :=
  match walk s cid va with
  | .leaf sh0 _ _ _ =>
    (List.range count).foldl (fun o k => match o with
      | .error e => .error e
      | .ok s =>
        let v := va + k * 2 ^ sh0
        let fr := frame + k * 2 ^ (sh0 - 16)
        match walk s cid v with
        | .leaf sh w0 w1 a =>
          let n0 := w0 % 2 ^ 16 + home * 2 ^ 16 + stack * 2 ^ 36
          if sh ≠ sh0 ∨ v % 2 ^ sh ≠ 0 ∨ 2 ^ 20 ≤ fr then .error stRefused
          else if badLeaf sh n0 (w1 / 2 ^ 20 * 2 ^ 20 + fr) then .error stRefused
          else if ePinned w1 then .error stPinned
          else if eMigrating w1 || inMigration s cid v then .error stWait
          else
            let g : Migration := { va := v, sh := sh, at_ := a, home := home, stack := stack, frame := fr, pkt := pkt }
            .ok ((putEntry a w0 (putBit 32 true w1) s).onCtx cid fun c => { c with migs := c.migs ++ [g] })
        | _ => .error stRefused) (.ok s)
  | _ => .error stRefused

/-- A migration of a context changed. -/
def setMig (c k : Nat) (g : Migration) (s : State) : State := s.onCtx c fun y => { y with migs := setAt y.migs k g }

/-- MIGRATE_FREEZE_DONE (R294 step 1): every station has dropped the entry, and parks what comes. -/
def execMigrateFreezeDone (c k : Nat) (s : State) : Out :=
  .next (match elemAt (s.ctx c).migs k with
  | some g =>
    if g.st != .freeze then s
    else setMig c k { g with st := .drain } ((List.range 12).foldl (fun s i => s.onFab (dropTlb i c g.va g.sh)) s)
  | none => s)

/-- MIGRATE_DRAIN_DONE (R294 step 2): every packet translated under the old home has been performed; the old frames leave the row
buffers (R289). -/
def execMigrateDrainDone (c k : Nat) (s : State) : Out :=
  .next (match elemAt (s.ctx c).migs k with
  | some g =>
    if g.st != .drain || s.fab.pkts.any fun m => inPage c g.va g.sh m && (m.st == .routed || m.st == .fenced) then s
    else
      let w0 := Mem.le s.fab.hbm (devKey s g.at_) 8
      let q := leafKey w0 (Mem.le s.fab.hbm (devKey s g.at_ + 8) 8)
      setMig c k { g with st := .copy } (s.onFab (dropRows fun r => decide (eStack w0 < 12) && rangesMeet r.key r.data.length q (2 ^ g.sh)))
  | none => s)

/-- The listed cells of `n` bytes at a place, by their offset. -/
def cellsAt (l : Loc) (n : Nat) (f : Fabric) : Mem :=
  let part (m : Mem) (a : Nat) : Mem := (m.filter fun e => decide (a ≤ e.1) && decide (e.1 < a + n)).map fun e => (e.1 - a, e.2)
  match l with
  | .hbm k => part f.hbm k
  | .host _ h => part f.host h
  | .ue k => part f.ue k
  | .door _ => []

/-- Cells put in the place of all that `n` bytes held. -/
def putCells (l : Loc) (n : Nat) (cs : Mem) (f : Fabric) : Fabric :=
  let put (m : Mem) (a : Nat) : Mem := cs.foldl (fun x e => FMap.put x (a + e.1) e.2) (clearCells m a n)
  match l with
  | .hbm k => { f with hbm := put f.hbm k, hpoison := f.hpoison.filter fun e => decide (e.1 < k / 32) || decide (k / 32 + n / 32 ≤ e.1) }
  | .host _ h => { f with host := put f.host h }
  | .ue k => { f with ue := put f.ue k }
  | .door _ => f

/-- A page's bytes moved from one place to another, poison with them sector by sector where both are device memory (R293). -/
def moveCells (a b : Loc) (n : Nat) (f : Fabric) : Fabric :=
  match a, b with
  | .hbm x, .hbm y => { f with hbm := copyCells f.hbm x y n, hpoison := copySet f.hpoison (x / 32) (y / 32) (n / 32) }
  | _, _ => putCells b n (cellsAt a n f) f

/-- MIGRATE_COPY_DONE (R276, R294 steps 3 and 4): the page is copied with its poison, the new entry is written, and the stations begin to
drop the old one. -/
def execMigrateCopyDone (c k : Nat) (s : State) : Out :=
  .next (match elemAt (s.ctx c).migs k with
  | some g =>
    if g.st != .copy then s
    else
      let w0 := Mem.le s.fab.hbm (devKey s g.at_) 8
      let w1 := Mem.le s.fab.hbm (devKey s g.at_ + 8) 8
      let n0 := w0 % 2 ^ 16 + g.home * 2 ^ 16 + g.stack * 2 ^ 36
      let n1 := putBit 32 false (w1 / 2 ^ 20 * 2 ^ 20 + g.frame)
      let s := match locate s c false g.va g.sh w0 w1, locate s c false g.va g.sh n0 n1 with
        | .ok a, .ok b => s.onFab (moveCells a b (2 ^ g.sh))
        | _, _ => s
      setMig c k { g with st := .switch } (startChange c g.va g.sh g.pkt none (putEntry g.at_ n0 n1 s))
  | none => s)

/-- MIGRATE_SWITCH_DONE (R293, R294 step 4): once the change of the entry is complete, the packets parked for the page go to the new home in
arrival order, before any that comes later. -/
def execMigrateSwitchDone (c k : Nat) (s : State) : Out :=
  .next (match elemAt (s.ctx c).migs k with
  | some g =>
    if g.st != .switch || (s.ctx c).changes.any (fun x => x.va == g.va && x.sh == g.sh) then s
    else rewalk (fun m => m.st == .frozen && inPage c g.va g.sh m) (s.onCtx c fun y => { y with migs := dropAt y.migs k })
  | none => s)

/-! ## Poison (R281) -/

/-- HBM_UNCORRECTABLE (R281): the sector at a device physical address is poisoned, and every page that holds it marked. -/
def execHbmUncorrectable (a : Nat) (s : State) : Out :=
  .next (if 12 ≤ a / 2 ^ 36 then s
  else
    let k := devKey s a
    let s := s.onFab fun f => { f with hpoison := NSet.add f.hpoison (k / 32) }
    s.ctxs.foldl (fun s e => ((leavesOf s e.1).filter fun l => eStack l.2.2.1 < 12 && rangesMeet (leafKey l.2.2.1 l.2.2.2.1) (2 ^ l.2.1) k 1).foldl
      (fun s l => editLeaf e.1 l.1 (putBit 33 true) s) s) s)

/-- POISON_CLEAR (R281): POISON of a page none of whose sectors is poisoned. -/
def execPoisonClear (c va : Nat) (s : State) : Out :=
  .next (match walk s c va with
  | .leaf sh w0 w1 _ =>
    let k := leafKey w0 w1 / 32
    if ePoison w1 && decide (eStack w0 < 12) && !(s.fab.hpoison.any fun e => decide (k ≤ e.1) && decide (e.1 < k + 2 ^ (sh - 5))) then
      editLeaf c va (putBit 33 false) s
    else s
  | _ => s)

end Sys2Proof.Machine
end

