-- ==== Sys2Proof/Machine/Keccak.lean ====
section
/-!
DEFINITION. Sys2Proof/Machine/Keccak.lean: SHA3-384 of FIPS 202 (R384), and the tree hash of R385.
-/

namespace Sys2Proof.Machine

/-- A 64-bit lane rotated left. -/
def rotLane (x n : Nat) : Nat := if n = 0 then x else (x * 2 ^ n % 2 ^ 64) + x / 2 ^ (64 - n)

/-- The rotation of lane x + 5y. -/
def rhoOf : List Nat :=
  [0, 1, 62, 28, 27, 36, 44, 6, 55, 20, 3, 10, 43, 25, 39, 41, 45, 15, 21, 8, 18, 2, 61, 56, 14]

/-- The round constants. -/
def roundConst : List Nat :=
  [0x0000000000000001, 0x0000000000008082, 0x800000000000808A, 0x8000000080008000, 0x000000000000808B, 0x0000000080000001,
   0x8000000080008081, 0x8000000000008009, 0x000000000000008A, 0x0000000000000088, 0x0000000080008009, 0x000000008000000A]
  ++ [0x000000008000808B, 0x800000000000008B, 0x8000000000008089, 0x8000000000008003, 0x8000000000008002, 0x8000000000000080,
      0x000000000000800A, 0x800000008000000A, 0x8000000080008081, 0x8000000000008080, 0x0000000080000001, 0x8000000080008008]

/-- One round of Keccak-f[1600]: θ, ρ and π, χ, ι. Lane (x, y) stands at x + 5y. -/
def keccakRound (st : List Nat) (rc : Nat) : List Nat :=
  let a (x y : Nat) : Nat := st.getD (x % 5 + 5 * (y % 5)) 0
  let c := (List.range 5).map fun x => Nat.xor (a x 0) (Nat.xor (a x 1) (Nat.xor (a x 2) (Nat.xor (a x 3) (a x 4))))
  let d := (List.range 5).map fun x => Nat.xor (c.getD ((x + 4) % 5) 0) (rotLane (c.getD ((x + 1) % 5) 0) 1)
  let th := (List.range 25).map fun i => Nat.xor (st.getD i 0) (d.getD (i % 5) 0)
  let b := (List.range 25).map fun i =>
    let x := (i % 5 + 3 * (i / 5)) % 5
    let y := i % 5
    rotLane (th.getD (x + 5 * y) 0) (rhoOf.getD (x + 5 * y) 0)
  let e := (List.range 25).map fun i =>
    let y := i / 5
    Nat.xor (b.getD i 0) (Nat.land (Nat.xor (b.getD ((i + 1) % 5 + 5 * y) 0) (2 ^ 64 - 1)) (b.getD ((i + 2) % 5 + 5 * y) 0))
  match e with
  | h :: r => Nat.xor h rc :: r
  | [] => []

/-- The permutation. -/
def keccakF (st : List Nat) : List Nat := roundConst.foldl keccakRound st

/-- A block of 104 bytes as 13 lanes, mixed into the state. -/
def absorb (st : List Nat) (blk : List Byte) : List Nat :=
  keccakF ((List.range 25).map fun i => if i < 13 then Nat.xor (st.getD i 0) (leNat ((blk.drop (8 * i)).take 8)) else st.getD i 0)

/-- The message with SHA-3's padding to a multiple of 104 bytes. -/
def shaPad (m : List Byte) : List Byte :=
  let k := 104 - m.length % 104
  if k = 1 then m ++ [0x86] else m ++ [0x06] ++ List.replicate (k - 2) 0 ++ [0x80]

/-- SHA3-384 (R384). -/
def sha3 (m : List Byte) : List Byte :=
  let p := shaPad m
  let st := (List.range (p.length / 104)).foldl (fun st i => absorb st ((p.drop (104 * i)).take 104)) (List.replicate 25 0)
  (st.take 6).flatMap (natLe 8)

/-- The leaf of a chunk (R385). -/
def leafHash (d : List Byte) : List Byte := sha3 (0x00 :: d)

/-- The digest of an object of `n` bytes from its leaves (R385). -/
def rootHash (leaves : List (List Byte)) (n : Nat) : List Byte := sha3 (0x01 :: leaves.flatMap id ++ natLe 8 n)

/-- The chunks of 1 MiB of an object. -/
def chunksOf1M (d : List Byte) : List (List Byte) :=
  (List.range ((d.length + 2 ^ 20 - 1) / 2 ^ 20)).map fun i => (d.drop (i * 2 ^ 20)).take (2 ^ 20)

/-- The digest of bytes (R385). -/
def digest (d : List Byte) : List Byte := rootHash ((chunksOf1M d).map leafHash) d.length

/-- ASCII bytes. -/
def ascii (l : List Nat) : List Byte := l.map (BitVec.ofNat 8)

end Sys2Proof.Machine
end

