-- ==== Sys2Proof/Machine/Ring.lean ====
section
/-!
DEFINITION. Sys2Proof/Machine/Ring.lean: the fault ring of a context (R383) and MSI-X (R413).
-/

namespace Sys2Proof.Machine

/-- A context's bytes written without a check of rights, wherever their pages lie; none where one is not there. -/
def plainWrite (cid va : Nat) (d : List Byte) (s : State) : Option State :=
  (segs va d.length).foldl (fun o e =>
    match o, walk s cid e.1 with
    | some x, .leaf sh w0 w1 _ =>
      match locate s cid true e.1 sh w0 w1 with
      | .ok c => some (x.onFab (locWrite c ((d.drop (e.1 - va)).take e.2) false))
      | .error _ => none
    | _, _ => none) (some s)

/-- A number written so, where the page is there. -/
def plainPut (cid va n v : Nat) (s : State) : State := (plainWrite cid va (natLe n v) s).getD s

/-- An MSI-X vector of a function raised (R413): one beyond its table is counted in the context; a masked one pends. -/
def msix (cid func vec : Nat) (s : State) : State :=
  if (if func = 0 then 256 else 64) ≤ vec then s.onCtx cid fun c => { c with vecLost := c.vecLost + 1 }
  else
    let k := func * 256 + vec
    if NSet.mem s.svc.msixMask k then { s with svc := { s.svc with msixPending := NSet.add s.svc.msixPending k } }
    else { s with svc := { s.svc with msixSent := FMap.set 0 s.svc.msixSent k (FMap.get 0 s.svc.msixSent k + 1) } }

/-- An entry of the fault ring (R383): KIND in bytes 0 to 3, then seven words. A full ring counts it lost. An entry raises the ring's vector,
as a context fault does (R376) even where the ring has no room. -/
def ringAdd (cid kind : Nat) (ws : List Nat) (s : State) : State :=
  let c := s.ctx cid
  let head := (plainNum s cid c.fringva 8).getD 0
  let tail := (plainNum s cid (c.fringva + 8) 8).getD 0
  if (head + 2 ^ 64 - tail) % 2 ^ 64 = 2 ^ c.frlog then
    let lost := (plainNum s cid (c.fringva + 16) 8).getD 0
    let s := plainPut cid (c.fringva + 16) 8 (Nat.min (lost + 1) (2 ^ 64 - 1)) s
    if kind = 5 then msix cid c.func c.frvec s else s
  else
    let d := (List.range 8).flatMap fun i => natLe 8 (if i = 0 then kind else ws.getD (i - 1) 0)
    let s := (plainWrite cid (c.fringva + 64 + 64 * (head % 2 ^ c.frlog)) d s).getD s
    msix cid c.func c.frvec (plainPut cid c.fringva 8 ((head + 1) % 2 ^ 64) s)

/-- The kinds of entry. -/
def ringTile (cid : Nat) (r : List Nat) (s : State) : State := ringAdd cid 1 r s
def ringQueue (cid q slot status reason : Nat) (ws : List Nat) (s : State) : State :=
  ringAdd cid 2 ([status + reason * 2 ^ 8 + q * 2 ^ 16 + slot * 2 ^ 32] ++ ws.take 6) s
def ringMem (cid reason va : Nat) (s : State) : State := ringAdd cid 6 [reason, va] s

end Sys2Proof.Machine
end

