-- ==== Sys2Proof/Machine/Queue.lean ====
section
/-!
DEFINITION. Sys2Proof/Machine/Queue.lean: queues and packets (R354 to R366): doorbells, admission, dependency counters, completion
signals, and the packets NOP, COPY, FILL, SIGNAL, WAIT, MAP, UNMAP and MIGRATE.
-/

namespace Sys2Proof.Machine

/-! ## Packets (R357) -/

/-- Word `k` of a packet, and its fields. -/
def pw (p : HPkt) (k : Nat) : Nat := p.words.getD k 0
def pType (p : HPkt) : Nat := bits (pw p 0) 7 0
def pDep (p : HPkt) : Bool := bit (pw p 0) 8
def pOrder (p : HPkt) : Bool := bit (pw p 0) 9
def pIrq (p : HPkt) : Bool := bit (pw p 0) 10
def pSeq (p : HPkt) : Nat := bits (pw p 0) 63 32
def pDepva (p : HPkt) : Nat := bits (pw p 1) 55 0
def pVec (p : HPkt) : Nat := bits (pw p 1) 63 56
def pDecva (p : HPkt) : Nat := bits (pw p 2) 55 0
def pSigva (p : HPkt) : Nat := bits (pw p 3) 55 0

/-- Statuses of R365. -/
def stFault : Nat := 6
def stAborted : Nat := 8
def stTimeout : Nat := 10
def stDepbusy : Nat := 11
def stQtable : Nat := 12
def stDoorbell : Nat := 13

/-- A word that holds a VA and nothing above it. -/
def vaWord (w al : Nat) : Bool := bits w 63 56 == 0 && w % al == 0

/-- Whether the body of a packet is as its type requires (R359). -/
def bodyOk (ty : Nat) (w : Nat → Nat) : Bool :=
  match ty with
  | 0 => w 4 == 0 && w 5 == 0 && w 6 == 0 && w 7 == 0
  | 1 => vaWord (w 4) 1 && vaWord (w 5) 1 && decide (bits (w 6) 35 32 ≤ 11) && decide (bits (w 6) 47 36 ≤ 4096) && bits (w 6) 63 51 == 0 && w 7 == 0
  | 2 => vaWord (w 4) 1 && vaWord (w 5) 1 && decide (w 6 < 2 ^ 48) && w 7 == 0
  | 3 => vaWord (w 4) 8 && w 5 % 8 == 0 && w 7 == 0
  | 4 => vaWord (w 4) (if w 5 = 3 then 8 else 32) && decide (w 5 < 4) && (w 5 != 3 || bits (w 6) 63 31 == 0) && w 7 == 0
  | 5 => vaWord (w 4) 32 && decide (w 5 < 4)
  | 6 => vaWord (w 4) 1 && (w 6 == 3 || w 6 == 6) && w 7 == 0
  | 7 => vaWord (w 4) 1 && vaWord (w 5) 1 && w 6 == 0 && w 7 == 0
  | 8 => vaWord (w 4) 1 && bits (w 7) 19 0 != 0 && bits (w 7) 22 21 != 3 && bits (w 7) 63 23 == 0
  | 9 => vaWord (w 4) 65536 && w 5 != 0 && bits (w 5) 63 20 == 0 && w 6 == 0 && w 7 == 0
  | 10 => vaWord (w 4) 1 && w 5 != 0 && bits (w 5) 63 20 == 0 && bits (w 6) 63 44 == 0 && w 7 == 0
  | 11 => bits (w 4) 63 12 == 0 && w 7 == 0
  | 12 => vaWord (w 4) 8 && bits (w 5) 63 4 == 0 && w 6 == 0 && w 7 == 0
  | _ => false

/-- Whether a packet is well formed (R357, R359). -/
def packetOk (p : HPkt) : Bool :=
  bits (pw p 0) 31 11 == 0 && (if pDep p then pDepva p % 8 == 0 else pDepva p == 0) && vaWord (pw p 2) 8 && vaWord (pw p 3) 32
    && bodyOk (pType p) (pw p)

/-! ## Queue records -/

/-- Queue `q` of a context. -/
def queueOf (s : State) (cid q : Nat) : Queue := FMap.get {} (s.ctx cid).queues q

/-- A queue changed. -/
def setQueue (cid q : Nat) (f : Queue → Queue) (s : State) : State :=
  s.onCtx cid fun c => { c with queues := FMap.put c.queues q (f (FMap.get {} c.queues q)) }

/-- A queue of a context that faults put in Error with status ABORTED, a Suspended one too (R376). -/
def abortQueue (cid q : Nat) (s : State) : State :=
  setQueue cid q (fun x => if x.st == .free then x else { x with st := .error, prev := .error, err := stAborted }) s

/-- A queue put in Error (R366); one that is Suspended becomes so at its return. -/
def queueError (cid q err : Nat) (s : State) : State :=
  setQueue cid q (fun x => match x.st with
    | .free => x
    | .suspended => { x with prev := .error, err := err }
    | _ => { x with st := .error, err := err }) s

/-- A queue released from Blocked. -/
def unblockQueue (cid q : Nat) (s : State) : State :=
  setQueue cid q (fun x => match x.st, x.prev with
    | .blocked, _ => { x with st := .active }
    | .suspended, .blocked => { x with prev := .active }
    | _, _ => x) s

/-- The packets of the pump house changed by identity. -/
def setHpkt (id : Nat) (f : HPkt → HPkt) (s : State) : State :=
  s.onPump fun h => { h with pkts := h.pkts.map fun p => if p.id = id then f p else p }

/-- A packet with its effects done, or failed with a status and a reason. -/
def doneHpkt (id status reason : Nat) (s : State) : State :=
  setHpkt id (fun p => { p with st := .done, status := status, reason := reason, effects := p.effects || status == 0 }) s

/-- A packet pushed on the ready list. -/
def pushHpkt (id : Nat) (s : State) : State :=
  let o := s.pump.nextId
  (setHpkt id (fun p => { p with st := .ready, order := o }) s).onPump fun h => { h with nextId := h.nextId + 1 }

/-! ## Completion signals (R364) -/

/-- The key of a signal or counter. -/
def sigKey (cid va : Nat) : Nat := cid * 2 ^ 56 + va

/-- The WAIT packets parked on a signal, the earliest first. -/
def waiters (s : State) (cid va : Nat) : List HPkt :=
  (FMap.get [] s.pump.signals (sigKey cid va)).filterMap fun id => s.pump.pkts.find? fun p => p.id == id

/-- The condition of a WAIT (R359). -/
def waitMet (p : HPkt) (v : Nat) : Bool :=
  let a := sext v 64
  let b := sext (pw p 6) 64
  match pw p 5 with
  | 0 => decide (a = b)
  | 1 => decide (a ≠ b)
  | 2 => decide (a < b)
  | _ => decide (b ≤ a)

/-- LIST as the engine mirrors it (R364). -/
def listWord (l : List HPkt) : Nat :=
  match l with
  | [] => 0
  | p :: _ => 2 ^ 63 + p.q * 2 ^ 48 + p.slot * 2 ^ 32 + Nat.min l.length 0xFFFF

/-- The list of a signal replaced, and its mirror in memory. -/
def setWaiters (cid va : Nat) (l : List HPkt) (s : State) : State :=
  plainPut cid (va + 8) 8 (listWord l) (s.onPump fun h => { h with signals := FMap.set [] h.signals (sigKey cid va) (l.map (·.id)) })

/-- Every waiter re-tested against VALUE: those whose condition holds are released and complete (R364). -/
def retest (cid va v : Nat) (s : State) : State :=
  let l := waiters s cid va
  if l.isEmpty then s
  else
    let s := (l.filter fun p => waitMet p v).foldl (fun s p => unblockQueue cid p.q (doneHpkt p.id 0 0 s)) s
    setWaiters cid va (l.filter fun p => !waitMet p v) s

/-- An update of a completion signal by the completion engine (R364), or the reason why it cannot be. -/
def updateSignal (cid va : Nat) (f : Nat → Nat) (s : State) : Except Nat State :=
  match vnum s cid va 8 true true false with
  | .error e => .error e
  | .ok v =>
    match vput cid va 8 (f v % 2 ^ 64) true true false s with
    | .error e => .error e
    | .ok s => .ok (retest cid va (f v % 2 ^ 64) s)

/-! ## Dependency counters (R361) -/

/-- A dependency counter's word read and replaced by one atomic. -/
def depAtomic (cid va : Nat) (f : Nat → Nat) (s : State) : Except Nat (Nat × State) :=
  match vnum s cid va 8 true true true with
  | .error e => .error e
  | .ok w => match vput cid va 8 (f w) true true true s with | .error e => .error e | .ok s => .ok (w, s)

/-- The counter's word without its parked packet. -/
def unparked (w : Nat) : Nat := w % 2 ^ 63

/-- Whether two VAs of a context name one counter: the same VA, or the same place by two mappings. -/
def sameCounter (s : State) (cid a b : Nat) : Bool :=
  a == b || (match place s cid a true true true, place s cid b true true true with | .ok x, .ok y => x == y | _, _ => false)

/-- The packet parked on the counter at a VA, as its word names it. -/
def parkedOn (s : State) (cid va w : Nat) : Option HPkt :=
  s.pump.pkts.find? fun p => p.cid == cid && p.q == bits w 53 48 && p.slot == bits w 47 32 && p.st == .depParked && sameCounter s cid (pDepva p) va

/-- The packet parked on a counter pushed. -/
def pushParked (cid va w : Nat) (s : State) : State :=
  match parkedOn s cid va w with
  | some p => pushHpkt p.id s
  | none => s

/-- One decrement (R361). -/
def decremented (w : Nat) : Nat :=
  let c := bits w 30 0
  if c = 0 then putBit 31 true w else if c = 1 then unparked w - 1 else w - 1

/-- A queue's slot taken off a counter by one atomic; where the access waits, the pump house comes back to it (R361, R362). -/
def unparkSlot (cid va q slot : Nat) (s : State) : State :=
  match depAtomic cid va (fun w => if bits w 53 48 = q ∧ bits w 47 32 = slot then unparked w else w) s with
  | .ok (_, s) => s
  | .error 0 => s.onPump fun h => { h with unparks := h.unparks ++ [(cid, va, q, slot)] }
  | .error _ => s

/-- A parked packet taken off its counter (R361, R366, R376). -/
def unpark (p : HPkt) (s : State) : State := unparkSlot p.cid (pDepva p) p.q p.slot s

/-- One of the counters from which a dropped packet is still to be taken, tried again. -/
def unparkAgain (k : Nat) (s : State) : State :=
  match elemAt s.pump.unparks k with
  | some (c, va, q, slot) => unparkSlot c va q slot (s.onPump fun h => { h with unparks := dropAt h.unparks k })
  | none => s

/-- Kernels released to their dependants and not complete whose packet decrements a counter (R349). -/
def releasedBy (s : State) (cid va : Nat) : Nat :=
  (s.pump.kernels.filter fun e => e.2.cid == cid && e.2.released && e.2.st != .complete && e.2.st != .aborted
    && s.pump.pkts.any fun p => p.id == e.2.pkt && pDecva p == va).length

/-- Whether a packet is a LAUNCH marked EARLY. -/
def isEarly (p : HPkt) : Bool := pType p == 1 && bit (pw p 6) 50

/-- An EARLY LAUNCH parked on a counter is pushed when the events still expected are completions of kernels that have been released to
their dependants (R349). -/
def releaseEarly (cid va : Nat) (s : State) : State :=
  match vnum s cid va 8 true true true with
  | .error _ => s
  | .ok w =>
    match parkedOn s cid va w with
    | some p =>
      if bit w 63 && isEarly p && decide (bits w 30 0 ≤ releasedBy s cid va) then pushHpkt p.id (unpark p s) else s
    | none => s

/-- A counter decremented; at zero the parked packet is pushed, and an EARLY one once only released kernels are still expected (R349, R361). -/
def decrement (cid va : Nat) (s : State) : Except Nat State :=
  match depAtomic cid va decremented s with
  | .error e => .error e
  | .ok (w, s) => .ok (if bits w 30 0 = 1 ∧ bit w 63 then pushParked cid va w s else releaseEarly cid va s)

/-- A packet parked on its counter at admission, or pushed, or failed (R361, R362). Reason 0 leaves everything as it was: so it does while a dropped
packet is still to be taken off the counter. -/
def parkHpkt (p : HPkt) (s : State) : Except Nat State :=
  let mark (w : Nat) : Nat :=
    if bits w 30 0 = 0 ∨ bit w 63 then w else 2 ^ 63 + bits w 62 54 * 2 ^ 54 + p.q * 2 ^ 48 + p.slot * 2 ^ 32 + bits w 31 0
  if s.pump.unparks.any fun e => e.1 == p.cid && sameCounter s p.cid e.2.1 (pDepva p) then .error 0
  else match depAtomic p.cid (pDepva p) mark s with
  | .error 0 => .error 0
  | .error e => .ok (doneHpkt p.id stFault e s)
  | .ok (w, s) =>
    if bits w 30 0 = 0 then .ok (pushHpkt p.id s)
    else if bit w 63 then .ok (doneHpkt p.id stDepbusy 0 s)
    else .ok (releaseEarly p.cid (pDepva p) (setHpkt p.id (fun p => { p with st := .depParked }) s))

/-! ## Doorbells (R355, R356) -/

/-- The context in slot `k` of a function (R409). -/
def ctxInSlot (s : State) (f k : Nat) : Option Nat :=
  (s.ctxs.find? fun e => e.2.func == f && e.2.slot == k && e.2.st != .free).map fun e => e.1

/-- A function's write at offset `o` of the doorbell pages in its BAR0 (R373, R409): a TAIL word of a context that the function owns is performed
at the page's cistern; every other word ignores it. -/
def ringBar0 (f o val : Nat) (s : State) : State :=
  if o % 64 = 24 ∧ o < 2 ^ 22 then
    match ctxInSlot s f (o / 4096) with
    | some c => tailWrite c (o % 4096 / 64) val s
    | none => s
  else s

/-- TAIL_WRITE (R354 to R356, R409): function `f` writes at offset `o` of its doorbell pages; before the boot has ended and in Recovery they are not
there (R414, R418). -/
def execTailWrite (f o val : Nat) (s : State) : Out := .next (if s.svc.boot = .ready then ringBar0 f o val s else s)

/-- The notices on their way to a service tile that no longer has the queue role dropped, and sent again to the one that has from the queue
records (R356, R370). -/
def renotice (s : State) : State :=
  let s := s.onFab fun f => { f with net := f.net.filter fun m => m.kind != .queueNotice }
  s.ctxs.foldl (fun s e => e.2.queues.foldl (fun s q => if q.2.st == .free || q.2.tail == q.2.seen then s else sendNotice e.1 q.1 q.2.tail s) s) s

/-- QUEUE_NOTICE (R355, R356): notices that reach the queue role are taken in the order of the writes. -/
def execQueueNotice (n : Nat) (s : State) : Out :=
  .next (match elemAt s.fab.net n with
  | some m =>
    if m.kind != .queueNotice || !m.path.isEmpty || m.dst != queueRole s || (s.fab.net.take n).any fun o => o.kind == .queueNotice && o.cid == m.cid then s
    else
      let s := take n s
      let x := queueOf s m.cid m.num
      if x.st == .free || m.val == x.seen then s
      else if m.val < x.head ∨ x.head + 2 ^ x.size < m.val then queueError m.cid m.num stDoorbell s
      else setQueue m.cid m.num (fun x => { x with seen := m.val }) s
  | none => s)

/-! ## Admission (R358) -/

/-- Whether the incomplete packets of its queue let `p` be admitted (R358): no WAIT stands before it, and with ORDER nothing does. -/
def admits (s : State) (p : HPkt) : Bool := s.pump.pkts.all fun o => !(o.cid == p.cid && o.q == p.q) || (!pOrder p && pType o != 5)

/-- A context with a packet in flight is running (R375). -/
def nowRunning (cid : Nat) (s : State) : State := s.onCtx cid fun c => if c.st == .residentIdle then { c with st := .residentRunning } else c

/-- A well-formed LAUNCH admitted (R348, R352): one whose LSN is above the last that its queue accepted is accepted, and its kernel Queued. -/
def acceptLaunch (p : HPkt) (s : State) : State :=
  let x := queueOf s p.cid p.q
  if pType p = 1 ∧ (x.lsns = [] ∨ x.lsn < pSeq p) then
    (setQueue p.cid p.q (fun x => { x with lsn := pSeq p, lsns := FMap.put x.lsns (pSeq p) p.id }) s).onPump fun h =>
      { h with kernels := FMap.put h.kernels p.id { cid := p.cid, pkt := p.id, lsn := pSeq p, st := .queued } }
  else s

/-- The kernel of a LAUNCH that ends before its check (R348): it ends with the packet's status. -/
def closeQueued (id status : Nat) (s : State) : State :=
  match s.pump.kernels.find? fun e => e.1 == id with
  | some (_, y) => if y.st == .queued then s.onPump fun h => { h with kernels := FMap.put h.kernels id { y with st := .aborted, status := status } } else s
  | none => s

/-- PACKET_ADMIT (R358, R362). -/
def execPacketAdmit (c q : Nat) (s : State) : Out :=
  .next (let x := queueOf s c q
  if x.st != .active || x.destroy || x.head == x.seen then s
  else
    let slot := x.head % 2 ^ x.size
    match vread s c (x.base + 64 * slot) 64 true false false with
    | .error 0 => s
    | .error e => ringMem c e (x.base + 64 * slot) (queueError c q stFault s)
    | .ok d =>
      let ws := (List.range 8).map fun i => leNat ((d.drop (8 * i)).take 8)
      let id := s.pump.nextId + 1
      let p : HPkt := { id := id, cid := c, q := q, slot := slot, words := ws, order := id, since := s.now }
      if !admits s p then s
      else
        let y := (setQueue c q (fun x => { x with head := x.head + 1 }) (nowRunning c s)).onPump fun h =>
          { h with pkts := h.pkts ++ [p], nextId := id + 1, journal := FMap.put h.journal id 1 }
        if !packetOk p then doneHpkt id stMalformed 0 y
        else if pDep p then (match parkHpkt p (acceptLaunch p y) with | .ok z => z | .error _ => s)
        else acceptLaunch p y)

/-- PACKET_RUN (R358): the ready packet of the highest PRIO, the earliest pushed of it, starts. -/
def execPacketRun (n : Nat) (s : State) : Out :=
  .next (match elemAt s.pump.pkts n with
  | some p =>
    let prio (o : HPkt) : Nat := (queueOf s o.cid o.q).prio
    if p.st != .ready || s.pump.pkts.any fun o => o.st == .ready && (decide (prio p < prio o) || (prio p == prio o && decide (o.order < p.order))) then s
    else (setHpkt p.id (fun p => { p with st := .running, since := s.now }) s).onPump fun h => { h with journal := FMap.put h.journal p.id 2 }
  | none => s)

/-- A running packet of a type at a position, its effect not yet done. -/
def runningPkt (s : State) (n ty : Nat) : Option HPkt := (elemAt s.pump.pkts n).filter fun p => p.st == .running && pType p == ty

/-- The end of a packet's work: done, failed with FAULT and the reason, or still waiting. -/
def endWith (id : Nat) (s : State) : Except Nat State → State
  | .ok t => doneHpkt id 0 0 t
  | .error 0 => s
  | .error e => doneHpkt id stFault e s

/-! ## Completion (R363, R365) -/

/-- VEC raised where the packet asks for it. -/
def raiseVec (p : HPkt) (s : State) : State := if pIrq p then msix p.cid (s.ctx p.cid).func (pVec p) s else s

/-- A fault of DECVA or SIGVA at completion (R362). -/
def completionFault (p : HPkt) (va e : Nat) (s : State) : State := ringMem p.cid e va (queueError p.cid p.q stFault s)

/-- A packet's record gone: it has completed. -/
def endHpkt (p : HPkt) (s : State) : State :=
  s.onPump fun h => { h with pkts := h.pkts.filter fun o => o.id != p.id, journal := FMap.put h.journal p.id 3 }

/-- A failed packet's completion (R365). None while an access of it waits. -/
def failHpkt (p : HPkt) (status reason : Nat) (s : State) : Option State :=
  let s := closeQueued p.id status s
  let s := ringQueue p.cid p.q p.slot status reason p.words (queueError p.cid p.q status s)
  (if pSigva p = 0 then some s else
    match updateSignal p.cid (pSigva p) (fun _ => 2 ^ 63 + status) s with
    | .ok t => some t
    | .error 0 => none
    | .error e => some (ringMem p.cid e (pSigva p) s)).map fun s => endHpkt p (raiseVec p s)

/-- A packet's completion (R363): DECVA, SIGVA, VEC. None while an access of it waits. -/
def completeHpkt (p : HPkt) (s : State) : Option State :=
  let a : Option State := if pDecva p = 0 then some s else
    match decrement p.cid (pDecva p) s with
    | .ok t => some t
    | .error 0 => none
    | .error e => some (completionFault p (pDecva p) e s)
  a.bind fun s =>
    (if pSigva p = 0 then some s else
      match updateSignal p.cid (pSigva p) (fun v => v + 2 ^ 64 - 1) s with
      | .ok t => some t
      | .error 0 => none
      | .error e => some (completionFault p (pSigva p) e s)).map fun s => endHpkt p (raiseVec p s)

/-- Whether a packet still waits for a change of a mapping (R276, R363). -/
def changing (s : State) (p : HPkt) : Bool :=
  let c := s.ctx p.cid
  c.changes.any (fun x => x.pkt == p.id) || c.migs.any (fun g => g.pkt == p.id)

/-- PACKET_COMPLETE (R363, R365). -/
def execPacketComplete (n : Nat) (s : State) : Out :=
  .next (match elemAt s.pump.pkts n with
  | some p =>
    if p.st != .done || changing s p then s
    else if p.status = 0 then (completeHpkt p s).getD s
    else (failHpkt p p.status p.reason s).getD s
  | none => s)

/-! ## The plain packets (R360, R361, R364) -/

/-- NOP. -/
def execNopPacket (n : Nat) (s : State) : Out :=
  .next (match runningPkt s n 0 with | some p => doneHpkt p.id 0 0 s | none => s)

/-- COPY (R360): as if all were read before any is written. -/
def execCopyPacket (n : Nat) (s : State) : Out :=
  .next (match runningPkt s n 2 with
  | some p =>
    endWith p.id s (match vread s p.cid (pw p 4) (pw p 6) true false false with
      | .error e => .error e
      | .ok d => vwrite p.cid (pw p 5) d false true false s)
  | none => s)

/-- FILL (R360). -/
def execFillPacket (n : Nat) (s : State) : Out :=
  .next (match runningPkt s n 3 with
  | some p => endWith p.id s (vwrite p.cid (pw p 4) ((List.range (pw p 5 / 8)).flatMap fun _ => natLe 8 (pw p 6)) false true false s)
  | none => s)

/-- A SIGNAL on a completion signal. -/
def signalForm (n op : Nat) (f : Nat → Nat → Nat) (s : State) : Out :=
  .next (match (runningPkt s n 4).filter fun p => pw p 5 == op with
  | some p => endWith p.id s (updateSignal p.cid (pw p 4) (fun v => f v (pw p 6)) s)
  | none => s)

/-- SIGNAL SET (R364). -/
def execSignalSet (n : Nat) (s : State) : Out := signalForm n 0 (fun _ x => x) s
/-- SIGNAL ADD (R364). -/
def execSignalAdd (n : Nat) (s : State) : Out := signalForm n 1 (fun v x => v + x) s
/-- SIGNAL SUB (R364). -/
def execSignalSub (n : Nat) (s : State) : Out := signalForm n 2 (fun v x => v + 2 ^ 64 - x) s

/-- SIGNAL ARM (R361). -/
def execSignalArm (n : Nat) (s : State) : Out :=
  .next (match (runningPkt s n 4).filter fun p => pw p 5 == 3 with
  | some p =>
    let c := pw p 6
    let arm (w : Nat) : Nat := (if c = 0 then unparked w else w) / 2 ^ 32 * 2 ^ 32 + c
    endWith p.id s (match depAtomic p.cid (pw p 4) arm s with
      | .error e => .error e
      | .ok (w, s) => .ok (if c = 0 ∧ bit w 63 then pushParked p.cid (pw p 4) w s else releaseEarly p.cid (pw p 4) s))
  | none => s)

/-- WAIT (R364): it completes at once, or joins the signal's list and blocks its queue. -/
def execWaitPacket (n : Nat) (s : State) : Out :=
  .next (match runningPkt s n 5 with
  | some p =>
    match vnum s p.cid (pw p 4) 8 true false false with
    | .error 0 => s
    | .error e => doneHpkt p.id stFault e s
    | .ok v =>
      if waitMet p v then doneHpkt p.id 0 0 s
      else
        let s := setHpkt p.id (fun p => { p with st := .waiting, since := s.now }) s
        let s := setQueue p.cid p.q (fun x => match x.st, x.prev with
          | .active, _ => { x with st := .blocked }
          | .suspended, .active => { x with prev := .blocked }
          | _, _ => x) s
        setWaiters p.cid (pw p 4) (waiters s p.cid (pw p 4) ++ [p]) s
  | none => s)

/-- A WAIT taken off its signal's list. -/
def leaveList (p : HPkt) (s : State) : State :=
  if p.st == .waiting then setWaiters p.cid (pw p 4) ((waiters s p.cid (pw p 4)).filter fun o => o.id != p.id) s else s

/-- WAIT_RETEST (R364): a plain store of VALUE is seen; a signal that cannot be read any more fails the WAIT (R362). -/
def execWaitRetest (n : Nat) (s : State) : Out :=
  .next (match elemAt s.pump.pkts n with
  | some p =>
    if p.st != .waiting then s
    else match vnum s p.cid (pw p 4) 8 true false false with
      | .ok v => retest p.cid (pw p 4) v s
      | .error 0 => s
      | .error e => doneHpkt p.id stFault e (leaveList p s)
  | none => s)

/-- WAIT_TIMEOUT (R364): word 7 is the timeout in µs. -/
def execWaitTimeout (n : Nat) (s : State) : Out :=
  .next (match elemAt s.pump.pkts n with
  | some p =>
    if p.st == .waiting && pw p 7 != 0 && decide (p.since + 1000 * pw p 7 ≤ s.now) then doneHpkt p.id stTimeout 0 (leaveList p s) else s
  | none => s)

/-! ## The pager's packets (R447) -/

/-- The end of a packet that the pager answers with a status. -/
def settleAs (id : Nat) (s : State) : Except Nat State → State
  | .ok t => doneHpkt id 0 0 t
  | .error 0 => s
  | .error e => doneHpkt id e 0 s

/-- MAP (R447): it completes after R276. -/
def execMapPacket (n : Nat) (s : State) : Out :=
  .next (match runningPkt s n 8 with
  | some p =>
    let sz := bits (pw p 7) 22 21
    settleAs p.id s (mapPages p.cid p.id (pw p 4) (bits (pw p 7) 19 0) (if sz = 0 then 16 else if sz = 1 then 21 else 30) (pw p 5) (pw p 6)
      (bit (pw p 7) 20 || bit (pw p 6) 34) s)
  | none => s)

/-- UNMAP (R447). -/
def execUnmapPacket (n : Nat) (s : State) : Out :=
  .next (match runningPkt s n 9 with
  | some p => settleAs p.id s (unmapRange p.cid p.id (pw p 4) (65536 * pw p 5) s)
  | none => s)

/-- MIGRATE (R294, R447). -/
def execMigratePacket (n : Nat) (s : State) : Out :=
  .next (match runningPkt s n 10 with
  | some p => settleAs p.id s (migratePages p.cid p.id (pw p 4) (pw p 5) (bits (pw p 6) 19 0) (bits (pw p 6) 23 20) (bits (pw p 6) 43 24) s)
  | none => s)

end Sys2Proof.Machine
end

