-- ==== Sys2Proof/Machine/Bind.lean ====
section
/-!
DEFINITION. Sys2Proof/Machine/Bind.lean: the binding and the release of group-table entries (R238 to R243, R249, R256, R330).
-/

namespace Sys2Proof.Machine

/-! ## Definitions from an image (R238, R344) -/

/-- The fields of a definition. -/
def GroupDef.word (d : GroupDef) (i : Nat) : Nat := d.w.getD i 0
def GroupDef.kind (d : GroupDef) : Nat := bits (d.word 0) 1 0
def GroupDef.size (d : GroupDef) : Nat := bits (d.word 0) 51 32
def GroupDef.listva (d : GroupDef) : Nat := bits (d.word 3) 55 0

/-- The list words of a LISTED definition, or the reason why they cannot be read. -/
def listWords (s : State) (cid : Nat) (d : GroupDef) : Except Nat (List Nat) :=
  match vread s cid d.listva (4 * d.size) true false false with
  | .ok b => .ok ((List.range d.size).map fun i => leNat ((b.drop (4 * i)).take 4))
  | .error e => .error e

/-- The definitions with the lists that can be read, which are read once (R241). -/
def readLists (s : State) (cid : Nat) (ds : List GroupDef) : List GroupDef :=
  ds.map fun d => if d.kind = 2 ∧ d.listva % 4 = 0 then (match listWords s cid d with | .ok l => { d with list := some l } | .error _ => d) else d

/-- The entry as bound, without its checks (R249: the default of NB is 1, and 0 with a remote endpoint). -/
def GroupDef.bound (d : GroupDef) (l : List Nat) : Group :=
  let ue := l.any fun w => bit w 31
  { kind := d.kind, size := d.size, base := d.word 1, shape := d.word 2, listva := d.listva,
    nb := if d.nb = 0xFF then (if ue then 0 else 1) else d.nb, coll := d.coll, ue := ue, list := l }

/-- Whether a definition names what is bound already (R243). -/
def GroupDef.same (d : GroupDef) (g : Group) : Bool :=
  g.kind == d.kind && g.size == d.size && g.base == d.word 1 && g.shape == d.word 2 && g.listva == d.listva && g.coll == d.coll
    && g.nb == (d.bound g.list).nb

/-! ## The checks of R241 -/

/-- Reason 1: KIND 3 or a field that must be zero. -/
def groupZero (d : GroupDef) : Bool :=
  let w := d.word
  d.kind == 3 || bits (w 0) 63 52 != 0 || bits (w 0) 31 2 != 0 || bits (w 1) 63 32 != 0 || bits (w 3) 63 56 != 0
    || (if d.kind = 1 then w 3 != 0 || bits (w 2) 47 46 != 0 || bits (w 2) 43 42 != 0 || bit (w 2) 39 || bits (w 2) 31 21 != 0
          || bits (w 2) 15 14 != 0 || bits (w 2) 11 10 != 0 || bit (w 2) 7 || bit (w 2) 3
        else w 1 != 0 || w 2 != 0)

/-- Reason 3: the widths, strides and BASE of an AFFINE entry (R239). -/
def affineBad (d : GroupDef) : Bool :=
  let ds := digits (d.word 2)
  let sum : Nat := ds.foldl (fun (n : Nat) e => n + e.1) (0 : Nat)
  (ds.zip [4, 3, 2, 2, 20]).any (fun e => decide (e.2 < e.1.1) || (if e.1.1 = 0 then e.1.2.1 != 0 else e.1.2.1 == 0))
    || decide (20 < sum) || decide (2 ^ sum < d.size) || bit (d.word 1) 31

/-- A list word that names a remote endpoint as R240 lays it out and that the context's table holds. -/
def referenceOk (s : State) (cid w : Nat) : Bool :=
  bits w 8 1 == 0xC0 && (ueEndpoint s cid (bits w 30 11)).isSome && (s.ctx cid).job != 0

/-- The first reason for which an entry cannot be bound, of those that concern it alone; 0 none, 255 while its list cannot be read yet.
The list itself is read once; that it lies in pages that can be read is checked each time. -/
def groupReason (s : State) (cid : Nat) (d : GroupDef) : Nat :=
  if groupZero d then 1
  else if d.size = 0 then 2
  else if d.kind = 1 ∧ affineBad d then 3
  else if d.kind = 1 ∧ (List.range d.size).any (fun r => !(affine (d.word 1) (d.word 2) r).2) then 4
  else
    let l : Except Nat (List Nat) := if d.kind = 1 then .ok [] else if d.listva % 4 ≠ 0 then .error 1 else
      match listWords s cid d, d.list with | .ok _, some l => .ok l | r, _ => r
    match l with
    | .error 0 => 255
    | .error _ => 5
    | .ok l =>
      let g := d.bound l
      let tiles := (groupPlaces g).filter fun a => !bit a 31
      if l.any fun w => bit w 31 && !referenceOk s cid w then 6
      else if tiles.any fun a => !((s.ctx cid).tiles.contains a) then 7
      else if tiles.eraseDups.length ≠ tiles.length then 8
      else if g.ue ∧ d.nb ≠ 0xFF ∧ d.nb ≠ 0 then 10
      else 0

/-- The entry of a definition that passed, with its list as it was read. -/
def groupOf (d : GroupDef) : Group := d.bound (d.list.getD [])

/-- Combine-table entries a group takes in each switch of its tree (R256, R330). -/
def combNeed (g : Group) : Nat := g.nb + b2n (g.coll && !g.ue)

/-- The bound entries of a context after some definitions, as they will stand. -/
def groupsAfter (s : State) (cid : Nat) (ds : List GroupDef) : List (Nat × Group) :=
  (ds.foldl (fun m d => if d.kind = 0 then FMap.drop m d.k else FMap.put m d.k (groupOf d)) (s.ctx cid).groups)

/-- Reason 9: a tile in more than four groups. -/
def overFull (s : State) (cid : Nat) (gs : List (Nat × Group)) : Bool :=
  (s.ctx cid).tiles.any fun a => decide (4 < (gs.filter fun e => (groupPlaces e.2).contains a).length)

/-- The sum of some numbers. -/
def natSum (l : List Nat) : Nat := l.foldl (fun a b => a + b) 0

/-- The switches that stand, in the partition that a context holds, for those of a group's tree (R13, R256). -/
def groupSites (s : State) (cid : Nat) (g : Group) : List Nat :=
  ((List.range (groupLevel s g + 1)).flatMap fun l => (groupPlaces g).map fun a => swOf s l (physPlace s cid a)).eraseDups

/-- Whether a context's combine entries stand in the switches: those of one that is stored, faulted or destroyed do not (R259, R260). -/
def holdsEntries (st : CtxSt) : Bool :=
  st == .residentIdle || st == .residentRunning || st == .preempting || st == .savedHeld || st == .restoring

/-- The entries that some groups of a context take in the switches. -/
def combUse (s : State) (cid : Nat) (gs : List (Nat × Group)) : List (Nat × Nat) :=
  gs.flatMap fun e => (groupSites s cid e.2).map fun sw => (sw, combNeed e.2)

/-- Reason 11: a switch with fewer than the entries needed among its 64. -/
def combFull (s : State) (cid : Nat) (gs : List (Nat × Group)) : Bool :=
  let need := combUse s cid gs
  let others := (s.ctxs.filter fun e => e.1 != cid && holdsEntries e.2.st).flatMap fun e => combUse s e.1 e.2.groups
  (need.map (·.1)).eraseDups.any fun sw => decide (64 < natSum (((need ++ others).filter fun e => e.1 == sw).map fun e => e.2))

/-- The reason for which a launch's groups are refused, 0 none, 255 while a list is not readable yet (R241). -/
def bindReason (s : State) (cid : Nat) (ds : List GroupDef) : Nat :=
  match (ds.filter fun d => d.kind != 0).findSome? fun d => let r := groupReason s cid d; if r = 0 then none else some r with
  | some r => r
  | none =>
    let gs := groupsAfter s cid ds
    if overFull s cid gs then 9 else if combFull s cid gs then 11 else 0

/-! ## Binding and release (R242, R243) -/

/-- The lowest free membership slot of a tile. -/
def freeSlot (t : Tile) : Nat := ((List.range 4).find? fun i => t.comm.slots.all fun e => e.1 != i).getD 3

/-- A tile made a member (R242, R252): its slot, and the slot's barrier and collective records as new. -/
def joinGroup (k rank : Nat) (g : Group) (t : Tile) : Tile :=
  let i := freeSlot t
  { t with comm := { t.comm with
      slots := FMap.put t.comm.slots i { grp := k, rank := rank, desc := g }
      bars := t.comm.bars.filter fun e => e.1 / 16 != i
      colls := t.comm.colls.filter fun e => e.1 / 64 != i } }

/-- The physical tiles of a context's partition on this device. -/
def tilesOf (s : State) (cid : Nat) : List Nat :=
  ((s.ctx cid).tiles.filter fun a => a / 2048 == s.dev).map (s.physOf cid)

/-- The combine entries of a group set up (R254, R256, R330). -/
def setupComb (cid k : Nat) (g : Group) (s : State) : State :=
  (groupSwitches s g).foldl (fun s sw =>
    let n := (downPorts s g sw).length
    ((List.range g.nb) ++ (if g.coll && !g.ue then [16] else [])).foldl (fun s b => setComb cid k b sw { exp := n } s) s) s

/-- One entry bound (R243). -/
def bindGroup (cid k : Nat) (g : Group) (s : State) : State :=
  let s := s.onCtx cid fun c => { c with groups := FMap.put c.groups k g, gst := FMap.put c.gst k .bound }
  let s := (tilesOf s cid).foldl (fun s p => s.onTile p fun t => { t with comm := { t.comm with bound := NSet.add t.comm.bound k } }) s
  let ps := groupPlaces g
  let s := ((List.range ps.length).zip ps).foldl (fun s e =>
    if bit e.2 31 || e.2 / 2048 != s.dev then s else s.onTile (s.physOf cid e.2) (joinGroup k e.1 g)) s
  let s := setupComb cid k g s
  if g.kind = 2 then pinPages cid (1 + k) ((segs g.listva (4 * g.size)).map (·.1)) s else s

/-- The combine entries of a group freed, all of them or one switch's. -/
def freeComb (cid k : Nat) (s : State) : State :=
  s.onFab fun f => { f with
    comb := f.comb.filter fun e => e.1 / 2 ^ 36 / 32 != cid * 256 + k
    ccomb := f.ccomb.filter fun e => e.1 / 2 ^ 36 / 64 != cid * 256 + k }

/-- Rank-cache entries dropped (R243, R246). -/
def dropRanks (f : Nat → Nat → Bool) (fb : Fabric) : Fabric :=
  { fb with rankCache := fb.rankCache.map fun e => (e.1, e.2.filter fun x => !f x.1 x.2.1) }

/-- A tile without a group. -/
def leaveGroup (k : Nat) (t : Tile) : Tile :=
  { t with comm := { t.comm with bound := NSet.del t.comm.bound k, slots := t.comm.slots.filter fun e => e.2.grp != k } }

/-- One entry unbound (R243). -/
def unbindGroup (cid k : Nat) (s : State) : State :=
  let s := s.onCtx cid fun c => { c with groups := FMap.drop c.groups k, gst := FMap.drop c.gst k }
  let s := (tilesOf s cid).foldl (fun s p => s.onTile p (leaveGroup k)) s
  unpin cid (1 + k) (fun _ => true) (freeComb cid k (s.onFab (dropRanks fun c g => c == cid && g == k)))

/-- Whether a tile still has something that names a group (R243). -/
def namesGroup (t : Tile) (k : Nat) : Bool :=
  match memberOf t k with
  | none => false
  | some (i, _) =>
    t.net.recvs.any (fun e => decide (e.2.state < 4) && ewGrp e.2.ew == k) || t.net.unexp.any (fun e => ewGrp e.2.ew == k)
      || t.net.sends.any (fun e => ewGrp e.2.ew == k) || t.comm.bars.any (fun e => e.1 / 16 == i && e.2.bind.isSome)
      || t.comm.colls.any (fun e => e.1 / 64 == i && e.2.st != .idle)

/-- Whether a kernel in progress was bound with an entry. -/
def kernelUses (s : State) (cid k : Nat) : Bool :=
  s.pump.kernels.any fun e => e.2.cid == cid && e.2.groups.contains k && (e.2.st == .loading || e.2.st == .running || e.2.st == .triggered)

/-- Whether a context is on its tiles, neither saved nor on its way (R375). -/
def present (s : State) (cid : Nat) : Bool := (s.ctx cid).st == .residentIdle || (s.ctx cid).st == .residentRunning

/-- Whether an entry is drained (R243): what a context that is away holds is in its save area, and stays as it is. -/
def groupDrained (s : State) (cid k : Nat) : Bool :=
  present s cid && !((tilesOf s cid).any fun p => namesGroup (s.tile p) k) && !kernelUses s cid k

/-- GROUP_ENTRY_DRAINED (R243): a Releasing entry is unbound; the launch that waits for it binds it then. -/
def execGroupEntryDrained (c k : Nat) (s : State) : Out :=
  .next (if FMap.get .unbound (s.ctx c).gst k == .releasing && groupDrained s c k then unbindGroup c k s else s)

/-- The entries that definitions redefine or empty differently made Releasing; whether all that stand in the way are gone (R243). -/
def releaseChanged (cid : Nat) (ds : List GroupDef) (s : State) : State × Bool :=
  ds.foldl (fun (st : State × Bool) d =>
    match (st.1.ctx cid).groups.find? fun e => e.1 == d.k with
    | some (_, g) =>
      if d.kind != 0 && d.same g && FMap.get GSt.unbound (st.1.ctx cid).gst d.k == .bound then st
      else (st.1.onCtx cid fun c => { c with gst := FMap.put c.gst d.k .releasing }, false)
    | none => st) (s, true)

/-- Definitions bound in ascending index (R242). -/
def bindAll (cid : Nat) (ds : List GroupDef) (s : State) : State :=
  (sortBy (fun d => d.k) ds).foldl (fun s d =>
    if d.kind = 0 || (s.ctx cid).groups.any fun e => e.1 == d.k then s else bindGroup cid d.k (groupOf d) s) s

end Sys2Proof.Machine
end

