-- ==== Sys2Proof/Machine/Kernel.lean ====
section
/-!
DEFINITION. Sys2Proof/Machine/Kernel.lean: kernels (R343 to R353): the image and its checks, loading, the kick, KTRIG, KDONE and completion.
-/

namespace Sys2Proof.Machine

/-! ## The image (R343, R344) -/

/-- A little-endian field of `n` bytes at an offset of an image. -/
def fld (img : List Byte) (o n : Nat) : Nat := leNat ((img.drop o).take n)

/-- The header's fields. -/
def iCodeOff (m : List Byte) : Nat := fld m 16 4
def iCoden (m : List Byte) : Nat := fld m 20 2
def iNtask (m : List Byte) : Nat := fld m 22 1
def iNgrp (m : List Byte) : Nat := fld m 23 1
def iTaskOff (m : List Byte) : Nat := fld m 24 4
def iGrpOff (m : List Byte) : Nat := fld m 28 4
def iTblOff (m : List Byte) : Nat := fld m 32 4
def iTblMask (m : List Byte) : Nat := fld m 36 1
def iVallot (m : List Byte) : Nat := fld m 37 1
def iAallot (m : List Byte) : Nat := fld m 38 1
def iWinOff (m : List Byte) : Nat := fld m 40 4
def iSegOff (m : List Byte) : Nat := fld m 44 4
def iNseg (m : List Byte) : Nat := fld m 48 2
def iArgBase (m : List Byte) : Nat := fld m 52 4

/-- The tables with a preset, in ascending number, and the preset's offset of each. -/
def iTables (m : List Byte) : List (Nat × Nat) :=
  let l := (List.range 4).filter fun n => bit (iTblMask m) n
  (List.range l.length).zip l |>.map fun e => (e.2, iTblOff m + 1032 * e.1)

/-- Task entry `i`: the descriptor words, the slot, START, COUNT. -/
def iTask (m : List Byte) (i k : Nat) : Nat := fld m (iTaskOff m + 32 * i + 8 * k) 8
def iTaskSlot (m : List Byte) (i : Nat) : Nat := fld m (iTaskOff m + 32 * i + 24) 1
def iTaskStart (m : List Byte) (i : Nat) : Bool := bit (fld m (iTaskOff m + 32 * i + 25) 1) 0
def iTaskCount (m : List Byte) (i : Nat) : Nat := fld m (iTaskOff m + 32 * i + 26) 2

/-- Group entry `i` as a definition. -/
def iGroup (m : List Byte) (i : Nat) : GroupDef :=
  let o := iGrpOff m + 40 * i
  { k := fld m o 1, nb := fld m (o + 1) 1, coll := bit (fld m (o + 2) 1) 0, w := (List.range 4).map fun j => fld m (o + 8 + 8 * j) 8 }

/-- The group definitions of an image. -/
def iGroups (m : List Byte) : List GroupDef := (List.range (iNgrp m)).map (iGroup m)

/-- Window preset `n`, 1 to 15. -/
def iWindow (m : List Byte) (n : Nat) : Nat := fld m (iWinOff m + 8 * (n - 1)) 8

/-- Fields of a segment's header word. -/
def segOffset (h : Nat) : Nat := bits h 20 0
def segLen (h : Nat) : Nat := bits h 45 24
def segFe (h : Nat) : Bool := bit h 63

/-- The headers of the segments from an offset on, each with the offset of its data, and the end of the last. -/
def segWalk (f : Nat → Except Nat Nat) : Nat → Nat → Except Nat (List (Nat × Nat) × Nat)
  | 0, o => .ok ([], o)
  | n + 1, o =>
    match f o with
    | .error e => .error e
    | .ok h =>
      match segWalk f n (o + 8 + (segLen h + 7) / 8 * 8) with
      | .error e => .error e
      | .ok (l, z) => .ok ((h, o + 8) :: l, z)

/-- The segments of an image that has been read. -/
def iSegs (m : List Byte) : List (Nat × Nat) :=
  match segWalk (fun o => .ok (fld m o 8)) (iNseg m) (iSegOff m) with
  | .ok (l, _) => l
  | .error _ => []

/-- The largest of some numbers. -/
def maxNat (l : List Nat) : Nat := l.foldl (fun a b => Nat.max a b) 0

/-! ## The checks of a launch (R345) -/

/-- Zero fields and alignments of the header. -/
def headBad (m : List Byte) : Bool :=
  fld m 0 4 != 0x4D494B46 || fld m 4 2 != 1 || fld m 6 2 != 0 || bits (iTblMask m) 7 4 != 0 || fld m 39 1 != 0 || fld m 50 2 != 0
    || fld m 56 8 != 0 || iCodeOff m % 4 != 0
    || [iTaskOff m, iGrpOff m, iTblOff m, iWinOff m, iSegOff m, iArgBase m].any fun o => o % 8 != 0

/-- Zero fields of the sections. -/
def sectionBad (m : List Byte) : Bool :=
  (List.range (iNtask m)).any (fun i => bits (iTask m i 0) 63 50 != 0 || bits (iTask m i 0) 31 18 != 0 || bit (iTask m i 0) 15
      || decide (2 ^ 16 ≤ iTask m i 1) || bits (fld m (iTaskOff m + 32 * i + 25) 1) 7 1 != 0 || fld m (iTaskOff m + 32 * i + 28) 4 != 0)
    || (List.range (iNgrp m)).any (fun i => bits (fld m (iGrpOff m + 40 * i + 2) 1) 7 1 != 0 || fld m (iGrpOff m + 40 * i + 3) 5 != 0)
    || (iSegs m).any fun e => bits e.1 23 21 != 0 || bits e.1 62 46 != 0

/-- Whether a list names something twice. -/
def twice (l : List Nat) : Bool := l.eraseDups.length != l.length

/-- Reason 2: counts and limits. -/
def countBad (m : List Byte) : Bool :=
  decide (iCoden m = 0) || decide (32768 < iCoden m) || decide (64 < iNtask m) || decide (4096 < iNseg m)
    || !(iVallot m == 8 || iVallot m == 16 || iVallot m == 24 || iVallot m == 32) || decide (16 < iAallot m)
    || (List.range (iNtask m)).any (fun i => decide (63 < iTaskSlot m i)) || (iSegs m).any (fun e => segLen e.1 == 0 || decide (2 ^ 21 < segLen e.1))
    || (iGroups m).any (fun d => decide (16 < d.nb) && d.nb != 0xFF)
    || twice ((List.range (iNtask m)).map (iTaskSlot m)) || twice ((iGroups m).map (·.k))

/-- Reason 3: presets. -/
def presetBad (m : List Byte) : Bool :=
  (List.range 15).any (fun i => !wdOk (iWindow m (i + 1)))
    || (iTables m).any fun e => tloadBad (fld m e.2 8) || fld m e.2 8 % 4 != e.1

/-- Reason 4: what does not fit SRAM. -/
def imageOver (m : List Byte) (arglen : Nat) : Bool :=
  decide (2 ^ 21 < iArgBase m + arglen) || (iSegs m).any fun e => decide (2 ^ 21 < segOffset e.1 + segLen e.1)

/-- What reading for a check gives: bytes, a wait, or a refusal with a status and a reason. A poisoned sector is FAULT (R362). -/
def imageRead (s : State) (cid va n : Nat) : Except (Nat × Nat) (List Byte) :=
  match vread s cid va n true false false with
  | .ok d => .ok d
  | .error 0 => .error (0, 0)
  | .error 9 => .error (stFault, 9)
  | .error _ => .error (1, 1)

/-- The whole image, from its header to the end of its last section, rounded up to 8 bytes (R345, R387). -/
def wholeImage (s : State) (cid va : Nat) : Except (Nat × Nat) (List Byte) :=
  match imageRead s cid va 64 with
  | .error e => .error e
  | .ok h =>
    if headBad h then .error (1, 1)
    else
      let at_ (o : Nat) : Except Nat Nat :=
        match imageRead s cid (va + o) 8 with | .ok d => .ok (leNat d) | .error e => .error (e.1 * 16 + e.2)
      match segWalk at_ (iNseg h) (iSegOff h) with
      | .error e => .error (e / 16, e % 16)
      | .ok (_, z) =>
        let ends := [64, if iNseg h = 0 then 0 else z, iCodeOff h + 4 * iCoden h, iTaskOff h + 32 * iNtask h, iGrpOff h + 40 * iNgrp h,
          iTblOff h + 1032 * (iTables h).length, iWinOff h + 120]
        imageRead s cid va ((maxNat ends + 7) / 8 * 8)

/-- The fields of a LAUNCH packet's word 6 (R359). -/
def lBase (p : HPkt) : Nat := bits (pw p 6) 31 0
def lLog (p : HPkt) : Nat := bits (pw p 6) 35 32
def lArgLen (p : HPkt) : Nat := bits (pw p 6) 47 36
def lScope (p : HPkt) : Nat := bits (pw p 6) 49 48

/-- The tile places of a footprint (R16). -/
def footprint (base log : Nat) : List Nat := (List.range (16 * 2 ^ log)).map (base + ·)

/-- Whether a footprint is an aligned subtree inside the partition. -/
def shapeOk (s : State) (p : HPkt) : Bool :=
  lBase p % (16 * 2 ^ lLog p) == 0 && (footprint (lBase p) (lLog p)).all fun a => (s.ctx p.cid).tiles.contains a

/-- The checks up to FAULT: the image and the arguments, or the status and reason; status 0 while an access waits. -/
def launchChecks (s : State) (p : HPkt) : Except (Nat × Nat) (List Byte × List Byte) :=
  match wholeImage s p.cid (pw p 4) with
  | .error e => .error e
  | .ok m =>
    let budgets := (List.range (iNtask m)).map fun i => bits (iTask m i 0) 47 32
    if sectionBad m then .error (1, 1)
    else if countBad m then .error (1, 2)
    else if presetBad m then .error (1, 3)
    else if imageOver m (lArgLen p) then .error (1, 4)
    else if budgets.any fun b => b == 0 || decide ((s.ctx p.cid).maxbudget < b) then .error (2, 0)
    else if !shapeOk s p then .error (4, 0)
    else if lScope p = 0 then .error (5, 0)
    else match vread s p.cid (pw p 5) (lArgLen p) true false false with
      | .ok d => .ok (m, d)
      | .error 0 => .error (0, 0)
      | .error e => .error (stFault, e)

/-! ## Checking and binding -/

/-- A kernel changed. -/
def setKern (k : Nat) (f : Kern → Kern) (s : State) : State :=
  s.onPump fun h => { h with kernels := FMap.put h.kernels k (f (FMap.get {} h.kernels k)) }

/-- Kernel `k`, which its LAUNCH packet names. -/
def kernOf (s : State) (k : Nat) : Kern := FMap.get {} s.pump.kernels k

/-- A kernel's end with a status: its packet is done. -/
def endKern (k : Nat) (st : KSt) (status reason : Nat) (s : State) : State :=
  doneHpkt (kernOf s k).pkt status reason (setKern k (fun y => { y with st := st, status := status }) s)

/-- The image's table presets, one after the other. -/
def presetBytes (m : List Byte) : List Byte := (iTables m).flatMap fun e => (m.drop e.2).take 1032

/-- The group table as bound: 256 entries of four words (R387). -/
def groupTable (c : Ctx) : List Byte :=
  (List.range 256).flatMap fun k =>
    match c.groups.find? fun e => e.1 == k with
    | some (_, g) => natLe 8 (g.kind + g.size * 2 ^ 32) ++ natLe 8 g.base ++ natLe 8 g.shape ++ natLe 8 g.listva
    | none => List.replicate 32 0

/-- A number of the order in which things happen at the pump house. -/
def pumpStamp (s : State) : Nat × State := (s.pump.nextId + 1, s.onPump fun h => { h with nextId := h.nextId + 1 })

/-- A digest started (R385); an empty object's is complete at once. -/
def addHash (h : Hashing) (s : State) : State :=
  let n := (h.len + 2 ^ 20 - 1) / 2 ^ 20
  let r := pumpStamp s
  let fin := if n = 0 then r.1 else 0
  r.2.onPump fun u => { u with hashes := u.hashes ++ [{ h with n := n, fin := fin }] }

/-- One object of bytes to be measured for a packet. -/
def hashOf (cid ty pkt : Nat) (d : List Byte) : Hashing :=
  { cid := cid, ty := ty, len := d.length, chunks := chunksOf1M d, pkt := pkt, batch := pkt }

/-- A checked launch goes on while its context is on its tiles: changed entries are released first (R243), and once they are gone the checks
of the groups stand or fall by what is bound then (R241); then the groups are bound, and measuring starts (R346). -/
def bindLaunch (p : HPkt) (y : Kern) (s : State) : State :=
  let ds := y.defs
  let r := releaseChanged p.cid ds s
  let e := bindReason r.1 p.cid ds
  if !present s p.cid then s
  else if !r.2 then r.1
  else if e = 255 then r.1
  else if e ≠ 0 then endKern p.id .refused 3 e r.1
  else
    let s := bindAll p.cid ds r.1
    let bound := (ds.filter fun d => d.kind != 0).map fun d => d.k
    let s := setKern p.id (fun y => { y with st := .loading, groups := bound }) s
    let h := [hashOf p.cid 1 p.id y.img, hashOf p.cid 4 p.id (presetBytes y.img), hashOf p.cid 5 p.id (groupTable (s.ctx p.cid)),
      hashOf p.cid 2 p.id y.args]
    h.foldl (fun s x => addHash x s) (setHpkt p.id (fun p => { p with effects := true }) s)

/-- A launch checked (R345); nothing changes while something it reads is not there. -/
def checkLaunch (p : HPkt) (s : State) : State :=
  match launchChecks s p with
  | .error (0, _) => s
  | .error (st, e) => endKern p.id .refused st e s
  | .ok (m, d) =>
    let ds := readLists s p.cid (iGroups m)
    match bindReason s p.cid ds with
    | 0 =>
      let id := BitVec.ofNat 64 (fld m 8 8)
      let s := setKern p.id (fun y => { y with checked := true, img := m, args := d, imgid := id, defs := ds }) s
      bindLaunch p (kernOf s p.id) s
    | 255 => s
    | e => endKern p.id .refused 3 e s

/-- A Queued kernel in Checking (R352). -/
def openKern (p : HPkt) (s : State) : State :=
  let local_ := (footprint (lBase p) (lLog p)).filter fun a => a / 2048 == s.dev
  setKern p.id (fun y => { y with scope := lScope p, early := isEarly p, st := .checking, tiles := local_ }) s

/-- Whether a kernel has ended. -/
def kernOver (y : Kern) : Bool := y.st == .complete || y.st == .refused || y.st == .aborted

/-- A LAUNCH whose LSN the queue has passed (R348): it ends as the one that bore it, or as MALFORMED. -/
def repeatLaunch (p : HPkt) (x : Queue) (s : State) : State :=
  match x.lsns.find? fun e => e.1 == pSeq p with
  | some (_, k) => if kernOver (kernOf s k) then doneHpkt p.id (kernOf s k).status 0 s else s
  | none => doneHpkt p.id stMalformed 0 s

/-- LAUNCH_PACKET (R345, R348, R352): the checks and the binding of an accepted LAUNCH; another repeats one. -/
def execLaunchPacket (n : Nat) (s : State) : Out :=
  .next (match runningPkt s n 1 with
  | some p =>
    match s.pump.kernels.find? fun e => e.1 == p.id with
    | some (_, y) =>
      if y.st == .queued then checkLaunch p (openKern p s)
      else if y.st != .checking then s else if y.checked then bindLaunch p y s else checkLaunch p s
    | none => repeatLaunch p (queueOf s p.cid p.q) s
  | none => s)

/-! ## Loading (R346) -/

/-- A tile where a kernel may act: the context's, not stopped. -/
def kernTile (t : Tile) (y : Kern) : Bool := takes t y.cid && t.life == .idle

/-- Whether a tile is quiet: no record, no running task. -/
def quiet (t : Tile) : Bool := t.task.recs.isEmpty && t.life == .idle

/-- Step 1: the code and IMGID. -/
def loadCode (y : Kern) (t : Tile) : Tile :=
  let n := iCoden y.img
  { t with
    imem := (List.range n).foldl (fun m (i : Nat) => FMap.set 0 m i (BitVec.ofNat 32 (fld y.img (iCodeOff y.img + 4 * i) 4))) t.imem
    imemBad := NSet.delAll t.imemBad (List.range n)
    overlay := NSet.delAll t.overlay (List.range ((n + 255) / 256))
    coden := n, sys := { t.sys with imgid := y.imgid } }

/-- Step 2: the allotments; the v registers and the accumulators zeroed, and with them the accumulators' errors (R179). -/
def loadAllot (y : Kern) (t : Tile) : Tile :=
  { t with sys := { t.sys with va := iVallot y.img, aa := iAallot y.img }, regs := { t.regs with v := [], q := [], acc := [] }, accBad := [] }

/-- Step 3: the windows and the tables. -/
def loadKernPresets (y : Kern) (t : Tile) : Tile :=
  let sys := { t.sys with wd := (List.range 15).foldl (fun m (i : Nat) => FMap.put m (i + 1) (BitVec.ofNat 64 (iWindow y.img (i + 1)))) t.sys.wd }
  { t with sys := (iTables y.img).foldl (fun x (e : Nat × Nat) => loadTable x (fld y.img e.2 8) fun c => fld y.img (e.2 + 8 + 4 * c) 4) sys }

/-- One task entry bound. -/
def loadTask (m : List Byte) (k : Task) (i : Nat) : Task :=
  let d := slotSet (slotSet (slotSet {} 0 (iTask m i 0)) 1 (iTask m i 1)) 2 (iTask m i 2)
  { k with slots := FMap.put k.slots (iTaskSlot m i) { d with bound := true }
           ctrs := FMap.put k.ctrs (iTaskSlot m i) { count := iTaskCount m i } }

/-- Step 4: the slots and the counters. -/
def loadTasks (y : Kern) (t : Tile) : Tile :=
  let k := { t.task with slots := t.task.slots.map fun e => (e.1, { e.2 with bound := false }), ctrs := [] }
  { t with task := (List.range (iNtask y.img)).foldl (loadTask y.img) k }

/-- A segment written; with FE the sectors it covers wholly are then Full. -/
def loadSeg (m : List Byte) (t : Tile) (e : Nat × Nat) : Tile :=
  let d := (m.drop e.2).take (segLen e.1)
  let t := t.write (segOffset e.1) d false false
  if segFe e.1 then { t with full := NSet.addAll t.full ((sectorsOf (segOffset e.1) d.length).filter (covers [(segOffset e.1, d)])) } else t

/-- Step 5: the segments in order, then the arguments. -/
def loadSegs (y : Kern) (t : Tile) : Tile :=
  let t := (iSegs y.img).foldl (loadSeg y.img) t
  t.write (iArgBase y.img) y.args false false

/-- A tile loaded (R346): step 6 clears the spill map. -/
def loadTile (k : Nat) (y : Kern) (t : Tile) : Tile :=
  { loadSegs y (loadTasks y (loadKernPresets y (loadAllot y (loadCode y t)))) with
    spill := [], kernel := some k, ktrig := false, kdone := false }

/-- Whether a kernel's events have all been appended. -/
def measured (s : State) (k : Nat) : Bool := s.pump.hashes.all fun h => h.batch != k

/-- KERNEL_TILE_LOAD (R346): a quiet tile of the footprint is loaded. -/
def execKernelTileLoad (k p : Nat) (s : State) : Out :=
  .next (let y := kernOf s k
  let a := s.placeOf p
  if y.st != .loading || !y.tiles.contains a || NSet.mem y.loaded a || !measured s k || !kernTile (s.tile p) y || !quiet (s.tile p) then s
  else setKern k (fun y => { y with loaded := NSet.add y.loaded a }) (s.onTile p (loadTile k y)))

/-! ## The kick, the triggers and the end (R347, R349, R350, R352) -/

/-- Whether every tile of a kernel is in a set. -/
def allIn (y : Kern) (m : NSet) : Bool := y.tiles.all (NSet.mem m)

/-- A kernel moved on: all loaded and kicked, all triggered, all done (R352). -/
def settleKern (k : Nat) (s : State) : State :=
  let y := kernOf s k
  let kicked := allIn y y.kicked
  let trig := allIn y y.trigArr
  if y.st == .triggered then (if allIn y y.doneArr then endKern k .complete 0 0 s else s)
  else if (y.st == .loading || y.st == .running) && kicked then
    if !trig then setKern k (fun y => { y with st := .running }) s
    else
      let s := setKern k (fun y => { y with st := .triggered }) s
      if allIn y y.doneArr then endKern k .complete 0 0 s else s
  else s

/-- The dependants of a kernel released once every tile of it has triggered, be it still loading others (R349, R352). -/
def releaseKern (k : Nat) (s : State) : State :=
  let y := kernOf s k
  if y.released || kernOver y || !allIn y y.trigArr then s
  else
    let s := setKern k (fun y => { y with released := true }) s
    match s.pump.pkts.find? fun o => o.id == y.pkt with
    | some o => if pDecva o = 0 then s else releaseEarly o.cid (pDecva o) s
    | none => s

/-- KERNEL_TILE_KICK (R347): one decrement, as by TKICK, of each START slot's counter. -/
def execKernelTileKick (k p : Nat) (s : State) : Out :=
  .next (let y := kernOf s k
  let a := s.placeOf p
  if y.st != .loading || !NSet.mem y.loaded a || NSet.mem y.kicked a || !takes (s.tile p) y.cid then s
  else
    let s := ((List.range (iNtask y.img)).filter (iTaskStart y.img)).foldl (fun s (i : Nat) => decCounter p (iTaskSlot y.img i) s) s
    settleKern k (setKern k (fun y => { y with kicked := NSet.add y.kicked a }) s))

/-- A kernel that still takes triggers and acknowledgements (R351). -/
def kernLive (y : Kern) : Bool := y.st == .loading || y.st == .running || y.st == .triggered

/-- The port that stops what a kernel's tile, by its logical place, sends to the loader (R17). -/
def loaderStop (s : State) (k a : Nat) : Option Nat := noticeStop s (kernOf s k).cid (physPlace s (kernOf s k).cid a) 1

/-- KERNEL_TRIGGER_ARRIVAL (R349, R17): a tile's trigger reaches the pump house, unless a port on its way discards it. -/
def execKernelTriggerArrival (k p : Nat) (s : State) : Out :=
  .next (if kernLive (kernOf s k) && NSet.mem (kernOf s k).trig p then
    match loaderStop s k p with
    | some q => isolateAt q (kernOf s k).cid p (setKern k (fun y => { y with trig := NSet.del y.trig p }) s)
    | none => settleKern k (releaseKern k (setKern k (fun y => { y with trigArr := NSet.add y.trigArr p }) s))
  else s)

/-- KDONE_ACK_ARRIVAL (R350, R17): a done acknowledgement reaches the pump house, unless a port on its way discards it. -/
def execKdoneAckArrival (k p : Nat) (s : State) : Out :=
  .next (if kernLive (kernOf s k) && NSet.mem (kernOf s k).done p then
    match loaderStop s k p with
    | some q => isolateAt q (kernOf s k).cid p (setKern k (fun y => { y with done := NSet.del y.done p }) s)
    | none => settleKern k (setKern k (fun y => { y with doneArr := NSet.add y.doneArr p }) s)
  else s)

/-! ## KTRIG and KDONE (R353) -/

/-- The trigger marked, and its fence at DEVICE scope. -/
def triggerTile (p : Nat) (s : State) : State :=
  if (s.tile p).kernel.isNone || (s.tile p).ktrig then s else addFence p 1 1 (s.onTile p fun t => { t with ktrig := true })

/-- KTRIG. -/
def execKtrig (x : R) (s : State) : Out :=
  .next (guarded x.g x.n (fun s => (triggerTile s.cur s).onT expose) s)

/-- KDONE: the acknowledgement follows a fence at the launch's release scope. -/
def execKdone (x : R) (s : State) : Out :=
  .next (guarded x.g x.n (fun s =>
    let s := match s.t.kernel with
      | some k => if s.t.kdone then s else
          addFence s.cur (kernOf s k).scope 2 (triggerTile s.cur (s.onT fun t => { t with kdone := true }))
      | none => s
    s.onT expose) s)

/-! ## The end of a fence (R285) -/

/-- Whether a packet's home lies inside a scope; one not translated yet may lie anywhere. -/
def homeIn (s : State) (scope : Nat) (m : Pkt) : Bool :=
  match m.st, m.loc with
  | .routed, .hbm k => decide (2 ≤ scope) || k / 2 ^ 40 == s.dev
  | .routed, _ => decide (3 ≤ scope)
  | .fenced, _ => true
  | _, _ => true

/-- Whether everything that a fence waits for has happened. -/
def fenceMet (s : State) (p : Nat) (f : Fence) : Bool :=
  let t := s.tile p
  decide (f.mx ≤ t.mx.done)
    && !(t.mreq.reqs.any fun e => decide (e.2.seq < f.seq) && isRead e.2.kind && e.2.left != 0)
    && (f.scope == 0 || !(s.fab.pkts.any fun m => m.place == s.placeOf p && m.cid == t.sys.cid && decide (m.seq < f.seq)
          && unperformed m && homeIn s f.scope m))

/-- FENCE_COMPLETE (R285): the first fence whose events have reached its scope ends; a trigger or an acknowledgement leaves (R353), and the releases
that it held take place. -/
def execFenceComplete (p : Nat) (s : State) : Out :=
  .next (let t := s.tile p
  if !sends t then s
  else match findIdx (fenceMet s p) t.mreq.fences 0 with
  | none => s
  | some (i, f) =>
    let s := settle p (s.setTile p { t with mreq := { t.mreq with fences := dropAt t.mreq.fences i } })
    let a := s.placeOf p
    if f.act = 1 then setKern f.kern (fun y => { y with trig := NSet.add y.trig a }) s
    else if f.act = 2 then setKern f.kern (fun y => { y with done := NSet.add y.done a }) s
    else s)

/-! ## Abort (R351) -/

/-- The kernels of a context aborted; their packets fail by R376. -/
def abortKernels (cid : Nat) (s : State) : State :=
  let live := s.pump.kernels.filter fun e => e.2.cid == cid && !kernOver e.2
  let s := live.foldl (fun s e => setKern e.1 (fun y => { y with st := .aborted, status := stAborted }) s) s
  s.onPump fun h => { h with hashes := h.hashes.filter fun x => !(live.any fun e => e.1 == x.batch) }

end Sys2Proof.Machine
end

