-- ==== Sys2Proof/Machine/Measure.lean ====
section
/-!
DEFINITION. Sys2Proof/Machine/Measure.lean: measurement, receipts and cistern decode tables (R288, R384 to R389).
-/

namespace Sys2Proof.Machine

/-! ## Digests (R385) -/

/-- A hash at a position changed. -/
def setHash (j : Nat) (h : Hashing) (s : State) : State := s.onPump fun u => { u with hashes := setAt u.hashes j h }

/-- Whether an object is given by its bytes, not as a range of memory. -/
def hasChunks (h : Hashing) : Bool := h.va == 0 && !h.chunks.isEmpty

/-- Bytes with some of them replaced from a place on. -/
def splice (d : List Byte) (o : Nat) (e : List Byte) : List Byte := d.take o ++ e ++ d.drop (o + e.length)

/-- The bytes of leaf `i`, or the reason why they cannot be read; the sectors that have been read early are as they were then (R385). -/
def leafBytes (s : State) (h : Hashing) (i : Nat) : Except Nat (List Byte) :=
  if hasChunks h then .ok (h.chunks.getD i [])
  else (vread s h.cid (h.va + i * 2 ^ 20) (Nat.min (2 ^ 20) (h.len - i * 2 ^ 20)) true false false).map fun d =>
    (h.early.filter fun e => e.1 / 2 ^ 20 == i).foldl (fun d e => splice d (e.1 % 2 ^ 20) e.2) d

/-- The `k`th sector of leaf `i` read before the others: each sector's read is an event of its own (R385). -/
def readAhead (j i k : Nat) (s : State) : State :=
  match elemAt s.pump.hashes j with
  | none => s
  | some h =>
    let first := h.va + i * 2 ^ 20
    let lo := Nat.max first (32 * (first / 32 + k))
    let hi := Nat.min (Nat.min (32 * (first / 32 + k + 1)) (first + 2 ^ 20)) (h.va + h.len)
    if hasChunks h || decide (h.n ≤ i) || decide (hi ≤ lo) || h.leaves.any (fun e => e.1 == i) || h.early.any (fun e => e.1 == lo - h.va) then s
    else match vread s h.cid lo (hi - lo) true false false with
    | .ok d => setHash j { h with early := FMap.put h.early (lo - h.va) d } s
    | .error _ => s

/-- The hashes of a packet given up. -/
def dropHashes (pkt : Nat) (s : State) : State := s.onPump fun u => { u with hashes := u.hashes.filter fun h => h.batch != pkt }

/-- LEAF_HASH_DONE (R385): one leaf of an object; bytes that cannot be read fail the packet (R362). -/
def execLeafHashDone (j i : Nat) (s : State) : Out :=
  .next (match elemAt s.pump.hashes j with
  | some h =>
    if h.n ≤ i ∨ h.leaves.any (fun e => e.1 == i) then s
    else match leafBytes s h i with
    | .error 0 => s
    | .error e => doneHpkt h.pkt stFault e (dropHashes h.batch s)
    | .ok d =>
      let h := { h with leaves := FMap.put h.leaves i (leafHash d) }
      if h.leaves.length < h.n then setHash j h s
      else
        let r := pumpStamp s
        setHash j { h with fin := r.1 } r.2
  | none => s)

/-- The digest of a complete hash. -/
def hashDigest (h : Hashing) : List Byte := rootHash (h.leaves.map fun e => e.2) h.len

/-- One event appended to a context's chain (R387). -/
def appendEvent (h : Hashing) (s : State) : State :=
  s.onCtx h.cid fun c =>
    let n := (c.events + 1) % 2 ^ 64
    { c with events := n, m := sha3 (c.m ++ natLe 4 h.ty ++ natLe 8 n ++ natLe 8 h.len ++ hashDigest h) }

/-- The place of a packet's last digest in the order of completion, where all are complete. -/
def batchFin (s : State) (b : Nat) : Option Nat :=
  let l := s.pump.hashes.filter fun h => h.batch == b
  if l.any fun h => h.fin == 0 then none else some (maxNat (l.map fun h => h.fin))

/-- Whether an event of another packet of the context became complete earlier (R387). -/
def earlierEvent (s : State) (cid b f : Nat) : Bool :=
  s.pump.hashes.any fun o => o.cid == cid && o.batch != b && (match batchFin s o.batch with | some g => decide (g < f) | none => false)

/-- What follows an appended event for its packet: a MEASURE and a CDTLOAD complete. -/
def eventDone (pkt : Nat) (s : State) : State :=
  match s.pump.pkts.find? fun p => p.id == pkt with
  | some p => if pType p = 1 then s else doneHpkt pkt 0 0 s
  | none => s

/-- MEASUREMENT_APPEND (R387): the events of a packet, those of a LAUNCH together and in their order. -/
def execMeasurementAppend (j : Nat) (s : State) : Out :=
  .next (match elemAt s.pump.hashes j with
  | some h =>
    match batchFin s h.batch with
    | none => s
    | some f =>
      if earlierEvent s h.cid h.batch f then s
      else
        let l := s.pump.hashes.filter fun o => o.batch == h.batch
        eventDone h.pkt (dropHashes h.batch (l.foldl (fun s o => appendEvent o s) s))
  | none => s)

/-- MEASURE_PACKET (R359, R387): the digest of its range is started. -/
def execMeasurePacket (n : Nat) (s : State) : Out :=
  .next (match runningPkt s n 6 with
  | some p =>
    if s.pump.hashes.any fun h => h.batch == p.id then s
    else addHash { cid := p.cid, ty := pw p 6, len := pw p 5, va := pw p 4, pkt := p.id, batch := p.id } s
  | none => s)

/-! ## Receipts (R388, R389) -/

/-- The FLAGS of a receipt. -/
def receiptFlags (c : Ctx) : Nat := b2n c.overlayOk + 2 * b2n c.attachedEver + 4 * b2n c.restoredEver + 8 * b2n c.restarted

/-- The body of a receipt: 256 bytes. -/
def receiptBody (s : State) (p : HPkt) (nonce : List Byte) : List Byte :=
  let c := s.ctx p.cid
  [0x46, 0x52, 0x43, 0x54] ++ natLe 2 1 ++ natLe 2 p.cid ++ natLe 2 p.q ++ natLe 2 (receiptFlags c) ++ natLe 4 (pSeq p) ++ fitBytes 32 nonce
    ++ fitBytes 48 c.m ++ natLe 8 c.events ++ fitBytes 48 s.svc.fwm ++ fitBytes 48 s.svc.did ++ natLe 8 s.gtime ++ List.replicate 48 0

/-- A receipt whole: the body and its two signatures; the ML-DSA signature is hedged, so each is one of its own. -/
def receipt (s : State) (p : HPkt) (nonce : List Byte) : List Byte :=
  let b := receiptBody s p nonce
  b ++ fitBytes 64 (Config.ed25519 b) ++ fitBytes 3309 (Config.mldsa s.free b)

/-- RECEIPT_PACKET (R388): nothing is written where the destination cannot be. -/
def execReceiptPacket (n : Nat) (s : State) : Out :=
  .next (match runningPkt s n 7 with
  | some p =>
    match vread s p.cid (pw p 4) 32 true false false with
    | .error e => endWith p.id s (.error e)
    | .ok nonce => endWith p.id s (vwrite p.cid (pw p 5) (receipt s p nonce) false true false s.takeFree.2)
  | none => s)

/-! ## Cistern decode tables (R288) -/

/-- A context's table written into its context block. -/
def putCdt (cid t : Nat) (d : List Byte) (s : State) : State := (plainWrite cid (cdtVa (s.ctx cid) t) d s).getD s

/-- The copies of a table in the cisterns dropped. -/
def dropCdt (cid t : Nat) (s : State) : State :=
  s.onFab fun f => { f with cdtc := f.cdtc.map fun e => (e.1, e.2.filter fun x => !(x.1 == cid && x.2.1 == t)) }

/-- CDTLOAD_PACKET (R288, R359): the table is replaced, its copies dropped, and a TABLES event started. -/
def execCdtloadPacket (n : Nat) (s : State) : Out :=
  .next (match runningPkt s n 12 with
  | some p =>
    if s.pump.hashes.any fun h => h.batch == p.id then s
    else match vread s p.cid (pw p 4) 1032 true false false with
    | .error e => endWith p.id s (.error e)
    | .ok d =>
      let w := leNat (d.take 8)
      if w % 4 ≠ 0 ∨ tloadBad w then doneHpkt p.id stMalformed 0 s
      else
        let s := dropCdt p.cid (pw p 5) (putCdt p.cid (pw p 5) d s)
        addHash (hashOf p.cid 4 p.id d) (setHpkt p.id (fun p => { p with effects := true }) s)
  | none => s)

end Sys2Proof.Machine
end

