-- ==== Sys2Proof/Machine/Context.lean ====
section
/-!
DEFINITION. Sys2Proof/Machine/Context.lean: contexts (R371 to R383): partitions, faults, save, eviction, restore and destruction.
-/

namespace Sys2Proof.Machine

/-! ## Power (R33, R34) -/

/-- `n` free words (log 5). -/
def freeWords (k n : Nat) : FMap W32 :=
  (List.range n).foldl (fun m (i : Nat) =>
    FMap.set 0 m i (BitVec.ofNat 32 (leNat ((List.range 4).map fun (j : Nat) => Config.byte (k + 4 * i + j))))) []

/-- `n` free bytes (log 5). -/
def freeBytes (k n : Nat) : Mem := Mem.setBytes [] 0 ((List.range n).map fun (i : Nat) => Config.byte (k + i))

/-- A record put in a cluster's trace buffer for what a forced gate discarded (R34). -/
def lostTrace (p : Nat) (s : State) : State :=
  let lost := FMap.get 0 s.fab.traceLost (p / 16)
  if lost = 0 then s
  else
    let r := traceRec (s.placeOf p) 1 0 lost 0 0 s.gtime 0 0 none ++ [(s.tile p).sys.cid]
    s.onFab fun f => { f with trace := FMap.put f.trace (p / 16) (FMap.get [] f.trace (p / 16) ++ [r]), traceLost := FMap.put f.traceLost (p / 16) 0 }

/-- A tile ungated (R33): the contents of SRAM and IMEM are undefined. -/
def ungateTile (p : Nat) (s : State) : State :=
  if (s.tile p).life != .off then s
  else
    let k := s.free
    let s := s.setTile p { life := .reset, imem := freeWords k 0x8000, sram := freeBytes (k + 0x20000) (2 ^ 21), cyc0 := s.clk }
    lostTrace p { s with free := k + 0x20000 + 2 ^ 21 }

/-! ## Partitions (R16, R13) -/

/-- The log of the clusters that a SHAPE spans (R16, R423), where it is one of the kinds. -/
def shapeLog (sh : Nat) : Option Nat :=
  let c := bits sh 7 4
  match bits sh 3 0 with
  | 0 => if c ≤ 3 then some c else none
  | 1 => if c ≤ 2 then some (3 + c) else none
  | 2 => if c ≤ 2 then some (5 + c) else none
  | 3 => if c ≤ 10 then some (7 + c) else none
  | _ => none

/-- Whether a compute cluster belongs to no partition (R16). -/
def clusterFree (s : State) (cl : Nat) : Bool := (List.range 16).all fun i => (s.tile (16 * cl + i)).place.isNone

/-- The contexts but `cid` that hold a block of physical tiles that meets another (R16). -/
def sitesMeet (s : State) (cid base n : Nat) : List Nat :=
  (s.ctxs.filter fun e => e.1 != cid && (match e.2.site with | some (b, m) => rangesMeet b m base n | none => false)).map (·.1)

/-- A physical tile that stands for a disabled one of a partition (R13): for one of a healthy cluster a spare service tile of the same die; for one of a
disabled cluster the tile of the same number in a healthy cluster of the die that belongs to no other partition (R16) and takes its place; `own` are
the partition's own tiles and `l` those assigned so far (log 86). -/
def standIn (s : State) (p : Nat) (own l : List Nat) : Option Nat :=
  let fits (q : Nat) : Bool := tileFree s q && !l.contains q
  let others := ((List.range 32).map fun c => p / 512 * 512 + 16 * c + p % 16).filter fun q =>
    clusterFree s (q / 16) && (sitesMeet s 0 (q / 16 * 16) 16).isEmpty && !(own.any fun o => o / 16 == q / 16)
  (if clusterOk s p then (List.range 16).map (serviceTile (tileDie p)) else others).find? fits

/-- The physical tiles for the places of a partition based at a physical place: each the tile there, or one that stands for a disabled one. -/
def assign (s : State) (base n : Nat) : Option (List Nat) :=
  let own := (List.range n).map (base % 2048 + ·)
  own.foldl (fun (o : Option (List Nat)) p =>
    match o with
    | none => none
    | some l =>
      if tileFree s p then some (l ++ [p])
      else if clusterOk s p && (s.tile p).life != .faulted then none
      else (standIn s p own l).map fun q => l ++ [q]) (some [])

/-- The ports of a place's way up to the switch of a level (R17). -/
def placePorts (s : State) (lv place : Nat) : List Nat := wayUp s.svc.bw s.svc.rw lv place

/-- A CID marked in, or cleared from, the bitmaps of some ports (R17, R18). -/
def setMember (cid : Nat) (v : Bool) (ports : List Nat) (s : State) : State :=
  s.onFab fun f => { f with member := ports.foldl (fun m q => FMap.set false m (q * 4096 + cid) v) f.member }

/-- The UE ports of the device. -/
def uePorts (s : State) : List Nat := (List.range 8).map fun q => portOfPlace (uePlace s.dev q)

/-- The ports of the device's own endpoints, its die roots and its service clusters, which every context that holds pages, ranks or
schedules may use: stations, cisterns, Welim ports, the PCI Express endpoint, the collective engines and the pump house's tiles, and
the UE ports where the context has a UE identity (R17, R406; log 87). -/
def edgePorts (s : State) (cid : Nat) : List Nat :=
  let d := s.dev
  let up (lv place : Nat) : Nat := portOfSwitch (switchAt s.svc.bw s.svc.rw lv place)
  let stackIds := List.range 12
  let ends := stackIds.map (stationPlace d) ++ (stackIds.flatMap fun st => (List.range 16).map (cisternPlace d st)) ++ (List.range 8).map (welimPlace d)
    ++ [pciePlace d] ++ (List.range 4).map (enginePlace d)
    ++ (s.svc.roles.flatMap fun e => [svcPlace d (e.1 / 16) (e.1 % 16), svcPlace d (e.2 / 16) (e.2 % 16)])
  ends.map portOfPlace ++ ((List.range 4).flatMap fun die => [up 0 (svcPlace d die 0), up 2 (svcPlace d die 0)]) ++ [up 3 (svcPlace d 0 0)]
    ++ (if (s.ctx cid).job = 0 then [] else uePorts s)

/-- The ports that a context needs on given tiles: those of its logical and of its physical places up to the die root, through which its
tiles reach each other, the stations and the cisterns, and those of the edge (R13, R17). -/
def memberPorts (s : State) (cid : Nat) (l : List (Nat × Nat)) : List Nat :=
  (l.flatMap fun e => placePorts s 3 e.1 ++ placePorts s 3 (tilePlace s.dev e.2)).eraseDups ++ edgePorts s cid

/-- A partition taken: the remap table, and the bitmaps, in which the context's old marks are cleared (R13, R17). -/
def takePartition (cid : Nat) (l : List (Nat × Nat)) (s : State) : State :=
  let s := s.onFab fun f => { f with
    member := f.member.filter fun e => e.1 % 4096 != cid
    remap := l.foldl (fun m e => FMap.put m (cid * 2 ^ 32 + e.1) e.2) (f.remap.filter fun e => e.1 / 2 ^ 32 != cid) }
  setMember cid true (memberPorts s cid l) s

/-- The local tile places of a context, ascending. -/
def localPlaces (s : State) (cid : Nat) : List Nat := (s.ctx cid).tiles.filter fun a => a / 2048 == s.dev

/-- A tile as R35 leaves it at a cycle, from which CYCLE counts; IMEM, its overlay map and its state of errors stay (log 57). -/
def resetTile (clk : Nat) (t : Tile) : Tile :=
  { life := .idle, imem := t.imem, imemBad := t.imemBad, overlay := t.overlay, cyc0 := clk }

/-- A tile given to a context: reset, with the presets and the context's limits (R35, R107, R215, R375). -/
def grantTile (cid place : Nat) (c : Ctx) (clk : Nat) (t : Tile) : Tile :=
  let t := resetTile clk t
  { t with place := some place, resident := true, sys := { loadPresets t.sys with cid := cid, fw := decide (0xF00 ≤ cid) }
           task := { t.task with maxbudget := c.maxbudget, restartmax := c.restartmax } }

/-- Whether the contexts that hold partitions are as many as a device holds (R16). -/
def fullHouse (s : State) : Bool :=
  decide (64 ≤ (s.ctxs.filter fun e => e.2.st == .residentIdle || e.2.st == .residentRunning || e.2.st == .preempting || e.2.st == .restoring).length)

/-- Whether a SHAPE's block of devices lies under one board or rack switch (R16, R14). -/
def shapeFits (s : State) (sh : Nat) : Bool := bits sh 3 0 != 3 || decide (bits sh 7 4 ≤ s.svc.rw)

/-- A save asked for (R377). -/
def requestSave (cid : Nat) (s : State) : State :=
  let c := s.ctx cid
  if c.st == .residentIdle || c.st == .residentRunning then
    let s := s.onCtx cid fun c => { c with st := .preempting, captured := [], channelDrained := false, schedTrap := false, trapTaken := false }
    (tilesOf s cid).foldl (fun s p => s.onTile p fun t => { t with pend := { t.pend with save := true } }) s
  else s

/-- What stands in the way of a partition asked for (R377, R379): contexts on its tiles are saved, held tiles are claimed. -/
def makeRoom (s : State) (cid : Nat) : State :=
  if (s.ctx cid).st == .savedHeld then s.onCtx cid fun c => { c with claimed := true } else requestSave cid s

/-- PARTITION_GRANT (R375, R377, R379, R425): a Created context gets the partition based at a place; clusters that are Off are ungated first, and
its tiles are reset. Where other contexts hold it, the switcher makes room, and the grant comes later. -/
def execPartitionGrant (c base : Nat) (s : State) : Out :=
  .next (let x := s.ctx c
  match shapeLog x.shape with
  | none => s
  | some lg =>
    let n := 16 * 2 ^ lg
    if x.st != .created || base % n != 0 || fullHouse s || !shapeFits s x.shape then s
    else
      let places := (List.range n).map (base + ·)
      let here := places.filter fun a => a / 2048 == s.dev
      let first := here.headD 0 % 2048
      let others := sitesMeet s c first here.length
      if !others.isEmpty then others.foldl makeRoom s
      else match assign s first here.length with
      | none => s
      | some ps =>
        let s := ps.foldl (fun s p => ungateTile p s) s
        let s := s.onCtx c fun y => { y with st := .residentIdle, base := base, tiles := places, sliceStart := s.now, site := some (first, here.length) }
        let s := takePartition c (here.zip ps) s
        (here.zip ps).foldl (fun s e => s.onTile e.2 (grantTile c e.1 x s.clk)) s)

/-- Whether a tile has a task, a record that waits, or work of its engines (R375). -/
def tileBusy (t : Tile) : Bool :=
  t.life == .running || !t.task.recs.isEmpty || !t.mx.queue.isEmpty || !t.mreq.reqs.isEmpty || !t.net.sends.isEmpty
    || t.comm.colls.any fun e => e.2.st == .contributing || e.2.st == .combining || e.2.st == .delivering

/-- The state of a context as its record shows it: a resident one runs while a task, an engine or a packet of it does (R375). -/
def ctxStateOf (s : State) (cid : Nat) : CtxSt :=
  let x := s.ctx cid
  if x.st == .residentIdle || x.st == .residentRunning then
    (if (tilesOf s cid).any (fun p => tileBusy (s.tile p)) || s.pump.pkts.any (fun p => p.cid == cid) || s.fab.scheds.any (fun e => e.2.cid == cid)
      then .residentRunning else .residentIdle)
  else x.st

/-! ## Faults (R376, R259, R337, R351) -/

/-- The physical tiles that hold a context, resident or saved. -/
def holders (s : State) (cid : Nat) : List Nat :=
  (s.tiles.filter fun e => e.2.place.isSome && e.2.sys.cid == cid).map fun e => e.1

/-- Step 1 on one tile: dispatch stopped, every record freed; a running task goes at once, or after the atomic it waits for. -/
def haltTile (s : State) (p : Nat) : State :=
  let t := s.tile p
  let keep := if t.life == .running then t.task.recs.filter fun e => e.2.run else []
  let saving := t.life == .saving || t.life == .restoring
  let s := s.setTile p { t with pend := { t.pend with halt := true, save := false, join := [] }, task := { t.task with recs := keep },
                                life := if saving then .idle else t.life }
  if t.dbg.suspended then
    s.onTile p fun t =>
      let t := discardHeld t
      { t with task := { t.task with recs := [] }, dbg := { t.dbg with suspended := false, stepping := false, stepN := 0 } }
  else if t.life != .running then s
  else if pinned t then raiseAsync p {} (s.onTile p fun t => { t with async := [] })
  else abandon p s

/-- The releases of a context's barriers that are still on their way reach their records, in the order in which they were issued, ahead of the
release with CONTEXT-ABORT (R253, R259). -/
def landReleases (cid : Nat) (s : State) : State :=
  let mine (m : Msg) : Bool := m.kind == .release && m.cid == cid
  (s.fab.net.filter mine).foldl (fun s m =>
    let p := s.physOf cid m.dst
    match memberOf (s.tile p) m.grp with
    | some (slot, _) => if (s.tile p).place.isSome && (s.tile p).sys.cid == cid then acceptRelease p (barKey slot m.num) m.status s else s
    | none => s) (s.onFab fun f => { f with net := f.net.filter fun m => !mine m })

/-- Step 2 on one tile: every barrier record gets a release with CONTEXT-ABORT, every collective record that is not Idle ends with RESULT 2
and is free (R337); an identifier that is Aborted without a collective of the tile's own has no status word. -/
def abortComm (s : State) (p : Nat) : State :=
  let bars := (s.tile p).comm.slots.flatMap fun e => (List.range e.2.desc.nb).map fun b => barKey e.1 b
  let s := bars.foldl (fun s k => releaseRec p k 2 s) s
  let colls := ((s.tile p).comm.colls.filter fun e => e.2.st != .idle).map fun e => e.1
  colls.foldl (fun s k =>
    let r := collRec (s.tile p) k
    if r.st == .aborted && r.count == 0 && r.form != 3 then s.onTile p (setColl k fun _ => {})
    else endColl p k 2 (s.onTile p (dropContrib k))) s

/-- The combine entries of a context freed. -/
def freeAllComb (cid : Nat) (s : State) : State :=
  s.onFab fun f => { f with
    comb := f.comb.filter fun e => e.1 / 2 ^ 36 / 32 / 256 != cid
    ccomb := f.ccomb.filter fun e => e.1 / 2 ^ 36 / 64 / 256 != cid
    scheds := f.scheds.filter fun e => e.2.cid != cid }

/-- What a save has copied of them gone too. -/
def dropSaved (cid : Nat) (s : State) : State := s.onCtx cid fun c => { c with comb := [], ccomb := [], scheds := [] }

/-- Step 3 for one packet: it fails with ABORTED, once its signal can be reached (R362). -/
def abortHpkt (s : State) (p : HPkt) : State :=
  let s := if p.st == .depParked then unpark p s else if p.st == .waiting then leaveList p s else s
  let s := dropHashes p.id s
  (failHpkt p stAborted 0 s).getD (doneHpkt p.id stAborted 0 s)

/-- Step 3: every queue in Error, every incomplete packet failed. -/
def abortQueues (cid : Nat) (s : State) : State :=
  let s := (s.ctx cid).queues.foldl (fun s e => abortQueue cid e.1 s) s
  (s.pump.pkts.filter fun p => p.cid == cid).foldl abortHpkt s

/-- Whether a context may still fault (R375). -/
def mayFault (st : CtxSt) : Bool := st != .free && st != .faulted && st != .destroyed

/-- TAKING A CONTEXT FAULT (R376), its four steps in their order. -/
def faultCtx (cid : Nat) (s : State) : State :=
  if !mayFault (s.ctx cid).st then s
  else
    let s := s.onCtx cid fun c => { c with st := .faulted, captured := [], channelDrained := false }
    let s := (holders s cid).foldl haltTile s
    let s := dropSaved cid (freeAllComb cid ((holders s cid).foldl abortComm (landReleases cid (abortKernels cid s))))
    let s := abortQueues cid s
    ringAdd cid 5 [(s.ctx cid).lostParked] s

/-- CONTEXT_FAULT (R376). -/
def execContextFault (c : Nat) (s : State) : Out := .next (faultCtx c s)

/-! ## Destruction (R375, R380) -/

/-- A tile taken from its context. -/
def freeTile (clk : Nat) (t : Tile) : Tile :=
  { resetTile clk t with life := if t.life == .off || t.life == .faulted then t.life else .idle }

/-- A context's traces at the stations, the cisterns and the switches dropped (R380), with the packets of it that the stations hold. -/
def dropCid (cid : Nat) (s : State) : State :=
  s.onFab fun f => dropRows (fun b => b.cid == cid) (dropRanks (fun c _ => c == cid) { f with
    member := f.member.filter fun e => e.1 % 4096 != cid
    tlb := f.tlb.map fun e => (e.1, e.2.filter fun x => x.cid != cid)
    cdtc := f.cdtc.map fun e => (e.1, e.2.filter fun x => x.1 != cid)
    pkts := f.pkts.filter fun m => !(m.cid == cid && (m.st == .atStation || m.st == .walking || m.st == .parked || m.st == .frozen))
    notices := f.notices.filter fun e => e.1 != cid
    remap := f.remap.filter fun e => e.1 / 2 ^ 32 != cid })

/-- Every page of a context unpinned: PINNED goes from its entries (R243, R293). -/
def unpinAll (cid : Nat) (s : State) : State :=
  ((s.ctx cid).pins.map (·.1)).eraseDups.foldl (fun s va => editLeaf cid va (putBit 34 false) s) (s.onCtx cid fun c => { c with pins := [] })

/-- A context destroyed: faulted first, its queues Free, its tiles free, its pages unpinned, its CID dropped (R375, R380, R406). -/
def destroyCtx (cid : Nat) (s : State) : State :=
  if (s.ctx cid).st == .free || (s.ctx cid).st == .destroyed then s
  else
    let s := faultCtx cid s
    let s := (holders s cid).foldl (fun s p => s.onTile p (freeTile s.clk)) s
    let s := dropCid cid (unpinAll cid { s with pump := { s.pump with pkts := s.pump.pkts.filter fun p => p.cid != cid } })
    let s := { s with svc := { s.svc with jobs := s.svc.jobs.filter fun e => e.2 != cid } }
    s.onCtx cid fun c => { c with st := .destroyed, queues := [], groups := [], gst := [], parked := [], inbox := [],
                                  saved := [], changes := [], migs := [], site := none, claimed := false }

/-- CID_DROP_COMPLETE (R375, R380): what is left in flight is discarded, what the firmware gave the context from function 0's reserve, its page
tables but the root and the units of its overflow store, returns there, and the context is Free. -/
def execCidDropComplete (c : Nat) (s : State) : Out :=
  .next (if (s.ctx c).st != .destroyed then s
  else
    let s := s.onFab fun f => { f with net := f.net.filter fun m => m.cid != c, pkts := f.pkts.filter fun m => m.cid != c }
    let s := s.onPump fun h => { h with
      kernels := h.kernels.filter fun e => e.2.cid != c, pkts := h.pkts.filter fun p => p.cid != c, unparks := h.unparks.filter fun e => e.1 != c
      signals := h.signals.filter fun e => e.1 / 2 ^ 56 != c, hashes := h.hashes.filter fun x => x.cid != c }
    { s with
      svc := { s.svc with reserve := s.svc.reserve ++ (tablesFrom s levels (s.ctx c).root).drop 1, units := s.svc.units + ((s.ctx c).overflowUnits - 1) }
      ctxs := FMap.drop s.ctxs c })

/-- The contexts that a function owns. -/
def ownedBy (s : State) (f : Nat) : List Nat := (s.ctxs.filter fun e => e.2.func == f && e.2.st != .free).map fun e => e.1

/-- FUNCTION_LEVEL_RESET (R373): every context of a virtual function faults and is destroyed; its mailbox, aperture map and MSI-X
vectors are as after reset. -/
def execFunctionLevelReset (f : Nat) (s : State) : Out :=
  .next (if f = 0 ∨ 64 ≤ f then s
  else
    let s := (ownedBy s f).foldl (fun s c => destroyCtx c s) s
    { s with svc := { s.svc with
        mailboxes := FMap.drop s.svc.mailboxes f
        apertures := s.svc.apertures.filter fun e => e.1 / 64 != f
        msixPending := s.svc.msixPending.filter fun e => e.1 / 256 != f
        msixMask := s.svc.msixMask.filter fun e => e.1 / 256 != f
        msixTable := s.svc.msixTable.filter fun e => e.1 / 512 != f } })

/-! ## The tile blocks (R378) -/

/-- The VA of a local tile's block: the tiles stand in ascending place order within the partition. -/
def tileBlock (s : State) (cid place : Nat) : Nat :=
  let c := s.ctx cid
  c.saveva + 0x100000 + 0x260000 * ((c.tiles.filter fun a => decide (a < place)).length)

/-- The offsets of the control image that a capture writes: all but the v registers and the two bitmaps. -/
def imageOffsets : List Nat :=
  ((List.range 0x6000).map (8 * ·)).filter fun o => ctlMapped o && !(decide (0x10000 ≤ o) && decide (o < 0x14000))

/-- The offsets of the two bitmaps (R26). -/
def bitmapOffsets : List Nat := (List.range 0x800).map fun i => 0x10000 + 8 * i

/-- The place in device memory of a VA of a context, where it has one. -/
def vaKey (s : State) (cid va : Nat) : Option Nat :=
  match walk s cid va with
  | .leaf sh w0 w1 _ => if eStack w0 < 12 then some (hbmKey (eHome w0) (eStack w0) (eFrame w1 * 65536 + va % 2 ^ sh)) else none
  | _ => none

/-- Whether a sector of device memory at a VA is poisoned. -/
def vaPoison (s : State) (cid va : Nat) : Bool := match vaKey s cid va with | some k => NSet.mem s.fab.hpoison (k / 32) | none => false

/-- A sector of device memory at a VA marked poisoned. -/
def markPoison (cid : Nat) (s : State) (va : Nat) : State :=
  match vaKey s cid va with
  | some k => s.onFab fun f => { f with hpoison := NSet.add f.hpoison (k / 32) }
  | none => s

/-- Words of a tile's control image written into its block, with the errors of its accumulators as poison (R179); accumulators that are not
allotted are not saved (R182). -/
def putImage (cid blk : Nat) (t : Tile) (os : List Nat) (s : State) : State :=
  let os := os.filter fun o => !(decide (0x20000 + 4096 * t.sys.aa ≤ o) && decide (o < 0x30000))
  let s := os.foldl (fun s o => plainPut cid (blk + 0x200000 + o) 8 (ctlRead t o) s) s
  (os.filter (ctlPoison t)).foldl (fun s o => markPoison cid s (blk + 0x200000 + o)) s

/-- Words of a control image read back, where they differ from what the tile holds. -/
def getImage (s : State) (cid blk : Nat) (os : List Nat) (t : Tile) : Tile :=
  os.foldl (fun t o =>
    match plainNum s cid (blk + 0x200000 + o) 8 with
    | some v => if v = ctlRead t o then t else ctlLoad t o v
    | none => t) t

/-- The state record's 32 KiB, whose layout the manual does not give: free bytes (log 5). -/
def putRecord (cid blk : Nat) (s : State) : State :=
  let d := (List.range 0x8000).map fun (i : Nat) => Config.byte (s.free + i)
  (plainWrite cid (blk + 0x238000) d { s with free := s.free + 0x8000 }).getD s

/-! ## Save (R377 to R379, R182, R210, R229, R260, R342) -/

/-- Whether a CHECKPOINT that has begun holds a context (R427). -/
def checkpointed (s : State) (cid : Nat) : Bool :=
  s.pump.pkts.any fun p => pType p == 11 && p.st == .running && p.aux != 0 && (bits (pw p 4) 11 0 == cid || bits (pw p 4) 11 0 == 0xFFF)

/-- TIME_SLICE_EXPIRY (R377). -/
def execTimeSliceExpiry (c : Nat) (s : State) : Out :=
  .next (let x := s.ctx c
  if x.slice ≠ 0 ∧ x.sliceStart + 1000 * x.slice ≤ s.now then requestSave c s else s)

/-- SAVE_TASK_BOUNDARY (R377 steps 1 and 2): an Idle tile takes the request; with its matrix queue empty and its jobs
counted it is cut from the network. -/
def execSaveTaskBoundary (p : Nat) (s : State) : Out :=
  .next (let t := s.tile p
  if t.life == .idle && t.pend.save then
    s.setTile p { t with life := .saving, pend := { t.pend with save := false }, resident := !(t.mx.queue.isEmpty && t.mx.closed.isEmpty) }
  else if t.life == .saving && t.mx.queue.isEmpty && t.mx.closed.isEmpty then s.setTile p { t with resident := false }
  else s)

/-- Whether a tile of a context in Pre-empting has been cut. -/
def isCut (t : Tile) : Bool := t.life == .saving && !t.resident

/-- Whether a message is a chunk of a schedule that its receiving engine holds (R341). -/
def heldChunk (m : Msg) : Bool := m.kind == .chunk && m.path.isEmpty

/-- The schedules of a context with their tiles' places in place of the tiles. -/
def placeScheds (s : State) (l : FMap Sched) : FMap Sched := l.map fun e => (e.1, { e.2 with tile := s.placeOf e.2.tile })

/-- The combine entries of a context by logical switch position, its schedule positions and the chunks that engines hold, copied into the save
area and gone from the switches and the engines (R260, R342, R378). Where they lie in the context block the manual does not say: its bytes
before the decode tables are free (log 5). -/
def copyComb (c : Nat) (s : State) : State :=
  let f := s.fab
  let mine := f.scheds.filter fun e => e.2.cid == c
  let held := (f.net.filter fun m => m.cid == c && heldChunk m).map Parked.msg
  let s := s.onCtx c fun x => { x with
    comb := f.comb.filter fun e => e.1 / 2 ^ 36 / 32 / 256 == c
    ccomb := f.ccomb.filter fun e => e.1 / 2 ^ 36 / 64 / 256 == c
    scheds := placeScheds s mine, parked := x.parked ++ held }
  let s := (freeAllComb c s).onFab fun f => { f with net := f.net.filter fun m => !(m.cid == c && heldChunk m) }
  let d := (List.range 0xF8000).map fun (i : Nat) => Config.byte (s.free + i)
  (plainWrite c (s.ctx c).saveva d { s with free := s.free + 0xF8000 }).getD s

/-- The combine entries and the schedules of a context written back, at the same logical positions (R260, R342, R381 step 3). -/
def returnComb (c : Nat) (s : State) : State :=
  let x := s.ctx c
  let scheds (l : FMap Sched) : FMap Sched := x.scheds.foldl (fun l e =>
    let p := s.physOf c e.2.tile
    let k := if l.any fun o => o.1 == e.1 then (freeKey l (l.length + 1)).getD 0 else e.1
    FMap.put l k { e.2 with tile := p, die := p / 512 }) l
  dropSaved c (s.onFab fun f => { f with
    comb := x.comb.foldl (fun m e => FMap.put m e.1 e.2) f.comb
    ccomb := x.ccomb.foldl (fun m e => FMap.put m e.1 e.2) f.ccomb
    scheds := scheds f.scheds })

/-- SAVE_CHANNEL_DRAINED (R260, R342, R377 step 3): every tile is cut, and the control and combine channel holds nothing of the context but
chunks at the engines that wait for them. -/
def execSaveChannelDrained (c : Nat) (s : State) : Out :=
  .next (if (s.ctx c).st == .preempting && !(s.ctx c).channelDrained && (tilesOf s c).all (fun p => isCut (s.tile p))
      && !(s.fab.net.any fun m => m.cid == c && vcOf m == 3 && !heldChunk m) then
    copyComb c (s.onCtx c fun x => { x with channelDrained := true })
  else s)

/-- A queue's state over a save (R366). -/
def suspendQueue (x : Queue) : Queue :=
  if x.st == .active || x.st == .blocked || x.st == .error then { x with st := .suspended, prev := x.st } else x
def resumeQueue (x : Queue) : Queue := if x.st == .suspended then { x with st := x.prev } else x

/-- Every tile captured: the context is Saved (held). -/
def saved (c : Nat) (s : State) : State :=
  let s := (tilesOf s c).foldl (fun s p => s.onTile p fun t => { t with life := .idle }) s
  let s := s.onFab (dropRanks fun x _ => x == c)
  s.onCtx c fun x => { x with st := .savedHeld, queues := x.queues.map fun e => (e.1, suspendQueue e.2), evicted := [] }

/-- TILE_CAPTURE_DONE (R378): the control image and the state record written; the last tile's makes the context Saved (held). -/
def execTileCaptureDone (p : Nat) (s : State) : Out :=
  .next (let t := s.tile p
  let c := t.sys.cid
  let a := s.placeOf p
  let x := s.ctx c
  if x.st != .preempting || !x.channelDrained || !isCut t || NSet.mem x.captured a then s
  else
    let blk := tileBlock s c a
    let s := putRecord c blk (putImage c blk t imageOffsets s)
    let s := s.onCtx c fun x => { x with captured := NSet.add x.captured a, saved := FMap.put x.saved a t }
    if (localPlaces s c).all fun a => NSet.mem (s.ctx c).captured a then saved c s else s)

/-- TILE_EVICTION (R379): a held tile that another context claims writes its SRAM, IMEM and bitmaps, and belongs to nobody; the last one's makes the context Saved
(stored). -/
def execTileEviction (p : Nat) (s : State) : Out :=
  .next (let t := s.tile p
  let c := t.sys.cid
  let a := s.placeOf p
  if (s.ctx c).st != .savedHeld || !(s.ctx c).claimed || t.place.isNone || t.life != .idle then s
  else
    let blk := tileBlock s c a
    let s := (plainWrite c blk (Mem.bytes t.sram 0 (2 ^ 21)) s).getD s
    let s := (t.poison.map fun e => blk + 32 * e.1).foldl (markPoison c) s
    let s := (plainWrite c (blk + 0x240000) ((List.range 0x8000).flatMap fun i => natLe 4 (imemAt t i)) s).getD s
    let s := putImage c blk t bitmapOffsets s
    let s := (s.onTile p (freeTile s.clk)).onCtx c fun x => { x with evicted := NSet.add x.evicted a }
    if (localPlaces s c).all fun a => NSet.mem (s.ctx c).evicted a then s.onCtx c fun x => { x with st := .savedStored, site := none, claimed := false }
    else s)

/-! ## Restore (R381, R382) -/

/-- The partitions of a context's shape that are free, by their base places on this device. -/
def freeBases (s : State) (cid : Nat) : List Nat :=
  let n := (localPlaces s cid).length
  if n = 0 ∨ fullHouse s then [] else ((List.range (2048 / n)).map fun i => s.dev * 2048 + i * n).filter fun b =>
    (sitesMeet s cid (b % 2048) n).isEmpty && (assign s b n).isSome

/-- Whether a message of a context is on its way through the device's switches: it must not see two mappings (R13). -/
def onOldWay (s : State) (cid : Nat) : Bool := s.fab.net.any fun m => m.cid == cid && !m.path.isEmpty && m.ue.isNone && m.dst / 2048 == s.dev

/-- A restore begun on given physical tiles (R381 steps 1 to 3). -/
def beginRestore (cid : Nat) (ps : List Nat) (s : State) : State :=
  let l := (localPlaces s cid).zip ps
  let s := ps.foldl (fun s p => ungateTile p s) (takePartition cid l s)
  let s := s.onCtx cid fun c => { c with st := .restoring, claimed := false }
  l.foldl (fun s e => s.onTile e.2 fun t => { t with life := .restoring, place := some e.1, sys := { t.sys with cid := cid } }) s

/-- A restore asked for: on the held tiles, or on a free partition that the switcher chooses (log 6), once no message of the context sees the old
mapping (R13); none says that there is none. -/
def startRestore (cid : Nat) (s : State) : Option State :=
  let c := s.ctx cid
  if fullHouse s then none
  else if c.st == .savedHeld then some (if c.evicted.isEmpty then beginRestore cid (tilesOf s cid) s else s)
  else
    let l := freeBases s cid
    match l with
    | [] => none
    | b :: _ =>
      if onOldWay s cid then some s
      else
        let b := l.getD (Config.unstated 381 s.picks % l.length) b
        let n := (localPlaces s cid).length
        some ((beginRestore cid ((assign s b n).getD []) s).onCtx cid fun c => { c with site := some (b % 2048, n) })

/-- SCHEDULER_TRAP (R382): taken once in each Saved period; with no partition free, RESTORE_SHAPE goes to the fault ring. -/
def execSchedulerTrap (c : Nat) (s : State) : Out :=
  .next (let x := s.ctx c
  if !x.schedTrap || x.trapTaken || checkpointed s c || !(x.st == .savedHeld || x.st == .savedStored) then s
  else if (x.st == .savedHeld && !x.evicted.isEmpty) || (x.st == .savedStored && onOldWay s c) then s
  else
    let s := s.onCtx c fun x => { x with trapTaken := true }
    (startRestore c s).getD (ringAdd c 3 [] s))

/-- Whether a sector of a tile block's control image was written: by the capture, without the accumulators past `aa` (R182), and the bitmaps by the
eviction. -/
def inImage (ev : Bool) (aa o : Nat) : Bool :=
  (ev || decide (o < 0x10000) || decide (0x14000 ≤ o)) && decide (o < 0x20000 + 4096 * aa)
    && [0, 8, 16, 24].any fun d => ctlMapped (o + d)

/-- Whether a tile block's control image or state record holds a poisoned sector (R381). -/
def blockPoison (s : State) (cid blk : Nat) (ev : Bool) (aa : Nat) : Bool :=
  ((List.range 0x1800).any fun i => inImage ev aa (32 * i) && vaPoison s cid (blk + 0x200000 + 32 * i))
    || (List.range 0x400).any fun i => vaPoison s cid (blk + 0x238000 + 32 * i)

/-- A tile's contents as a restore gives them: from the held tile, or from its block (R378, R381, R182, R223). -/
def restoreTile (s : State) (cid place : Nat) (evicted : Bool) (now old : Tile) : Tile :=
  let blk := tileBlock s cid place
  let t := getImage s cid blk imageOffsets old
  let t := if !evicted then t else
    let words := (plainRead s cid (blk + 0x240000) 0x20000).getD []
    let psn := (List.range 65536).filter fun i => vaPoison s cid (blk + 32 * i)
    let t := getImage s cid blk bitmapOffsets t
    { t with
      sram := Mem.setBytes [] 0 ((plainRead s cid blk (2 ^ 21)).getD [])
      poison := NSet.addAll t.poison psn
      imem := (List.range 0x8000).foldl (fun m (i : Nat) => FMap.set 0 m i (BitVec.ofNat 32 (leNat ((words.drop (4 * i)).take 4)))) [] }
  { t with life := .idle, place := some place, resident := true, imemBad := if evicted then [] else t.imemBad, pend := {}, cyc0 := now.cyc0
           regs := { t.regs with v := [], q := [] } }

/-- A restore that a poisoned image fails (R33, R381): its tiles are nobody's again, the context is Saved, and then it faults. -/
def failRestore (c : Nat) (s : State) : State :=
  let s := (tilesOf s c).foldl (fun s p => s.onTile p (freeTile s.clk)) (ringAdd c 4 [] s)
  (s.onCtx c fun x => { x with st := .savedStored, site := none }).push [.ctxFault c]

/-- RESTORE_COMPLETE (R381, R210): the tiles load their blocks, the parked packets are replayed in arrival order before any other, and
dispatch resumes; accumulators that are not allotted are undefined (R182). A poisoned image fails the restore, and the context faults. -/
def execRestoreComplete (c : Nat) (s : State) : Out :=
  .next (let x := s.ctx c
  if x.st != .restoring then s
  else if (localPlaces s c).any fun a => blockPoison s c (tileBlock s c a) (!x.evicted.isEmpty) (FMap.get (s.tile (s.physOf c a)) x.saved a).sys.aa then
    failRestore c s
  else
    let ev := !x.evicted.isEmpty
    let s0 := s
    let s := (localPlaces s c).foldl (fun s a =>
      let p := s.physOf c a
      undefinedAcc p (s.onTile p fun t => restoreTile s0 c a ev t (if ev then FMap.get t x.saved a else t))) s
    let turns := (List.range x.parked.length).zip x.parked
    let msgs := turns.filterMap fun e => match e.2 with | .msg m => some { m with replay := e.1 + 1 } | .reply _ => none
    let reps := turns.filterMap fun e => match e.2 with | .reply m => some { m with replay := e.1 + 1 } | .msg _ => none
    let s := returnComb c (s.onFab fun f => { f with net := msgs ++ f.net, pkts := f.pkts ++ reps })
    let s := { s with svc := { s.svc with units := s.svc.units + (x.overflowUnits - 1) } }
    let waits := (tilesOf s c).any fun p => !(s.tile p).task.recs.isEmpty
    let s := s.onCtx c fun y => { y with
      st := if waits then .residentRunning else .residentIdle, queues := y.queues.map fun e => (e.1, resumeQueue e.2), parked := [], saved := [], captured := [], evicted := []
      channelDrained := false, schedTrap := false, trapTaken := false, restoredEver := true, overflowUnits := 1, sliceStart := s.now }
    (tilesOf s c).foldl (fun s p => wakeDispatch p s) s)

/-! ## Checkpoints (R426, R427) -/

/-- The contexts that a CHECKPOINT names. -/
def checkpointOf (s : State) (p : HPkt) : List Nat :=
  let c := bits (pw p 4) 11 0
  if c = 0xFFF then (s.ctxs.filter fun e => e.2.st != .free && e.2.st != .destroyed).map fun e => e.1 else [c]

/-- Whether a context is out of the way of a checkpoint: not on its tiles, and without migrations. -/
def isStored (s : State) (c : Nat) : Bool :=
  let x := s.ctx c
  (x.st == .savedHeld || x.st == .savedStored || x.st == .faulted || x.st == .created) && x.migs.isEmpty

/-- The stream of one page (R426): its record, its bytes with poisoned sectors as zero, and the mask of them, whose grain the manual does
not give (log 6). -/
def pageStream (s : State) (e : Nat × Nat × Nat × Nat × Nat) : List Byte :=
  let n := 2 ^ e.2.1
  let k := leafKey e.2.2.1 e.2.2.2.1
  let bad := (List.range (n / 32)).filter fun i => NSet.mem s.fab.hpoison (k / 32 + i)
  let data := (List.range (n / 32)).flatMap fun i => if bad.contains i then List.replicate 32 0 else Mem.bytes s.fab.hbm (k + 32 * i) 32
  let mask := if bad.isEmpty then 0 else Config.unstated 426 (bad.foldl (fun a b => a + 2 ^ b) 0)
  natLe 8 e.1 ++ natLe 8 e.2.2.1 ++ natLe 8 e.2.2.2.1 ++ natLe 8 0 ++ data ++ natLe 8 mask

/-- The pages in device memory of some contexts, each frame once. -/
def hbmPages (s : State) (l : List Nat) : List (Nat × Nat × Nat × Nat × Nat) :=
  (l.flatMap fun c => (leavesOf s c).filter fun e => decide (eStack e.2.2.1 < 12)).foldl (fun l e =>
    if l.any fun o => leafKey o.2.2.1 o.2.2.2.1 == leafKey e.2.2.1 e.2.2.2.1 then l else l ++ [e]) []

/-- The frames of 64 KiB of the device's stacks that no page of a list covers, as pages: what their records say is not stated (log 6). -/
def restPages (s : State) (l : List (Nat × Nat × Nat × Nat × Nat)) : List (Nat × Nat × Nat × Nat × Nat) :=
  ((List.range 12).flatMap fun st => (List.range stackFrames).map fun fr => (st, fr)).filterMap fun x =>
    if l.any fun e => rangesMeet (leafKey e.2.2.1 e.2.2.2.1) (2 ^ e.2.1) (hbmKey s.dev x.1 (x.2 * 65536)) 65536 then none
    else some (Config.unstated 426 (2 * (x.1 * stackFrames + x.2) + 1), 16, x.1 * 2 ^ 36 + s.dev * 2 ^ 16, x.2, 0)

/-- The stream of a checkpoint (R426): the pages in device memory of its context, or all device memory. -/
def checkpointStream (s : State) (p : HPkt) : List Byte :=
  let l := hbmPages s (checkpointOf s p)
  (if bits (pw p 4) 11 0 = 0xFFF then l ++ restPages s l else l).flatMap (pageStream s)

/-- CHECKPOINT_PACKET (R426, R427): the contexts named are saved and their migrations end; then the stream is written to the endpoint through the
UE ports, each of which must pass the context (R17). -/
def execCheckpointPacket (n : Nat) (s : State) : Out :=
  .next (match runningPkt s n 11 with
  | some p =>
    let c := bits (pw p 4) 11 0
    if (s.ctx p.cid).func ≠ 0 ∧ c ≠ p.cid then doneHpkt p.id stRefused 0 s
    else if c ≠ 0xFFF ∧ (s.ctx c).st == .free then doneHpkt p.id stRefused 0 s
    else if p.aux = 2 then s
    else
      let s := (checkpointOf s p).foldl (fun s x => requestSave x s) (setHpkt p.id (fun p => { p with aux := 1 }) s)
      if !(checkpointOf s p).all (isStored s) then s
      else match ueEndpoint s p.cid (pw p 5) with
      | none => doneHpkt p.id stFault 8 s
      | some l =>
        if (s.ctx p.cid).job = 0 then doneHpkt p.id stFault 8 s
        else match stopPort s.fab (uePorts s) p.cid false with
        | some q => isolateAt q p.cid (rolePlace s 6) s
        | none =>
          let k := (bits (l.getD 2 0) 23 0 * 4096 + bits (l.getD 2 0) 43 32) * 2 ^ 56 + pw p 6
          let d := checkpointStream s p
          (setHpkt p.id (fun p => { p with aux := 2, effects := true }) s).onFab fun f => { f with ue := Mem.setBytes f.ue k d }
  | none => s)

/-- CHECKPOINT_STREAM_DONE (R427): every write is acknowledged, or the UE transport has failed (log 6). -/
def execCheckpointStreamDone (n : Nat) (s : State) : Out :=
  .next (match runningPkt s n 11 with
  | some p =>
    if p.aux ≠ 2 then s
    else if Config.unstated 427 s.picks = 0 then doneHpkt p.id 0 0 s else doneHpkt p.id stFault 8 s
  | none => s)

/-! ## Failures of the pump house (R370) -/

/-- The role that carries a packet type out (R367): 0 queue, 1 loader, 2 pager, 4 attestor, 6 checkpoint. -/
def roleOf (ty : Nat) : Nat :=
  if ty = 1 then 1 else if ty = 8 ∨ ty = 9 ∨ ty = 10 then 2 else if ty = 6 ∨ ty = 7 ∨ ty = 12 then 4 else if ty = 11 then 6 else 0

/-- A role without a failed tile (R367, R370): where that was the primary, the standby takes the role; `spare` takes the failed tile's part, where
there is one. -/
def moveRole (bad : Nat) (spare : Option Nat) (e : Nat × Nat) : Nat × Nat :=
  if e.1 = bad then (e.2, spare.getD bad) else if e.2 = bad then (e.1, spare.getD bad) else e

/-- A pump-house tile that has failed (R370): it is Faulted, a free spare of its die takes its place with its firmware, and every role of it moves;
the contexts' traffic passes to the new tile (R17), and the notices to the queue role follow it (R356). -/
def replaceRole (role : Nat) (s : State) : State :=
  match elemAt s.svc.roles role with
  | none => s
  | some (bad, _) =>
    let p := serviceTile (bad / 16) bad
    let old := s.tile p
    let s := s.setTile p { old with life := .faulted }
    let spare := (spareTiles s).find? fun q => tileDie q == bad / 16
    let s := match spare with
      | some q => s.setTile q { life := .idle, cyc0 := s.clk, place := some (tilePlace s.dev q), sys := old.sys, imem := old.imem }
      | none => s
    let front := queueRole s
    let s := { s with svc := { s.svc with roles := s.svc.roles.map (moveRole bad (spare.map (· - 2048))) } }
    let s := (s.ctxs.filter fun e => e.2.st != .free && e.2.st != .destroyed).foldl (fun s e => setMember e.1 true (edgePorts s e.1) s) s
    if queueRole s = front then s else renotice s

/-- PUMP_HOUSE_TILE_FAILURE (R370): in IMEM (kind 0) the standby re-issues what was started and not marked complete, and a spare takes the
failed tile's place; in a queue's table (kind 1) that queue fails; with both journals lost (kind 2) the contexts with packets there fault, the queue
role's being all that are admitted. -/
def execPumpHouseTileFailure (role kind c q : Nat) (s : State) : Out :=
  .next (if kind = 0 then
    let again (p : HPkt) : Bool := roleOf (pType p) == role && p.st == .running && !p.effects
    replaceRole role ((s.pump.pkts.filter again).foldl (fun s p => pushHpkt p.id s) s)
  else if kind = 1 then
    if (queueOf s c q).st == .free then s else ringQueue c q 0 stQtable 0 [] (queueError c q stQtable s)
  else if kind = 2 then
    ((s.pump.pkts.filter fun p => role == 0 || roleOf (pType p) == role).map fun p => p.cid).eraseDups.foldl (fun s c => faultCtx c s) s
  else s)

end Sys2Proof.Machine
end

