-- ==== Sys2Proof/Machine/TaskUnit.lean ====
section
/-!
DEFINITION. Sys2Proof/Machine/TaskUnit.lean: the tile's life cycle (R33 to R35), dispatch (R221 to R223), the budget (R225), the pager's
answers (R228) and the errors of the tile's memories (R25, R27).
-/

namespace Sys2Proof.Machine

/-! ## Power and reset (R33 to R35) -/

/-- TILE_UNGATE (R33): once the device has booted (R414 step 6), and not after a thermal shutdown (R424). -/
def execTileUngate (p : Nat) (s : State) : Out := .next (if s.svc.boot = .ready then ungateTile p s else s)

/-- TILE_RESET_COMPLETE (R33, R35). -/
def execTileResetComplete (p : Nat) (s : State) : Out :=
  .next (let t := s.tile p
  if t.life != .reset || s.svc.boot != .ready then s else s.setTile p (resetTile s.clk t))

/-- A tile gated. -/
def gateTile (p : Nat) (s : State) : State := s.setTile p { life := .off }

/-- Whether a tile may be gated: without a context, or Faulted (R33). -/
def mayGate (t : Tile) : Bool := t.place.isNone && (t.life == .idle || t.life == .faulted)

/-- A gate request at a tile: one that may be gated is so once the cluster's trace buffer is empty (R33, R34); at any other the request waits, in a
yoke member until the yoke has left it (R314). -/
def gateReq (p : Nat) (s : State) : State :=
  let t := s.tile p
  if t.life == .off then s
  else if mayGate t && (FMap.get [] s.fab.trace (p / 16)).isEmpty then gateTile p s
  else if t.pend.gate then s
  else s.setTile p { t with pend := { t.pend with gate := true, gateSince := s.now } }

/-- GATE_REQUEST (R33, R34). -/
def execGateRequest (p : Nat) (s : State) : Out := .next (gateReq p s)

/-- FORCED_GATE (R34): a request that has waited is granted once the buffer is empty; after 20 µs the records left are discarded, and their count
stays for a LOST record. -/
def execForcedGate (p : Nat) (s : State) : Out :=
  .next (let t := s.tile p
  if !mayGate t || !t.pend.gate then s
  else if (FMap.get [] s.fab.trace (p / 16)).isEmpty then gateTile p s
  else if s.now < t.pend.gateSince + 20000 then s
  else
    let n := (FMap.get [] s.fab.trace (p / 16)).length + FMap.get 0 s.fab.traceLost (p / 16)
    gateTile p (s.onFab fun f => { f with trace := FMap.put f.trace (p / 16) [], traceLost := FMap.put f.traceLost (p / 16) n }))

/-- What a Faulted tile's yoke does first: a member's leader takes YOKE MEMBER (R314, R325). -/
def yokeFaulted (p : Nat) (s : State) : List Agent :=
  let y := (s.tile p).yk
  let l := s.physOf (s.tile p).sys.cid (s.placeOf p - y.idx)
  if y.idx ≠ 0 && y.st == .yoked && isMember s l p then [.memberFault l y.idx, .thread l] else []

/-- TILE_UNRECOVERABLE_FAULT (R33, R379): the tile is Faulted, a yoke that it leads ends, and its context faults. -/
def execTileUnrecoverableFault (p : Nat) (s : State) : Out :=
  .next (let t := s.tile p
  if t.life == .off || t.life == .faulted then s
  else
    let s := s.setTile p { t with life := .faulted, resident := false, wait := [], woken := [], bun := {} }
    let s := if t.yk.idx = 0 then endYoke p s else s
    if t.place.isSome then s.push (yokeFaulted p s ++ [.ctxFault t.sys.cid]) else s)

/-! ## Dispatch (R221 to R223) -/

/-- ACTW (R222). -/
def actwOf (asn cause prio slot : Nat) : W64 := BitVec.ofNat 64 (asn % 2 ^ 32 * 2 ^ 32 + cause % 256 * 256 + prio % 4 * 64 + slot % 64)

/-- The registers at a task's first bundle (R223). -/
def startRegs (t : Tile) (arg actw : W64) : Regs :=
  { t.regs with g := FMap.put (FMap.put (FMap.put [] 2 t.sys.stktop) 3 arg) 4 actw, p := [] }

/-- A record's task started (R221, R223): its first bundle issues 6 cycles later, and the watchdog counts from then (R225). -/
def startTask (s : State) (r : Nat) (e : Rec) (t : Tile) : Tile :=
  let d := FMap.get {} t.task.slots e.slot
  let asn := (t.task.asn + 1) % 2 ^ 32
  let actw := actwOf asn e.cause e.prio e.slot
  { t with
    life := .running, pc := e.entry, regs := startRegs t d.arg actw, spill := [], bun := {}, wait := [], woken := [], async := []
    sys := { t.sys with actw := actw, lstart := 0, lend := 0, lcount := 0 }
    task := { t.task with
      dc := (t.task.dc + 1) % 8, asn := asn
      recs := FMap.put t.task.recs r { e with run := true, asn := asn }
      run := { idx := r, slot := e.slot, budget := d.budget, start := s.clk + 6, gstart := s.gtime, nr := d.nr, fresh := true } } }

/-- Whether a slot is parked in an accumulator (R165). -/
def accParked (t : Tile) : Bool := t.spill.any fun e => spValid e.2 && spKind e.2 == 1

/-- Record `r`'s task begun on tile `p`, with its context running (R375): accumulators in which slots were parked are unallotted, with undefined
contents (R165). -/
def beginTask (p r : Nat) (e : Rec) (s : State) : State :=
  let t := s.tile p
  let y := nowRunning t.sys.cid (s.setTile p (startTask s r e t))
  if accParked t then undefinedAcc p y else y

/-- TASK_DISPATCH (R221, R223, R375). -/
def execTaskDispatch (p : Nat) (s : State) : Out :=
  .next (let t := s.tile p
  if !canDispatch t then s
  else match chooseRec t.task.dc t.task.seq (t.task.recs.filter fun e => !e.2.hold && !e.2.run) with
  | some (r, e) => beginTask p r e s
  | none => s)

/-- BUDGET_EXPIRY (R225): the watchdog raises BUDGET, taken at the next bundle boundary. -/
def execBudgetExpiry (p : Nat) (s : State) : Out :=
  .next (let t := s.tile p
  if t.life != .running || decide (ranCycles s t < t.task.run.budget * 1024) || t.async.any (fun x => x.cause == cBudget) then s
  else raiseAsync p (tr cBudget) s)

/-! ## The pager (R228) -/

/-- A fault record of tile `p` that waits at the pager for record `r` and activation `a`. -/
def pagerEntry (s : State) (p r a : Nat) : Option (List Nat) :=
  ((s.ctx (s.tile p).sys.cid).inbox.find? fun e => e.1 == s.placeOf p && e.2.getD 6 0 == r && e.2.getD 2 0 / 2 ^ 32 == a).map fun e => e.2

/-- The pager's answer given: the fault record goes to the ring. -/
def pagerTook (p r a : Nat) (w : List Nat) (s : State) : State :=
  let c := (s.tile p).sys.cid
  ringTile c w (s.onCtx c fun x => { x with inbox := x.inbox.filter fun e => !(e.1 == s.placeOf p && e.2.getD 6 0 == r && e.2.getD 2 0 / 2 ^ 32 == a) })

/-- The port that keeps tile `p`'s fault records from the pager (R17). -/
def pagerStop (s : State) (p : Nat) : Option Nat := noticeStop s (s.tile p).sys.cid (tilePlace s.dev p) 2

/-- A fault record that a port has discarded: it does not reach the pager (R17). -/
def pagerLost (p r a q : Nat) (s : State) : State :=
  let c := (s.tile p).sys.cid
  isolateAt q c (s.placeOf p)
    (s.onCtx c fun x => { x with inbox := x.inbox.filter fun e => !(e.1 == s.placeOf p && e.2.getD 6 0 == r && e.2.getD 2 0 / 2 ^ 32 == a) })

/-- Whether a cause is one that waits for a debugger. -/
def debugCause (c : Nat) : Bool := c == cBkpt || c == cWatch || c == cStep

/-- Whether the pager restarts a held record (R228). -/
def mayRestart (s : State) (t : Tile) (e : Rec) : Bool :=
  !e.exposed && !e.nr && decide (e.restarts ≤ (s.ctx t.sys.cid).restartmax)
    && (e.trapc == cBudget || (e.trapc == cEccLocal && (!e.imem || t.imemBad.isEmpty)))

/-- A held record that an answer names. -/
def heldRec (t : Tile) (r a : Nat) : Option Rec := (t.task.recs.find? fun e => e.1 == r && e.2.hold && e.2.asn == a).map fun e => e.2

/-- A held record made dispatchable again. -/
def restartRec (r : Nat) (e : Rec) (t : Tile) : Tile :=
  { t with task := { t.task with recs := FMap.put t.task.recs r { e with hold := false, cause := 3, restarts := e.restarts + 1 } } }

/-- PAGER_RESTART (R228). -/
def execPagerRestart (p r a : Nat) (s : State) : Out :=
  .next (let t := s.tile p
  match pagerEntry s p r a, heldRec t r a with
  | some w, some e =>
    if !t.resident || !mayRestart s t e then s
    else match pagerStop s p with
    | some q => pagerLost p r a q s
    | none =>
      let s := pagerTook p r a w (s.setTile p (restartRec r e t))
      wakeDispatch p (s.onCtx t.sys.cid fun c => { c with restarted := true })
  | _, _ => s)

/-- A held record freed: PENDING slots get theirs (R218). -/
def killRec (r : Nat) (t : Tile) : Tile := { t with task := drainPending { t.task with recs := FMap.drop t.task.recs r } }

/-- PAGER_KILL (R228, R280): a record that the pager may not restart is freed, and the context faults, as it does for the fault of an
activation that has ended. A record for a debugger waits while
one is attached; one whose IMEM word can still be repaired waits for that. -/
def execPagerKill (p r a : Nat) (s : State) : Out :=
  .next (let t := s.tile p
  let c := t.sys.cid
  match pagerEntry s p r a, pagerStop s p with
  | some _, some q => pagerLost p r a q s
  | _, _ =>
  match pagerEntry s p r a, heldRec t r a with
  | some w, some e =>
    if !t.resident || mayRestart s t e || (debugCause e.trapc && (s.ctx c).attached) then s
    else if e.trapc == cEccLocal && e.imem && !t.imemBad.isEmpty && !e.exposed && !e.nr && decide (e.restarts ≤ (s.ctx c).restartmax) then s
    else
      let s := pagerTook p r a w (s.setTile p (killRec r t))
      (wakeDispatch p s).push [.ctxFault c]
  | some w, none => (pagerTook p r a w s).push (if r = 0xFFFFFFFF then [.ctxFault c] else [])
  | none, _ => s)

/-! ## Memory errors (R25, R27) -/

/-- IMEM_ECC_ERROR (R27): some word of IMEM goes bad (log 6); the thread, or a block, that fetches it traps before its bundle. -/
def execImemEccError (p : Nat) (s : State) : Out :=
  .next (let t := s.tile p
  if t.life != .running then s
  else
    s.setTile p { t with imemBad := NSet.add t.imemBad (Config.unstated 27 s.picks % 32768) })

/-- Whether a bad word has a measured source (R27): below CODEN of the tile's launch, in a block without an overlay. -/
def repairable (s : State) (t : Tile) (w : Nat) : Bool :=
  decide (w < t.coden) && !NSet.mem t.overlay (w / 256)
    && (match t.kernel with | some k => (kernOf s k).imgid == t.sys.imgid && iCoden (kernOf s k).img != 0 | none => false)

/-- A block's words below CODEN rewritten from the image. -/
def repairBlock (y : Kern) (t : Tile) (b : Nat) : Tile :=
  let ws := ((List.range 256).map (256 * b + ·)).filter fun w => decide (w < t.coden)
  { t with
    imem := ws.foldl (fun m (w : Nat) => FMap.set 0 m w (BitVec.ofNat 32 (fld y.img (iCodeOff y.img + 4 * w) 4))) t.imem
    imemBad := NSet.delAll t.imemBad ws }

/-- The records held for IMEM errors freed. -/
def killImem (t : Tile) : Tile :=
  { t with task := drainPending { t.task with recs := t.task.recs.filter fun e => !(e.2.hold && e.2.imem) } }

/-- IMEM_REPAIR (R27): the pump house rewrites the blocks of the bad words, or kills the record and the context faults. -/
def execImemRepair (p : Nat) (s : State) : Out :=
  .next (let t := s.tile p
  let bad := t.imemBad.map fun e => e.1
  if bad.isEmpty || !(t.task.recs.any fun e => e.2.hold && e.2.imem) then s
  else if bad.all (repairable s t) then
    let y := kernOf s (t.kernel.getD 0)
    s.setTile p ((bad.map fun w => w / 256).eraseDups.foldl (repairBlock y) t)
  else (s.setTile p (killImem t)).push [.ctxFault t.sys.cid])

/-- A double-bit error found by a read of tile `p`'s engines (R25): the sector is poisoned, and what the engine reads carries it. -/
def engineEcc (p : Nat) (s : State) : State :=
  s.onTile p fun t => { t with poison := NSet.add t.poison (Config.unstated 25 s.picks % 65536) }

/-- A single-bit error corrected in place and counted (R25). -/
def eccOne (p : Nat) (s : State) : State := s.onTile p fun t => if t.life == .off then t else { t with ecc := t.ecc + 1 }

/-- An element of an accumulator of tile `p` goes bad beyond correction (R179); every command and MRDF that reads it sets PD and PSN. -/
def accEcc (p : Nat) (s : State) : State :=
  s.onTile p fun t => { t with accBad := NSet.add t.accBad (Config.unstated 179 s.picks % 16384) }

/-- ECC_LOCAL (R25): a thread read has found a double-bit error in some sector (log 6): the sector is poisoned, and the cause is taken at
the next bundle boundary. -/
def execEccLocal (p : Nat) (s : State) : Out :=
  .next (let t := s.tile p
  if t.life != .running then s
  else
    let sec := Config.unstated 25 s.picks % 65536
    raiseAsync p (tr cEccLocal (32 * sec))
      (s.setTile p { t with poison := NSet.add t.poison sec }))

end Sys2Proof.Machine
end

