-- ==== Sys2Proof/Machine/Link.lean ====
section
/-!
DEFINITION. Sys2Proof/Machine/Link.lean: switch ports (R17) and Welim Link (R391 to R403, R410).
-/

namespace Sys2Proof.Machine

/-! ## Messages as flits (R208, R255, R331, R356, R392) -/

/-- The class of a message, and its kind within REPLY and COMB. -/
def msgClass (m : Msg) : Nat × Nat :=
  match m.kind with
  | .eager => (if m.ctl then 6 else 0, 0)
  | .rts => (1, 0)
  | .cts => (2, 0)
  | .data => (3, 0)
  | .eack => (5, 0)
  | .poolFull => (5, 1)
  | .rack => (5, 2)
  | .dack => (5, 3)
  | .up => (7, 0)
  | .down => (7, 1)
  | .abort => (7, 2)
  | .collected => (7, 3)
  | .collRelease => (7, 3)
  | .arrive => (7, 4)
  | .release => (7, 5)
  | .cancel => (7, 6)
  | .chunk => (7, 0)
  | .queueNotice => (8, 0)
  | .trigger => (6, 0)
  | .kdoneAck => (6, 0)
  | .stop => (6, 0)

/-- Bytes of a wire value of a collective of a type (R331). -/
def wireSize (ty : Nat) : Nat := if ty = 2 then 6 else 4

/-- The payload of a message. -/
def msgPayload (m : Msg) : List Byte :=
  match m.kind with
  | .up => m.vals.flatMap (natLe (wireSize m.parity))
  | .down => m.vals.flatMap (natLe (wireSize m.parity))
  | .queueNotice => natLe 8 m.val ++ natLe 8 m.stime ++ natLe 16 0
  | _ => m.payload

/-- The fields of a header that depend on the class: [159:128] and [183:160]. -/
def msgFields (m : Msg) : Nat × Nat :=
  let c := msgClass m
  match c.1 with
  | 0 => (m.tag, m.len)
  | 1 => (m.tag, m.len)
  | 6 => (m.tag, m.len)
  | 2 => (m.handle + m.sdesc * 2 ^ 16, m.acc)
  | 3 => (m.handle + m.sdesc * 2 ^ 16, m.off)
  | 5 => (m.handle + m.sdesc * 2 ^ 16, m.len)
  | 7 => if 4 ≤ c.2 then (m.num % 16 + m.parity % 2 * 2 ^ 4 + m.status % 256 * 2 ^ 8 + c.2 * 2 ^ 16, 0)
    else (m.num % 256 + m.status % 16 * 2 ^ 8 + m.parity % 16 * 2 ^ 12 + c.2 * 2 ^ 16, m.chunk)
  | _ => (m.num % 64, m.len)

/-- The header flit of a message (R208). -/
def msgHeader (m : Msg) : Nat :=
  let c := msgClass m
  let f := msgFields m
  let n := (msgPayload m).length
  let flags := b2n m.relaxed + 2 * b2n m.poison + 4 * b2n m.resume + (if c.1 = 5 then c.2 * 16 else 0)
  let dst := if m.kind == .arrive || m.kind == .cancel then 0 else m.dst % 2 ^ 32
  dst + m.src % 2 ^ 32 * 2 ^ 32 + m.cid % 2 ^ 12 * 2 ^ 64 + m.grp % 2 ^ 8 * 2 ^ 76 + m.srank % 2 ^ 20 * 2 ^ 84 + c.1 * 2 ^ 104
    + flags * 2 ^ 108 + (if (c.1 = 3 ∨ c.1 = 7) ∧ n ≠ 0 then (n - 1) % 256 else 0) * 2 ^ 120 + f.1 % 2 ^ 32 * 2 ^ 128 + f.2 % 2 ^ 24 * 2 ^ 160
    + m.chan % 2 ^ 16 * 2 ^ 184 + (if c.1 = 5 then m.acc % 2 ^ 24 else 0) * 2 ^ 200 + m.stime % 2 ^ 32 * 2 ^ 224

/-- A message's flits: the header, then the payload. -/
def msgFlits (m : Msg) : List Nat :=
  let d := msgPayload m
  msgHeader m :: (List.range ((d.length + 31) / 32)).map fun i => leNat ((d.drop (32 * i)).take 32)

/-- The bytes of some flits. -/
def flitBytes (l : List Nat) : List Byte := l.flatMap (natLe 32)

/-- The kind of message that a header names; none for memory requests and their replies, and for what R208 and R331 discard. -/
def headKind (h : Nat) : Option MKind :=
  match bits h 107 104 with
  | 0 => some .eager
  | 1 => some .rts
  | 2 => some .cts
  | 3 => some .data
  | 5 => match bits h 115 112 with | 0 => some .eack | 1 => some .poolFull | 2 => some .rack | 3 => some .dack | _ => none
  | 6 => some .eager
  | 7 => match bits h 151 144 with
    | 0 => some .chunk
    | 1 => some .down
    | 2 => some .abort
    | 3 => some .collRelease
    | 5 => some .release
    | _ => none
  | 8 => some .queueNotice
  | _ => none

/-- The bytes of payload that a header announces. -/
def headLen (h : Nat) : Nat :=
  match bits h 107 104 with
  | 0 => bits h 183 160
  | 6 => bits h 183 160
  | 3 => bits h 127 120 + 1
  | 7 => if bits h 151 144 < 2 then bits h 127 120 + 1 else 0
  | 8 => 32
  | _ => 0

/-- A message read from its flits, which came by a virtual channel: what CSEND sends stays in the control channel (R202, R209). A chunk of a
schedule is as long as its flits. The flags of a combine value have no field in R331 (log 6). A notice holds TAIL and the time (R356). -/
def msgOf (s : State) (vc h : Nat) (fl : List Nat) (k : MKind) : Msg :=
  let cls := bits h 107 104
  let d := if k == .chunk then flitBytes fl else (flitBytes fl).take (headLen h)
  let ty := bits h 143 140
  let w := wireSize ty
  let combine := cls == 7 && decide (bits h 151 144 < 4)
  { kind := k, cid := bits h 75 64, src := bits h 63 32, dst := bits h 31 0, grp := bits h 83 76, srank := bits h 103 84
    tag := bits h 159 128, len := bits h 183 160, acc := if cls = 2 then bits h 183 160 else bits h 223 200
    off := bits h 183 160, handle := bits h 143 128, sdesc := bits h 159 144
    relaxed := bit h 108, poison := bit h 109, resume := bit h 110, ctl := cls == 6 || (vc == 3 && decide (cls < 4))
    chan := bits h 199 184, stime := if cls = 8 then leNat ((d.drop 8).take 8) else bits h 255 224, payload := if combine && k != .chunk then [] else d
    num := if combine then bits h 135 128 else if cls = 8 then bits h 133 128 else bits h 131 128, val := if cls = 8 then leNat (d.take 8) else 0, parity := if combine then ty else bits h 132 132
    status := if combine then bits h 139 136 else bits h 143 136, chunk := bits h 183 160
    vals := if combine then (List.range (d.length / w)).map fun i => leNat ((d.drop (w * i)).take w) else []
    flags := if combine then Config.unstated 331 s.free % 8 else 0 }

/-! ## Ports -/

/-- A message discarded at a port (R17). -/
def isolate (port : Nat) (m : Msg) (s : State) : State := isolateAt port m.cid m.src s

/-- The class by which a firewall knows a message (R368): all that CSEND sends is control-class traffic (R202). -/
def doorClass (m : Msg) : Nat := if m.ctl then 6 else (msgClass m).1

/-- Whether a port on a message's way is the door of a service cluster that its die's firewall keeps shut to it (R368); `r` is the way
after the port. -/
def doorShut (s : State) (m : Msg) (q : Nat) (r : List Nat) : Bool :=
  match serviceDoor q, r with
  | some die, [a] => decide (2 ^ 31 ≤ a) && decide (a < 2 ^ 32) && decide (a % 512 < 16) && firewalled s (serviceTile die (a % 512)) (doorClass m)
  | _, _ => false

/-- A collective ends Aborted on every tile of this device that still has it in progress (R403, R336). -/
def abortColl (c grp id : Nat) (s : State) : State :=
  (tilesOf s c).foldl (fun s p =>
    match memberOf (s.tile p) grp with
    | some (slot, _) =>
      let k := collKey slot id
      match (collRec (s.tile p) k).st with
      | .contributing => abortRec p k s
      | .combining => abortRec p k (stopOwn p grp id s)
      | .delivering => abortRec p k s
      | _ => s
    | none => s) s

/-- What a lost packet's message comes to (R403): a collective's is aborted, a memory request's is told by its stamp, any other faults its
context. -/
def loseMessage (s : State) (h : Nat) : State :=
  let c := bits h 75 64
  if bits h 107 104 = 4 ∨ (bits h 107 104 = 5 ∧ 4 ≤ bits h 115 112) then s
  else if bits h 107 104 = 7 ∧ bits h 151 144 < 4 then abortColl c (bits h 83 76) (bits h 135 128) s
  else if (s.ctx c).st == .free then s
  else s.push [.ctxFault c]

/-- A message lost before it was cut into packets (R403). -/
def loseMsg (m : Msg) (s : State) : State :=
  if (msgClass m).1 = 7 then loseMessage s (msgHeader m)
  else if (s.ctx m.cid).st == .free then s
  else s.push [.ctxFault m.cid]

/-- A message as it leaves by a UE port (R405, R406): with its context's JOB and PID, to the endpoint that its list word names; a tagged send has TAG,
group and source rank as its match bits. -/
def ueTx (s : State) (q : Nat) (m : Msg) : UeTx :=
  { port := q, job := (s.ctx m.cid).job, pid := (s.ctx m.cid).pid
    entry := if ueRef m.dst then (ueEndpoint s m.cid (bits m.dst 30 11)).getD [] else []
    match_ := if m.kind == .eager || m.kind == .rts then m.tag % 2 ^ 32 * 2 ^ 32 + m.grp % 2 ^ 8 * 2 ^ 24 + m.srank % 2 ^ 20 else 0, msg := m }

/-- SWITCH_PORT_PASS (R17, R368): the next port of a message's way passes it or discards it, and the ordered class keeps its order (R15). Past a device's root it enters a Welim port; past
a UE port it has left the device. -/
def execSwitchPortPass (n : Nat) (s : State) : Out :=
  .next (match elemAt s.fab.net n with
  | some m =>
    match m.path with
    | [] => s
    | q :: r =>
      if (s.fab.net.take n).any fun o => !o.path.isEmpty && decide (r.length < o.path.length) && o.dst == m.dst && o.src == m.src && o.cid == m.cid && inOrder m o then s
      else if !portPasses s.fab q m.cid (vcOf m == 3) || doorShut s m q r then isolate q m (take n s)
      else if 2 ^ 32 ≤ q ∧ swLevel (q - 2 ^ 32) = 3 ∧ !(m.port == 2) then
        match upPortOf s (vcOf m) m.dst with
        | none => if linkLeft s then s else loseMsg m (take n s)
        | some u =>
          let port := portOfPlace (welimPlace s.dev u)
          if !portPasses s.fab port m.cid (vcOf m == 3) then isolate port m (take n s)
          else putFlits u (waitingFlits (vcOf m) [] (msgFlits m)) (take n s)
      else if m.ue.isSome && r.isEmpty then let y := take n s; { y with svc := { y.svc with ueOut := y.svc.ueOut ++ [ueTx s q m] } }
      else s.onFab fun f => { f with net := setAt f.net n { m with path := r } }
  | none => s)

/-! ## Receiving (R393) -/

/-- The flits of a packet, each alone. -/
def splitPkt (p : LinkPkt) : List LinkPkt :=
  (List.range p.flits.length).map fun i => { vc := p.vc, flits := [p.flits.getD i 0], head := b2n (bit p.head i), tail := b2n (bit p.tail i), req := p.req }

/-- The headers that some packets open. -/
def headsOf (l : List LinkPkt) : List Nat := (l.flatMap splitPkt).filterMap fun p => if bit p.head 0 then p.flits.head? else none

/-- By channel, the header of the message that the last packet acknowledged carried. -/
def noteHead (m : FMap Nat) (p : LinkPkt) : FMap Nat := match (headsOf [p]).getLast? with | some h => FMap.put m p.vc h | none => m

/-- The ACK and CREDIT of a packet taken. -/
def takeAck (p : LinkPkt) (now : Nat) (w : Welim) : Welim :=
  let d := (p.ack + 4096 - w.acked) % 4096
  let w := { w with credits := (List.range 4).map fun i => vcAt w.credits i + vcAt p.credit i }
  if d = 0 ∨ w.replay.length < d then w
  else { w with acked := p.ack, replay := w.replay.drop d, txAt := now, acking := (w.replay.take d).foldl noteHead w.acking }

/-- Whether a port hears packets: framing is up. -/
def hears (w : Welim) : Bool := w.st == .up || w.st == .degraded || w.st == .swap

/-- A packet's ACK and CREDIT taken and what they free sent; a bad packet is counted and discarded. -/
def heard (q : Nat) (p : LinkPkt) (f : State → State) (s : State) : State :=
  let w := welim s q
  if !hears w then s
  else if badPkt p then setWelim q { w with crcErr := w.crcErr + 1 } s
  else f (flush q (setWelim q (takeAck p s.now w) s))

/-- The way down from the device's root to a place. -/
def downWay (s : State) (cid dst : Nat) : List Nat :=
  (wayUp s.svc.bw s.svc.rw 4 (physPlace s cid dst)).reverse

/-- A memory request that has come from another device, as it stands before its home (R209): class, CID, source and home are in its header, and the
bytes of a write follow; what else it asks for is laid out nowhere (log 115). None where its destination is no home of memory. -/
def farRequest (s : State) (vc h : Nat) (fl : List Nat) : Option Pkt :=
  let u (i n : Nat) : Nat := Config.unstated 208 (2 ^ 32 + 8 * s.free + i) % n
  let kind : RKind := if u 0 4 = 0 then .get else if u 0 4 = 1 then .put else if u 0 4 = 2 then .fetch else .posted
  let atomic := isAtomic kind
  let d := flitBytes fl
  let n := if atomic then (if u 1 2 = 0 then 4 else 8) else if kind == .put then Nat.min d.length 256 else 1 + u 1 256
  let a := u 2 (2 ^ 26) / n * n
  let base : Pkt := { place := farParty (bits h 63 32), slot := u 3 64, cid := bits h 75 64, kind := kind, ord := if vc = 1 then 1 else 0, read := true
                      op := 16 + u 4 8, w := decide (n = 4), len := n, b := u 5 (2 ^ 64), c := u 6 (2 ^ 64), data := d.take n, st := .routed, sh := 30 }
  match endpointOf (bits h 31 0) with
  | some (.cistern st pair) =>
    let va := a / 2048 * 32768 + pair * 2048 + a % 2048
    some { base with va := va, w0 := st * 2 ^ 36 + s.dev * 2 ^ 16, loc := .hbm (hbmKey s.dev st (u 7 64 * 2 ^ 30 + va)), todo := granules 32 va n }
  | some .pcie => some { base with va := a, w0 := 15 * 2 ^ 36 + s.dev * 2 ^ 16, loc := .host (u 7 64) a, todo := granules 8 a n }
  | _ => none

/-- A memory request from another device goes down the tree to its home, unless a port on its way discards it (R17). -/
def takeRequest (vc h : Nat) (fl : List Nat) (s : State) : State :=
  match farRequest s vc h fl with
  | some m =>
    match stopPort s.fab (wayUp s.svc.bw s.svc.rw 4 (bits h 31 0)).reverse m.cid false with
    | some q => isolateAt q m.cid (bits h 63 32) s
    | none =>
      let (g, s) := stamp { s with free := s.free + 1 }
      s.onFab fun f => { f with pkts := f.pkts ++ [{ m with gen := g }] }
  | none => s

/-- What a port has rebuilt from a header and its flits (R208, R209): a message or a memory request goes down the tree; the reply of a memory request
has been taken with its packet (log 115); any other class is reported. -/
def deliver (vc h : Nat) (fl : List Nat) (s : State) : State :=
  match headKind h with
  | none =>
    if bits h 107 104 = 4 then takeRequest vc h fl s
    else if bits h 107 104 = 5 || (s.ctx (bits h 75 64)).st == .free then s
    else s.push [.ctxFault (bits h 75 64)]
  | some k =>
    let m := msgOf s vc h fl k
    inject { m with path := downWay s m.cid m.dst, port := 2 } { s with free := s.free + 1 }

/-- The flits of a packet taken into its channel's buffer; a tail ends a message. -/
def takeFlits (q vc : Nat) (p : LinkPkt) : List Nat → List Nat → State → State
  | [], _, s => s
  | i :: r, fl, s =>
    match fl with
    | [] => s
    | f :: fr =>
      let w := welim s q
      let others := w.delivered.filter fun e => e.1 != vc
      let mine := (w.delivered.filter fun e => e.1 == vc).map fun e => e.2.2.2
      let mine := (if bit p.head i then [] else mine) ++ [f]
      let s := if bit p.tail i then deliver vc (mine.headD 0) mine.tail (setWelim q { w with delivered := others } s)
        else setWelim q { w with delivered := others ++ mine.map fun x => (vc, 0, 0, x) } s
      takeFlits q vc p r fr s

/-- WELIM_DATA_RECEIVE (R393): in order, delivered; ahead, NAK once; behind, ACK. -/
def execWelimDataReceive (port : Nat) (w : LinkPkt) (s : State) : Out :=
  .next (if w.ty ≠ 0 ∧ !badPkt w then s
  else heard port w (fun s =>
    let x := welim s port
    let d := (w.seq + 4096 - x.rxseq) % 4096
    if d = 0 then
      let n := w.flits.length
      let x := { x with rxseq := (x.rxseq + 1) % 4096, naked := false, unacked := x.unacked + 1, ackAt := if x.unacked = 0 then s.now else x.ackAt
                        back := vcSet x.back w.vc (vcAt x.back w.vc + n) }
      let s := takeFlits port w.vc w (List.range n) w.flits (setWelim port x s)
      if 32 ≤ (welim s port).unacked then sendCtl port 1 0 s else s
    else if d < 2048 then
      (if x.naked then s else sendCtl port 2 0 (setWelim port { x with naked := true } s))
    else sendCtl port 1 0 s) s)

/-- WELIM_ACK_RECEIVE (R393). -/
def execWelimAckReceive (port : Nat) (w : LinkPkt) (s : State) : Out :=
  .next (if w.ty ≠ 1 ∧ w.ty ≠ 6 then s else heard port w (fun s => s) s)

/-- Every outstanding packet sent again in SEQ order; REPLAYS counts each (R410). -/
def resend (q : Nat) (s : State) : State :=
  let w := welim s q
  if w.replay.isEmpty then s
  else setWelim q { w.replay.foldl (fun x p => emit p x) w with txAt := s.now, replays := Nat.min (w.replays + w.replay.length) 0xFFFF } s

/-! ## Lanes (R394 to R396, R401) -/

/-- The logical lanes of a width and its group (R400). -/
def widthLanes (width group : Nat) : List Nat :=
  if width = 3 then List.range 16
  else if width = 2 then (List.range 8).map (8 * (group % 2) + ·)
  else if width = 1 then (List.range 4).map (4 * group + ·)
  else []

/-- The physical lane that a logical lane rides. -/
def physLane (smap : Option Nat) (i : Nat) : Nat := if smap = some i then 16 else i

/-- The choice of R401 on the healthy physical lanes: the lane on S, the width and its group; width 0 where there is none. -/
def chooseWidth (ok : Nat → Bool) (smap : Option Nat) : Option Nat × Nat × Nat :=
  let smap := if smap.isSome || !ok 16 then smap else (List.range 16).find? fun i => !ok i
  let all (l : List Nat) : Bool := l.all fun i => ok (physLane smap i)
  if all (widthLanes 3 0) then (smap, 3, 0)
  else if all (widthLanes 2 1) then (smap, 2, 1)
  else if all (widthLanes 2 0) then (smap, 2, 0)
  else match (List.range 4).find? fun g => all (widthLanes 1 g) with
    | some g => (smap, 1, g)
    | none => (smap, 0, 0)

/-- The state of a port in use at its width. -/
def upState (width : Nat) : WSt := if width = 3 then .up else .degraded

/-- The waiting flits of messages that have been sent in part: from the front of each channel to the first head (R403); and the others, by
channel. -/
def partsOf (l : List LinkPkt) : List LinkPkt :=
  (List.range 4).flatMap fun vc => (l.filter fun p => p.vc == vc).takeWhile fun p => !bit p.head 0
def wholeOf (l : List LinkPkt) : List LinkPkt :=
  (List.range 4).flatMap fun vc => (l.filter fun p => p.vc == vc).dropWhile fun p => !bit p.head 0

/-- The headers of the messages that a port in failure loses (R403): those with a packet in the replay buffer, and those of which a part was
sent and acknowledged before the rest. -/
def lostHeads (w : Welim) : List Nat :=
  headsOf w.replay ++ (List.range 4).filterMap fun vc =>
    match ((w.replay ++ w.sendq).find? fun p => p.vc == vc) with
    | some p => if bit p.head 0 then none else (w.acking.find? fun e => e.1 == vc).map fun e => e.2
    | none => none

/-- Memory requests to homes on other devices whose packets are lost complete with FAULT reason 8 (R403). -/
def failFar (l : List Nat) (s : State) : State :=
  let lost (m : Pkt) : Bool := m.sent && l.contains m.gen && (m.st == .routed || m.st == .fenced || m.st == .answered)
  s.onFab fun f => { f with pkts := f.pkts.map fun m => if lost m then { m with st := .faulted, reason := 8 } else m }

/-- The ports that take what a failed port has not sent (R403): those of the hash, else those that may still train. -/
def heirs (s : State) : List Nat :=
  if (upPorts s).isEmpty then (s.ports.filter fun e => e.2.st != .failed && e.2.st != .down).map (·.1) else upPorts s

/-- A port Failed (R403): out of the hash; what was never sent goes through the ports left, or shares the fate of the replay buffer. -/
def failPort (q reason : Nat) (s : State) : State :=
  let w := welim s q
  let s := setWelim q { w with st := .failed, reason := reason, hashed := false, sendq := [], replay := [], swapLane := none, swapQ := none } s
  let s := failFar ((w.replay ++ partsOf w.sendq).flatMap (·.req)) ((lostHeads w).foldl loseMessage s)
  let whole := wholeOf w.sendq
  let l := heirs s
  if l.isEmpty then failFar (whole.flatMap (·.req)) ((headsOf whole).foldl loseMessage s)
  else
    let r := whole.foldl (fun (x : State × Nat) p =>
      let h := if bit p.head 0 then p.flits.headD 0 else x.2
      let t := l.getD ((if p.vc = 1 then Config.unstated 15 (s.picks + h) else Config.unstated 397 (bits h 31 0)) % l.length) 0
      (setWelim t { welim x.1 t with sendq := (welim x.1 t).sendq ++ [p] } x.1, h)) (s, 0)
    l.foldl (fun s t => flush t s) r.1

/-- The width of a port in Retrain, from the lanes that both ends hold locked (R400, R401); without one the port fails. -/
def retrainWidth (q : Nat) (s : State) : State :=
  let w := welim s q
  let c := chooseWidth (fun i => !NSet.mem w.lost i && bit w.rxok i && bit w.farRx i) w.smap
  let s := setWelim q { w with doneCnt := [], smap := c.1, width := c.2.1, group := c.2.2 } s
  if c.2.1 = 0 then failPort q 1 s else s

/-- A port goes to Retrain (R401, R402). -/
def enterRetrain (q : Nat) (s : State) : State :=
  let w := welim s q
  retrainWidth q (setWelim q { w with st := .retrain, retrains := Nat.min (w.retrains + 1) 0xFFFF, trainAt := s.now, swapLane := none, swapQ := none
                                      naks := [] } s)

/-- Whether a port is in service. -/
def inService (w : Welim) : Bool := w.st == .up || w.st == .degraded || w.st == .swap

/-- A lane lost (R401, R402): a port in service goes to Retrain; one in Retrain chooses again. -/
def loseLane (q lane : Nat) (s : State) : State :=
  let w := welim s q
  let s := setWelim q { w with lost := NSet.add w.lost lane, rxok := if bit w.rxok lane then w.rxok - 2 ^ lane else w.rxok } s
  if inService w then enterRetrain q s else if w.st == .retrain then retrainWidth q s else s

/-- LANE_LOSS (R401). -/
def execLaneLoss (port lane : Nat) (s : State) : Out := .next (if 16 < lane then s else loseLane port lane s)

/-- WELIM_NAK_RECEIVE (R393): resend; sixteen within 1 µs send the port to Retrain (R402). -/
def execWelimNakReceive (port : Nat) (w : LinkPkt) (s : State) : Out :=
  .next (if w.ty ≠ 2 then s else heard port w (fun s =>
    let x := welim s port
    let naks := (x.naks.filter fun t => decide (s.now < t + 1000)) ++ [s.now]
    let s := resend port (setWelim port { x with naks := naks } s)
    if 16 ≤ naks.length then enterRetrain port s else s) s)

/-- WELIM_REPLAY_TIMEOUT (R393). -/
def execWelimReplayTimeout (port : Nat) (s : State) : Out :=
  .next (let w := welim s port
  if sendsData w && !w.replay.isEmpty && decide (w.txAt + 5000 ≤ s.now) then resend port s else s)

/-- WELIM_ACK_TIMER (R393): an acknowledgement that is owed is sent. -/
def execWelimAckTimer (port : Nat) (s : State) : Out :=
  .next (let w := welim s port
  if sendsData w && decide (0 < w.unacked) then sendCtl port 1 0 s else s)

/-- Whether a lane crosses the thresholds of R394, as the configuration table gives them. -/
def weakLane (v : Service) (l : LaneSample) (i : Nat) : Bool :=
  decide (l.total * v.laneErr.1 < l.corr.getD i 0 * v.laneErr.2) || decide (l.margin.getD i 1000 < v.laneMargin)

/-- A swap begun (R395): SWAP names the logical lane. -/
def startSwap (q lane : Nat) (s : State) : State :=
  let w := welim s q
  sendCtl q 3 lane (setWelim q { w with st := .swap, swapLane := some lane, swapQ := none, swapAt := s.now, swapRep := s.now } s)

/-- Whether a sample finds a lane lost (R394): without signal or lock, or with uncorrectable codewords above 10^−8 of the codewords. -/
def sampleLost (l : LaneSample) (i : Nat) : Bool := l.lost.contains i || decide (l.words < l.uncorr.getD i 0 * 10 ^ 8)

/-- LANE_SAMPLE (R394): the lane log; lost lanes; the first weak logical lane of a port with S unused is swapped. -/
def execLaneSample (port : Nat) (l : LaneSample) (s : State) : Out :=
  .next (let w := welim s port
  if w.st == .down || w.st == .failed then s
  else
    let weak := (List.range 17).filter (weakLane s.svc l)
    let s := setWelim port { w with log := l, weak := NSet.addAll [] weak } s
    let s := ((List.range 17).filter fun i => sampleLost l i && !NSet.mem w.lost i).foldl (fun s i => loseLane port i s) s
    let w := welim s port
    if !(w.st == .up || w.st == .degraded) || w.smap.isSome || NSet.mem w.lost 16 then s
    else match (widthLanes w.width w.group).find? fun i => weak.contains i with
      | some i => startSwap port i s
      | none => s)

/-- SWAP_REPEAT (R396). -/
def execSwapRepeat (port : Nat) (s : State) : Out :=
  .next (let w := welim s port
  match w.swapLane with
  | some i =>
    if w.st == .swap && w.swapQ.isNone && decide (w.swapRep + 10000 ≤ s.now) then
      sendCtl port 3 i (setWelim port { w with swapRep := s.now } s)
    else s
  | none => s)

/-- SWAPACK_RECEIVE (R395, R396): one that names another lane is ignored. -/
def execSwapackReceive (port : Nat) (w : LinkPkt) (s : State) : Out :=
  .next (if w.ty ≠ 4 then s else heard port w (fun s =>
    let x := welim s port
    if x.st == .swap && x.swapLane == some (bits w.tstamp 4 0) && x.swapQ.isNone then setWelim port { x with swapQ := some (bits w.tstamp 27 16) } s
    else s) s)

/-- SWAP_CUTOVER (R395): once packet q has gone out, the logical lane rides S, and the port is Up at ×16 as the table of R402 has it. -/
def execSwapCutover (port : Nat) (s : State) : Out :=
  .next (let w := welim s port
  match w.swapLane, w.swapQ with
  | some i, some q =>
    if w.st == .swap && decide ((w.txseq + 4095 - q) % 4096 < 2048) then
      setWelim port { w with st := .up, width := 3, group := 0, smap := some i, swapLane := none, swapQ := none } s
    else s
  | _, _ => s)

/-- SWAP_TIMEOUT (R395). -/
def execSwapTimeout (port : Nat) (s : State) : Out :=
  .next (let w := welim s port
  if w.st == .swap && decide (w.swapAt + 200000 ≤ s.now) then enterRetrain port s else s)

/-! ## Training (R399, R400, R402) -/

/-- RETRAIN_TIMEOUT (R402). -/
def execRetrainTimeout (port : Nat) (s : State) : Out :=
  .next (let w := welim s port
  if w.st == .retrain && decide (w.trainAt + 40000 ≤ s.now) then failPort port 2 s else s)

/-- TRAIN_TIMEOUT (R402). -/
def execTrainTimeout (port : Nat) (s : State) : Out :=
  .next (let w := welim s port
  if w.st == .train && decide (w.trainAt + 2000000 ≤ s.now) then failPort port 3 s else s)

/-- The link delay that a set shows on its lane (R400); a set whose sender has received none yet shows none. -/
def setDelay (s : State) (t : TrainSet) : Nat :=
  let m := 2 ^ 32
  let d := (s.gtime % m + m - t.techo % m + m - (t.ttx % m + m - t.trxe % m) % m) % m
  d / 2

/-- The byte WIDTH and the byte SMAP of R400. -/
def widthByte (w : Welim) : Nat := w.width + 4 * w.group
def smapByte (w : Welim) : Nat := match w.smap with | some i => i + 128 | none => 0

/-- The bytes 0 to 35 of a training set (R400). -/
def trainBytes (t : TrainSet) : List Byte :=
  natLe 4 t.magic ++ natLe 1 t.lane ++ natLe 1 t.phase ++ natLe 2 t.vers ++ natLe 2 t.chosen ++ natLe 3 t.rxok ++ natLe 1 t.width ++ natLe 1 t.smap
    ++ natLe 1 0 ++ (List.range 4).flatMap (fun i => natLe 2 (t.credit.getD i 0)) ++ natLe 4 t.ttx ++ natLe 4 t.techo ++ natLe 4 t.trxe

/-- Whether a training set is taken (R400): its CRC, its MAGIC and its PHASE. -/
def goodSet (t : TrainSet) : Bool := t.crc == crc32 (trainBytes t) && t.magic == 0x57544C53 && decide (t.phase ≤ 2)

/-- The set that a port sends, back to back, on a physical lane in training (R400): DETECT, then CONFIG once a choice is made, and the
choice repeated in DONE once the far end has adopted it; the credits are the receiver's 512 flits for each channel (R397). -/
def sentSet (s : State) (q lane : Nat) : TrainSet :=
  let w := welim s q
  let chosen := w.width != 0
  let e := FMap.get (0, 0) w.echo lane
  let t : TrainSet := { lane := lane, phase := if !chosen then 0 else if w.doneCnt.isEmpty then 1 else 2, vers := 2, chosen := if chosen then w.version else 0, rxok := w.rxok,
                        width := if chosen then widthByte w else 0, smap := if chosen then smapByte w else 0, credit := [512, 512, 512, 512]
                        ttx := s.gtime % 2 ^ 32, techo := e.1, trxe := e.2 }
  { t with crc := crc32 (trainBytes t) }

/-- TRAIN SEND: a port in training sends a set on a physical lane (R400). -/
def trainSend (q lane : Nat) (s : State) : State :=
  let w := welim s q
  if lane ≤ 16 && (w.st == .detect || w.st == .train || w.st == .retrain) then setWelim q { w with sets := w.sets ++ [sentSet s q lane] } s else s

/-- DETECT sets: the locked lanes, the far end's versions, and the device's choice once a width can be had (R400 steps 1 and 2). -/
def detectSet (q : Nat) (t : TrainSet) (w : Welim) (s : State) : State :=
  let own := Nat.lor w.rxok (2 ^ t.lane)
  let w := { w with rxok := own, farRx := t.rxok % 2 ^ 17, vers := t.vers }
  let n := ((List.range 17).filter fun i => bit own i).length
  if w.st == .detect then
    setWelim q (if 4 ≤ n then { w with st := .train, trainAt := s.now } else w) s
  else if !bit t.vers 1 then failPort q 4 (setWelim q w s)
  else
    let both := Nat.land own t.rxok
    let c := chooseWidth (fun i => bit both i) none
    setWelim q (if c.2.1 = 0 then w else { w with version := 1, smap := c.1, width := c.2.1, group := c.2.2 }) s

/-- DONE sets: sixteen in a row with the choice on every lane of the width bring the port up (R400 step 3). -/
def doneSet (q : Nat) (t : TrainSet) (w : Welim) (s : State) : State :=
  let same := t.chosen == w.version && t.width == widthByte w && t.smap == smapByte w && w.width != 0
  let w := { w with doneCnt := FMap.put w.doneCnt t.lane (if same then FMap.get 0 w.doneCnt t.lane + 1 else 0) }
  let lanes := (widthLanes w.width w.group).map (physLane w.smap)
  if same && lanes.all fun i => decide (16 ≤ FMap.get 0 w.doneCnt i) then
    let again := w.st == .retrain
    let w := { w with st := upState w.width, credits := t.credit, doneCnt := [], hashed := true, txAt := s.now }
    let s := setWelim q w s
    flush q (if again then resend q s else s)
  else setWelim q w s

/-- TRAINING_SET_RECEIVE (R400): a bad one is ignored; in Retrain the far end's RXOK takes part in the choice. -/
def execTrainingSetReceive (port : Nat) (t : TrainSet) (s : State) : Out :=
  .next (let w := welim s port
  if !goodSet t || decide (16 < t.lane) || !(w.st == .detect || w.st == .train || w.st == .retrain) then s
  else
    let w := { w with delay := if t.techo = 0 ∧ t.trxe = 0 then w.delay else Nat.max w.delay (setDelay s t), echo := FMap.put w.echo t.lane (t.ttx, s.gtime % 2 ^ 32) }
    if w.st == .retrain && w.farRx != t.rxok % 2 ^ 17 then retrainWidth port (setWelim port { w with farRx := t.rxok % 2 ^ 17 } s)
    else if t.phase = 0 then (if w.st == .retrain then s else detectSet port t w s)
    else if t.phase = 2 ∧ w.st != .detect then doneSet port t w s
    else setWelim port w s)

/-! ## Time (R398) -/

/-- SYNC_RECEIVE (R398): GTIME follows TSTAMP with the link's delay. -/
def execSyncReceive (port : Nat) (w : LinkPkt) (s : State) : Out :=
  .next (if w.ty ≠ 5 then s else heard port w (fun s =>
    let g := (w.tstamp + (welim s port).delay + 2 ^ 64 - s.now % 2 ^ 64) % 2 ^ 64
    { s with svc := { s.svc with gbase := g, synced := true, syncAt := s.now } }) s)

/-- SYNC_LOSS (R398). -/
def execSyncLoss (s : State) : Out :=
  .next (if s.svc.synced ∧ s.svc.syncAt + 100000000 ≤ s.now then { s with svc := { s.svc with synced := false } } else s)

/-! ## Requests of function 0 and the status words (R402, R410) -/

/-- Whether function 0 may send a port to Down (R402): from Failed and from Degraded. -/
def mayDisable (w : Welim) : Bool := w.st == .failed || w.st == .degraded

/-- A port disabled: Down once its replay buffer is empty. -/
def portDown (q : Nat) (s : State) : Option State :=
  let w := welim s q
  if w.st == .down then some s
  else if !w.replay.isEmpty then none
  else some (setWelim q { retrains := w.retrains, replays := w.replays, crcErr := w.crcErr, sendq := w.sendq } s)

/-- A port enabled: Detect. -/
def portEnable (q : Nat) (s : State) : State :=
  let w := welim s q
  if w.st == .down then setWelim q { w with st := .detect } s else s

/-- The number of a state in WLSTAT. -/
def wstNum : WSt → Nat
  | .down => 0
  | .detect => 1
  | .train => 2
  | .up => 3
  | .swap => 4
  | .retrain => 5
  | .degraded => 6
  | .failed => 7

/-- WLSTAT (R410). -/
def wlstat (s : State) (q : Nat) : Nat :=
  let w := welim s q
  w.retrains * 2 ^ 48 + w.replays * 2 ^ 32 + w.version * 2 ^ 16 + (w.smap.getD 0) * 2 ^ 8 + b2n w.smap.isSome * 2 ^ 7 + w.width * 2 ^ 4 + wstNum w.st

end Sys2Proof.Machine
end

