-- ==== Sys2Proof/Machine/Host.lean ====
section
/-!
DEFINITION. Sys2Proof/Machine/Host.lean: the PCI Express endpoint and the Ultra Ethernet ports (R404 to R413), and the replies of memory
requests (R280, R284).
-/

namespace Sys2Proof.Machine

/-! ## Replies (R280, R284, R309, R411) -/

/-- A host access ends: a read's bytes go to the host, or none of them as Unsupported Request; a fault is noted in the ring. -/
def hostReply (m : Pkt) (s : State) : State :=
  let bad := m.st == .faulted
  let s := if isRead m.kind then
      let d := if bad then [] else Mem.bytes m.reply 0 m.len
      { s with svc := { s.svc with hostReplies := s.svc.hostReplies ++ [(m.seq * 2 ^ 16 + m.idx, d)] } }
    else s
  if bad then ringMem m.cid m.reason m.va s else s

/-- A request of a UE port ends: its reply leaves by the port. -/
def ueReply (m : Pkt) (s : State) : State :=
  let d := if isRead m.kind && m.st != .faulted then Mem.bytes m.reply 0 m.len else []
  { s with svc := { s.svc with ueReplies := s.svc.ueReplies ++ [(m.place % 16, m.slot, d)] } }

/-- A finished request of the endpoint, of a UE port or of another device, of some kinds. -/
def foreign (s : State) (n : Nat) (ok : RKind → Bool) : Option Pkt :=
  (elemAt s.fab.pkts n).filter fun m => ok m.kind && !unperformed m && decide (2 ^ 33 ≤ m.place)

/-- A request of another device ends: its reply goes up the tree and stands before the port of its hash in the reply channel (R209), unless a port on
its way discards it (R17). -/
def farReply (n : Nat) (m : Pkt) (s : State) : State :=
  let home := homePlace s m m.sh m.w0 m.loc
  let src := m.place % 2 ^ 32
  match upPortOf s 2 src with
  | none => if linkLeft s then s else dropPkt n s
  | some u =>
    match stopPort s.fab (wayUp s.svc.bw s.svc.rw 4 home ++ [portOfPlace (welimPlace s.dev u)]) m.cid false with
    | some q => isolateAt q m.cid home (dropPkt n s)
    | none => putFlits u (waitingFlits 2 [] (requestHeader 5 m.cid home src m.gen :: byteFlits (Mem.bytes m.reply 0 m.len))) (dropPkt n s)

/-- Its reply, unless a port on its way discards it (R17). -/
def foreignReply (n : Nat) (m : Pkt) (s : State) : State :=
  if 2 ^ 35 ≤ m.place then farReply n m s
  else match stopPort s.fab (replyPorts s m) m.cid false with
  | some q => isolateAt q m.cid (homePlace s m m.sh m.w0 m.loc) (dropPkt n s)
  | none => if m.place = hostParty then hostReply m (dropPkt n s) else ueReply m (dropPkt n s)

/-- Kinds of request that MEMORY_REPLY answers. -/
def plainKind (k : RKind) : Bool := k == .get || k == .getd || k == .put || k == .putd || k == .posted

/-- MEMORY_REPLY (R280): a reply to GET, PUT, their 2-D forms or a posted atomic, or to an access from outside. -/
def execMemoryReply (n : Nat) (s : State) : Out :=
  .next (match replyFor s n plainKind with
  | some (p, m) => takeReply n m (fun s =>
    match requestOf s p m with
    | some _ => endPkt p m.slot m (if isRead m.kind then takeBytes p m s else s)
    | none => s) s
  | none =>
    match foreign s n plainKind with
    | some m => foreignReply n m s
    | none => s)

/-- ATOMIC_REPLY (R284): the stalled bundle completes with the old value. One whose request faulted completes with a value that the
spec does not state (log 6), and MEM_FAULT follows at the boundary. -/
def execAtomicReply (n : Nat) (s : State) : Out :=
  .next (match replyFor s n (· == .fetch) with
  | some (p, m) => takeReply n m (fun s =>
    match requestOf s p m with
    | some _ =>
      let (c, s) := s.takeFree
      let v := if m.st == .faulted then Config.unstated 284 c else fetched m
      let s := wakeVal p (fun w => match w with | .atomic j => if j = m.slot then some v else none | _ => none) s
      endPkt p m.slot m s
    | none => s) s
  | none =>
    match foreign s n (· == .fetch) with
    | some m => foreignReply n m s
    | none => s)

/-! ## BAR2 (R411) -/

/-- An aperture map entry of a function. -/
def apertureOf (s : State) (f j : Nat) : Aperture := FMap.get {} s.svc.apertures (f * 64 + j)

/-- The two words of an entry. -/
def apertureWord (a : Aperture) (k : Nat) : Nat := if k = 0 then b2n a.v * 2 ^ 63 + a.va else b2n a.err * 2 ^ 63 + a.cid

/-- The packets of a host access, one for each piece that R277 cuts. -/
def hostPkts (s : State) (a : Aperture) (h : HostAcc) : List Pkt :=
  let va := a.va + h.off % 2 ^ 30
  let n := if h.write then h.data.length else h.len
  let l := cutRange va n
  (List.range l.length).zip l |>.map fun e =>
    let d := if h.write then (h.data.drop (e.2.1 - va)).take e.2.2 else []
    { place := hostParty, seq := s.svc.hostSeq, idx := e.1, cid := a.cid, kind := if h.write then .put else .get, va := e.2.1
      off := e.2.1 - va, len := e.2.2, data := d, read := true }

/-- BAR2_ACCESS (R309, R373, R411): an access in a mapped slot of a context that the function owns becomes a station request; any other
completes as Unsupported Request. -/
def execBar2Access (h : HostAcc) (s : State) : Out :=
  .next (let a := apertureOf s h.func h.slot
  let seq := s.svc.hostSeq
  let y := { s with svc := { s.svc with hostSeq := seq + 1 } }
  if 64 ≤ h.slot ∨ a.v = false ∨ (s.ctx a.cid).st = .free ∨ (s.ctx a.cid).func ≠ h.func then
    if h.write then y else { y with svc := { y.svc with hostReplies := y.svc.hostReplies ++ [(seq * 2 ^ 16, [])] } }
  else y.onFab fun f => { f with pkts := f.pkts ++ hostPkts s a h })

/-- The mapped pages of a context that meet a range. -/
def pagesIn (s : State) (cid va n : Nat) : List Nat :=
  ((leavesOf s cid).filter fun e => rangesMeet e.1 (2 ^ e.2.1) va n).map fun e => e.1

/-- An entry of a function's aperture map written (R411, R293): one that names a foreign CID gets ERR and V = 0; the pages behind a mapped slot are
pinned. -/
def setAperture (f j w0 w1 : Nat) (s : State) : State :=
  if 64 ≤ j ∨ 64 ≤ f then s
  else
    let old := apertureOf s f j
    let src := 1000 + f * 64 + j
    let s := if old.v then unpin old.cid src (fun _ => true) s else s
    let cid := bits w1 11 0
    let va := bits w0 55 30 * 2 ^ 30
    let own := (s.ctx cid).st != .free && (s.ctx cid).func == f
    let a : Aperture := { v := bit w0 63 && own, va := va, err := !own, cid := cid }
    let s := { s with svc := { s.svc with apertures := FMap.put s.svc.apertures (f * 64 + j) a } }
    if a.v then pinPages cid src (pagesIn s cid va (2 ^ 30)) s else s

/-- APERTURE_MAP_WRITE (R411). Before the boot has ended and in Recovery the map is not there (R414, R418). -/
def execApertureMapWrite (f j w0 w1 : Nat) (s : State) : Out := .next (if s.svc.boot = .ready then setAperture f j w0 w1 s else s)

/-- IDE_KM_REQUEST (R408): the keys of the link stream. -/
def execIdeKmRequest (key : Nat) (s : State) : Out := .next { s with svc := { s.svc with idekey := some key } }

/-! ## Ultra Ethernet (R404 to R407) -/

/-- The kind of message that a UE packet carries. -/
def ueKind (u : UePkt) : Option MKind :=
  match u.cls with
  | 0 => some .eager
  | 1 => some .rts
  | 2 => some .cts
  | 3 => some .data
  | 5 => match u.rkind with | 0 => some .eack | 1 => some .poolFull | 2 => some .rack | 3 => some .dack | _ => none
  | 7 => match u.rkind with | 0 => some .chunk | 2 => some .abort | _ => none
  | _ => none

/-- A UE packet discarded and counted (R405, R406). -/
def ueDiscard (u : UePkt) (s : State) : State :=
  let q := portOfPlace (uePlace s.dev (u.port % 8))
  s.onFab fun f => { f with isolation := FMap.put f.isolation q (FMap.get 0 f.isolation q + 1) }

/-- The message of a UE packet under a CID, on its way from the port to its tile, or to the engine of the tile's die (R341). -/
def ueMsg (s : State) (u : UePkt) (cid : Nat) (k : MKind) : Msg :=
  let q := physPlace s cid u.dst
  { kind := k, cid := cid, src := u.src % 2 ^ 32 + 2 ^ 32 * (u.port % 8 + 1), dst := u.dst, grp := u.grp, srank := u.rank, tag := u.tag, len := u.len
    acc := u.acc, off := u.off, handle := u.handle, sdesc := u.sdesc, resume := u.resume, payload := u.payload, stime := s.gtime % 2 ^ 32
    num := u.num, chunk := u.chunk, port := if k == .abort then 1 else 0
    path := pathOf s.svc.bw s.svc.rw (uePlace s.dev (u.port % 8)) (if u.cls = 7 then engineOf q else q) }

/-- The memory requests of a UE packet (R404): 0 a read, 1 a write, 2 a fetch atomic, 3 a posted one. -/
def uePkts (u : UePkt) (cid seq : Nat) : List Pkt :=
  let base : Pkt := { place := ueParty (u.port % 8), slot := u.handle, seq := seq, cid := cid, read := true, va := u.va, len := u.len }
  let number (l : List Pkt) : List Pkt := (List.range l.length).zip l |>.map fun e => { e.2 with idx := e.1 }
  let opd (i : Nat) : Nat := leNat ((u.payload.drop (u.len * i)).take u.len)
  match u.rkind with
  | 0 => number ((cutRange u.va u.len).map fun e => { base with kind := .get, va := e.1, off := e.1 - u.va, len := e.2 })
  | 1 => number ((cutRange u.va u.payload.length).map fun e =>
      { base with kind := .put, va := e.1, off := e.1 - u.va, len := e.2, data := (u.payload.drop (e.1 - u.va)).take e.2 })
  | k =>
    if (u.len == 4 || u.len == 8) && u.va % u.len == 0 && decide (16 ≤ u.op) && decide (u.op ≤ 26) && u.op != 24 then
      [{ base with kind := if k = 2 then .fetch else .posted, op := u.op, w := u.len == 4, b := opd 0, c := opd 1 }]
    else []

/-- UE_PACKET_RECEIVE (R405, R406): taken under the CID that the job map gives its destination, or discarded and counted. -/
def execUePacketReceive (u : UePkt) (s : State) : Out :=
  .next (match s.svc.jobs.find? fun e => e.1 == u.job * 4096 + u.pid with
  | none => ueDiscard u s
  | some (_, cid) =>
    if u.cls = 4 then
      match uePkts u cid s.svc.hostSeq with
      | [] => ueDiscard u s
      | l => { s with svc := { s.svc with hostSeq := s.svc.hostSeq + 1 }, fab := { s.fab with pkts := s.fab.pkts ++ l } }
    else match ueKind u with
    | none => ueDiscard u s
    | some k => if (s.ctx cid).tiles.contains u.dst then inject (ueMsg s u cid k) s else ueDiscard u s)

end Sys2Proof.Machine
end

