-- ==== Sys2Proof/Machine/YokeUnit.lean ====
section
/-!
DEFINITION. Sys2Proof/Machine/YokeUnit.lean: the yoke (R311 to R326): forming, the blocks of the window and their registers, commit
and the end.
-/

namespace Sys2Proof.Machine

/-! ## Forming (R311 to R314) -/

/-- The number of a tile in its cluster: PLACE[3:0]. -/
def tileNo (s : State) (p : Nat) : Nat := s.placeOf p % 16

/-- Non-zero zero fields of the member word and of the share word (R311). -/
def yokeZero (a b : Nat) : Bool := bits a 63 48 != 0 || bits a 31 16 != 0 || bits b 63 53 != 0 || bits b 31 21 != 0

/-- The number of members that a mask names for a leader with number `l`: 2, 4, 8 or 16 consecutive tiles from a multiple of n,
the leader lowest (R312). -/
def yokeSize (mask l : Nat) : Option Nat := [2, 4, 8, 16].find? fun n => mask == (2 ^ n - 1) * 2 ^ l && l % n == 0

/-- Whether a share obeys R311. -/
def shareOk (base size : Nat) : Bool :=
  size % 65536 == 0 && decide (65536 ≤ size) && decide (size ≤ 2 ^ 20) && base % 65536 == 0 && decide (base + size ≤ 2 ^ 21)

/-- The leader Forming, with a join request at every other member (R312, R314). -/
def formYoke (p n a b : Nat) (s : State) : State :=
  let l := tileNo s p
  let s := s.onTile p fun t => { t with yk := {
    st := .forming, leader := l, n := n, mask := bits a 15 0, base := bits b 52 32, size := bits b 20 0, tmo := bits a 47 32, since := s.clk } }
  let ms := yokeMembers s p n
  let s := ms.foldl (fun s q => s.onTile q fun t => { t with pend := { t.pend with join := t.pend.join.filter (· != p) ++ [p] } }) s
  s.push (ms.map fun q => Agent.joins q)

/-- Whether two ranges of bytes share one. -/
def overlap (a n b m : Nat) : Bool := decide (a < b + m) && decide (b < a + n)

/-- Whether the join timeout of the yoke that tile `p` forms has passed (R312). -/
def joinLate (s : State) (p : Nat) : Bool := let y := (s.tile p).yk; decide (y.since + y.tmo * 1024 ≤ s.clk)

/-- Whether cause `c` of R312 holds for member `k` of the yoke that tile `p` forms. -/
def joinCause (s : State) (p c k : Nat) : Bool :=
  let y := (s.tile p).yk
  let t := s.tile (yokeTile s p k)
  if c = 1 then
    t.pend.save || t.pend.stop || t.pend.gate
      || (k != 0 && t.life != .reset && if NSet.mem y.joined k then t.life != .member
          else t.life != .idle && t.life != .running && !(t.life == .member && t.yk.st == .single))
  else if c = 2 then t.sys.imgid != (s.tile p).sys.imgid
  else if c = 3 then k != 0 && t.life == .running && joinLate s p
  else overlap y.base y.size t.sys.trbase.toNat t.sys.trsize.toNat

/-- The members for which a cause holds, as a mask of tile numbers. -/
def causeMask (s : State) (p c : Nat) : Nat :=
  let y := (s.tile p).yk
  (List.range y.n).foldl (fun m k => if joinCause s p c k then m + 2 ^ (y.leader + k) else m) 0

/-- The lowest status whose cause holds for some member, with its members (R312). -/
def joinFail (s : State) (p : Nat) : Option (Nat × Nat) :=
  ([1, 2, 3, 4].find? fun c => causeMask s p c != 0).map fun c => (c, causeMask s p c)

/-- The status word of a failed formation (R312). -/
def failWord (f : Nat × Nat) : Nat := f.1 + f.2 * 2 ^ 16

/-- YOKE (R311, R312): outside Single it raises YOKE STATE (R324); else the bundle waits for the formation to end, which is at once where
a cause of failure holds already. -/
def execYoke (x : R) (s : State) : Out :=
  .next (guarded x.g x.n (fun s =>
    match wokenVal s with
    | some v => wg x.d (BitVec.ofNat 64 v) s
    | none =>
      let a := (rg s x.a).toNat
      let b := (rg s x.b).toNat
      unlessState (s.t.bun.blk.isSome || s.t.yk.st != .single) [(yokeZero a b, tr cIllegalOp)] (fun s =>
        match yokeSize (bits a 15 0) (tileNo s s.cur) with
        | none => wg x.d 4 s
        | some n =>
          if shareOk (bits b 52 32) (bits b 20 0) then
            let s' := formYoke s.cur n a b s
            match joinFail s' s.cur with
            | some f => wg x.d (BitVec.ofNat 64 (failWord f)) (endYoke s.cur s')
            | none => stall .yoke s'
          else wg x.d 4 s) s) s)

/-- UNYOKE (R326): in a block it acts when the block commits, and stands in the last bundle (R324); in a Yoked leader that has not
yet reached a header it ends the yoke at once; in Single state it gives 1. -/
def execUnyoke (x : R) (s : State) : Out :=
  .next (guarded x.g x.n (fun s =>
    match s.t.bun.blk with
    | some b => checked [(!b.last, yokeTrap 4)] (fun s =>
        wg x.d 0 (s.onT fun t => { t with bun := { t.bun with blk := t.bun.blk.map fun b => { b with leave := true } } })) s
    | none => if s.t.yk.st == .single then wg x.d 1 s else endYoke s.cur (wg x.d 0 s)) s)

/-- BLKH (R315): the block is read when it starts; as a syllable it does nothing (R40). -/
def execBlkh (_ : L) (s : State) : Out := .next s

/-- BLKV (R315). -/
def execBlkv (_ : L) (s : State) : Out := .next s

/-- The formation ended in failure: the members are released and the YOKE bundle gets its status. -/
def failForm (p : Nat) (f : Nat × Nat) (s : State) : State :=
  wakeVal p (fun w => if w == .yoke then some (failWord f) else none) (endYoke p s)

/-- The failure of the yoke that tile `l` forms when its member `k` ends its task after the timeout: it was still Running then. -/
def lateFail (s : State) (l k : Nat) : Nat × Nat :=
  match joinFail s l with
  | some (c, m) => if c < 3 then (c, m) else (3, Nat.lor (causeMask s l 3) (2 ^ ((s.tile l).yk.leader + k)))
  | none => (3, 2 ^ ((s.tile l).yk.leader + k))

/-- Tile `p` joins the yoke that tile `l` forms (R312). -/
def joinYoke (p l : Nat) (s : State) : State :=
  let y := (s.tile l).yk
  let k := tileNo s p - y.leader
  let s := s.onTile p fun t => { t with life := .member, pend := { t.pend with join := t.pend.join.filter (· != l) },
                                        yk := { st := .yoked, leader := y.leader, idx := k, n := y.n } }
  s.onTile l fun t => { t with yk := { t.yk with joined := NSet.add t.yk.joined k } }

/-- MEMBER_JOIN (R312, R314): the member joins at its task boundary, or at once when Idle; of several leaders the first to ask has it. The
request of a leader that no longer forms lapses. -/
def execMemberJoin (p : Nat) (s : State) : Out :=
  .next (let t := s.tile p
  let live := t.pend.join.filter fun l => (s.tile l).yk.st == .forming
  let s := if live.length = t.pend.join.length then s else s.setTile p { t with pend := { t.pend with join := live } }
  match live with
  | [] => if t.life == .member && t.yk.st == .single && !t.pend.join.isEmpty then boundary p s else s
  | l :: _ =>
    if t.life == .member && t.yk.st == .single && joinLate s l then failForm l (lateFail s l (tileNo s p - (s.tile l).yk.leader)) s
    else if t.life == .idle || (t.life == .member && t.yk.st == .single) then joinYoke p l s
    else s)

/-- YOKE_FORMATION_END (R312, R313, R443): a failure other than a timeout, or OK once every member has joined: Yoked, the predictors
cleared. -/
def execYokeFormationEnd (p : Nat) (s : State) : Out :=
  .next (let t := s.tile p
  if t.yk.st != .forming then s
  else match joinFail s p with
    | some f => if f.1 = 3 then s else failForm p f s
    | none =>
      if (List.range (t.yk.n - 1)).all fun i => NSet.mem t.yk.joined (i + 1) then
        wakeVal p (fun w => if w == .yoke then some 0 else none)
          (s.setTile p { t with yk := { t.yk with st := .yoked, pred := [], win := [], blocks := false } })
      else s)

/-- The formation that tile `p` leads ended by the cause of failure that holds now, if there is one (R312). -/
def endForm (s : State) (p : Nat) : State :=
  match (s.tile p).yk.st == .forming, joinFail s p with
  | true, some f => failForm p f s
  | _, _ => s

/-- Every formation ends in the first cycle in which a cause of failure holds for it (R312). -/
def endForms (s : State) : State := (s.tiles.map (·.1)).foldl endForm s

/-- YOKE_JOIN_TIMEOUT (R312). -/
def execYokeJoinTimeout (p : Nat) (s : State) : Out :=
  .next (if (s.tile p).yk.st != .forming then s
  else match joinFail s p with
    | some f => if f.1 = 3 then failForm p f s else s
    | none => s)

/-! ## Blocks (R315 to R318) -/

/-- The member on which the block with header address `w` runs (R317). -/
def blkMember (n w : Nat) : Nat := Nat.xor (bits w 4 0) (Nat.xor (bits w 9 5) (bits w 14 10)) % n

/-- Whether the bundle at an address opens with BLKH. -/
def opensBlock (t : Tile) (a : Nat) : Bool :=
  decide (a ≤ 0x7FFF) && match (syllables t a).1 with | w :: _ => isBlkh w.1 | [] => false

/-- The first addresses of `n` consecutive bundles, and the address after them. -/
def bundlesFrom (t : Tile) (a : Nat) : Nat → List Nat × Nat
  | 0 => ([], a)
  | n + 1 => let r := bundlesFrom t (a + bundleLen t a) n; (a :: r.1, r.2)

/-- A backward branch's target, for a cleared predictor entry (R443): formats BR and BRG by their words (R84). -/
def backTarget (a : Nat) (w : Nat × Nat) : Option Nat :=
  let k := bits w.1 22 19
  let off := if k < 2 then sext w.1 19 else sext w.1 14
  if bits w.1 30 27 = 3 ∧ k < 4 ∧ off < 0 then some ((a : Int) + off).toNat else none

/-- What a cleared predictor entry predicts for a block whose last bundle lies at `a` (R443). -/
def clearedPred (t : Tile) (a : Nat) : Nat := ((syllables t a).1.findSome? (backTarget a)).getD (a + bundleLen t a)

/-- S syllables other than BLKH and BLKV (R62, R324). -/
def isS (w : Nat × Nat) : Bool := bits w.1 30 27 == 13

/-- A block at its start (R315, R316, R324); one that runs past 0x7FFF starts with its trap. The p and q registers that it names are
found by its member's first move. -/
def newBlock (t : Tile) (n w : Nat) : Blk :=
  let hs := (syllables t w).1
  let h := hs.getD 0 (0, 0)
  let v := hs.getD 1 (0, 0)
  let count := bits h.1 13 10 + 1
  let bs := bundlesFrom t w count
  { hdr := w, count := count, gmask := h.2 / 2 * 2, vmask := if isBlkv v.1 then v.2 else 0, pc := w, sys := t.sys,
    pred := some (FMap.get (clearedPred t (bs.1.getLastD w)) t.yk.pred (512 * blkMember n w + w % 512)),
    serial := bs.1.any fun a => (syllables t a).1.any isS,
    trap := if 0x8000 < bs.2 then some (0, { cause := cIllegalBundle, sub := 5 * 256 }) else none }

/-- The p and q registers that a block's syllables name as destinations (R319). -/
noncomputable def blkDests (t : Tile) (b : Blk) : List Nat :=
  ((bundlesFrom t b.hdr b.count).1.flatMap fun a => (syllables t a).1).flatMap fun w =>
    (usesOf w).wr.filter fun r => (decide (32 < r) && decide (r < 40)) || (decide (128 < r) && decide (r < 136))

/-- BLOCK_START (R317, R318, R324): the member of the next header address holds a free window place, and no block in the window is
serial. -/
def execBlockStart (p : Nat) (s : State) : Out :=
  .next (let t := s.tile p
  let y := t.yk
  let m := blkMember y.n y.nextHdr
  if t.life != .running || y.st != .yoked || !y.blocks || !opensBlock t y.nextHdr || y.win.any (fun b => b.serial || b.ends != 0)
    || decide (4 ≤ (y.win.filter fun b => blkMember y.n b.hdr == m).length) then s
  else
    let b := newBlock t y.n y.nextHdr
    s.setTile p { t with yk := { y with win := y.win ++ [b], nextHdr := b.pred.getD 0 } })

/-! ## Registers of blocks (R319, R320); registers are numbered as in Uses.lean -/

/-- Whether a block writes a register (R319). -/
def blkWrites (b : Blk) (r : Nat) : Bool :=
  if r < 32 then bit b.gmask r
  else if 64 ≤ r ∧ r < 96 then bit b.vmask (r - 64)
  else NSet.mem b.dp r

/-- One register copied. -/
def copyReg (r : Nat) (a b : Regs) : Regs :=
  if r < 32 then { b with g := FMap.put b.g r (FMap.get 0 a.g r) }
  else if r < 40 then { b with p := FMap.set false b.p (r - 32) (NSet.mem a.p (r - 32)) }
  else if r < 128 then { b with v := (List.range 16).foldl (fun m i => FMap.put m (16 * (r - 64) + i) (FMap.get 0 a.v (16 * (r - 64) + i))) b.v }
  else { b with q := FMap.put b.q (r - 128) (FMap.get 0 a.q (r - 128)) }

/-- The registers that travel: g1–g31, p1–p7, v0–v31, q1–q7. -/
def ringRegs : List Nat :=
  ((List.range 31).map (· + 1)) ++ ((List.range 7).map (· + 33)) ++ ((List.range 32).map (· + 64)) ++ ((List.range 7).map (· + 129))

/-- The value of a register that block `k` receives (R319): from the youngest older block in flight that writes it, once that block
has finished and holds it; else from its home. -/
def incoming (t : Tile) (k r : Nat) : Option Regs :=
  if (t.yk.win.take k).any fun b => !b.read then none
  else match ((t.yk.win.take k).filter fun b => blkWrites b r).getLast? with
  | none => some t.regs
  | some b => if b.done && b.trap.isNone && NSet.mem b.arr r then some b.regs else none

/-- A block of the window changed. -/
def onBlk (p k : Nat) (f : Blk → Blk) (s : State) : State :=
  s.onTile p fun t => match elemAt t.yk.win k with | some b => { t with yk := { t.yk with win := setAt t.yk.win k (f b) } } | none => t

/-- A register's value taken by a block. -/
def takeReg (r : Nat) (a : Regs) (b : Blk) : Blk := { b with regs := copyReg r a b.regs, arr := NSet.add b.arr r }

/-- OPERAND_ARRIVAL (R319): register `r` arrives at block `b` of the window. -/
def execOperandArrival (p b r : Nat) (s : State) : Out :=
  .next (let t := s.tile p
  match elemAt t.yk.win b, incoming t b r with
  | some x, some v => if NSet.mem x.arr r || !ringRegs.contains r then s else onBlk p b (takeReg r v) s
  | _, _ => s)

/-- What block 0 has not received comes from the homes: every older block has committed. -/
def fillHome (t : Tile) (b : Blk) : Blk := ringRegs.foldl (fun b r => if NSet.mem b.arr r then b else takeReg r t.regs b) b

/-- The registers that a bundle needs before it executes. -/
noncomputable def blkNeeds (l : List (Nat × Nat)) : List Nat :=
  (l.flatMap fun w => (usesOf w).rd ++ (usesOf w).wr).filter fun r => ringRegs.contains r

/-! ## The bundles of a block -/

/-- A tile's bytes with the waiting stores of a list on top. -/
def overSram (p : Nat) (l : List Eff) (t : Tile) : Tile :=
  l.foldl (fun t e => match e with
    | .write q ps fe => if q = p then t.writeAll ps fe false else t
    | .full q k v => if q = p then { t with full := FMap.set false t.full k v } else t
    | .poison q k v => if q = p then { t with poison := FMap.set false t.poison k v } else t) t

/-- Words of a v register below the allotment, or at and above it (R139: the storage of parked spill slots). -/
def vLow (va : Nat) (m : FMap W32) : FMap W32 := m.filter fun e => decide (e.1 < 16 * va)
def vHigh (va : Nat) (m : FMap W32) : FMap W32 := m.filter fun e => decide (16 * va ≤ e.1)

/-- The leader's tile as a bundle of a block sees it (R319 to R323): the block's registers, the waiting stores of the block and of older
ones, and no wait of its own; as before the bundle, FRM and the windows as at the block's start (R320). -/
def blkView (p k : Nat) (b : Blk) (l : List (Nat × Nat)) (t : Tile) : Tile :=
  let seen := ((t.yk.win.take k).flatMap fun x => x.effs) ++ b.effs
  let o := overSram p seen t
  let o := { o with
    regs := { g := b.regs.g, p := b.regs.p, q := b.regs.q, acc := t.regs.acc, accst := t.regs.accst,
              v := vLow t.sys.va b.regs.v ++ vHigh t.sys.va t.regs.v }
    wait := [] }
  { o with
    bun := { live := true, addr := b.pc, len := sylsLen l, coll := decide (1 < l.length),
             pre := some (t.issuePre.getD (preOf { o with sys := { t.sys with frm := b.sys.frm, wd := b.sys.wd } })),
             blk := some { hdr := b.hdr, member := blkMember t.yk.n b.hdr, idx := b.idx, last := b.idx + 1 == b.count,
                           gmask := b.gmask, vmask := b.vmask, seen := seen } } }

/-- What a bundle of the oldest block wrote to SRAM, the Full bits or the poison bits at once (the word of a barrier or a collective of one
member, a control-space store): it waits with the block's stores, after them. -/
def directEffs (p : Nat) (view v : Tile) : List Eff :=
  let cells := if v.sram = view.sram then []
    else ((v.sram ++ view.sram).map (·.1)).eraseDups.filter fun a => Mem.byte v.sram a != Mem.byte view.sram a
  let fulls := if v.full = view.full then []
    else ((v.full ++ view.full).map (·.1)).eraseDups.filter fun k => NSet.mem v.full k != NSet.mem view.full k
  let bads := if v.poison = view.poison then []
    else ((v.poison ++ view.poison).map (·.1)).eraseDups.filter fun k => NSet.mem v.poison k != NSet.mem view.poison k
  (if cells.isEmpty then [] else [.write p (cells.map fun a => (a, [Mem.byte v.sram a])) false])
    ++ (fulls.map fun k => .full p k (NSet.mem v.full k)) ++ bads.map fun k => .poison p k (NSet.mem v.poison k)

/-- The leader's tile after a bundle of block `k` ran on its view to `v` (R324): its own registers, its SRAM without the waiting stores,
and what the syllables that act through the leader changed. -/
def mergeTile (k : Nat) (t0 v : Tile) : Tile :=
  if k ≠ 0 then t0
  else
    { v with
      regs := { t0.regs with v := vLow t0.sys.va t0.regs.v ++ vHigh t0.sys.va v.regs.v, acc := v.regs.acc, accst := v.regs.accst }
      sram := t0.sram
      full := t0.full
      poison := t0.poison
      bun := t0.bun
      wait := []
      woken := []
      issuePre := none }

/-- The entries that a bundle takes in the slices: one for each syllable and slice (R323). -/
def addEnts (l : List (Nat × Nat)) (m : FMap Nat) : FMap Nat :=
  l.eraseDups.foldl (fun m e => FMap.put m e.2 (FMap.get 0 m e.2 + 1)) m

/-- Whether some slice has no entry free for a bundle of block `k`: of 32, four are kept for the oldest block (R323). -/
def slicesFull (win : List Blk) (k : Nat) (l : List (Nat × Nat)) : Bool :=
  let used := win.foldl (fun m b => b.ents.foldl (fun m e => FMap.put m e.1 (FMap.get 0 m e.1 + e.2)) m) (addEnts l [])
  (l.map (·.2)).any fun q => decide ((if k = 0 then 32 else 28) < FMap.get 0 used q)

/-- A block after a bundle that completed (R316, R320, R323, R326): `more` are effects after its own, `target` the address to which the loop
end step goes back (R88), which ends the block (log 47). -/
def blkAfter (va : Nat) (more : List Eff) (target : Option Nat) (u : Bun) (r : Regs) (b : Blk) : Blk :=
  let c := u.blk.getD {}
  let ends := if u.fin.isSome then 2 else if c.leave then 1 else 0
  let last := ends == 2 || b.idx + 1 == b.count || target.isSome
  { b with
    regs := { b.regs with g := r.g, p := r.p, q := r.q, v := vLow va r.v }
    effs := b.effs ++ c.effs ++ more
    reads := b.reads ++ c.reads
    ents := addEnts c.ents b.ents
    vflags := b.vflags ||| u.raised
    idx := if last then b.idx else b.idx + 1
    pc := u.addr + u.len
    next := if last then some (target.getD (u.next.getD (u.addr + u.len))) else none
    done := last
    ends := ends }

/-- Whether a write of a block touches what a younger one has read (R323). -/
def effHits (e : Eff) (r : Nat × Nat × Nat) : Bool :=
  match e with
  | .write q ps _ => q == r.1 && ps.any fun x => overlap x.1 x.2.length r.2.1 r.2.2
  | .full q k _ => q == r.1 && overlap (32 * k) 32 r.2.1 r.2.2
  | .poison q k _ => q == r.1 && overlap (32 * k) 32 r.2.1 r.2.2

/-- The window without block `k` and every younger one, to start again at block `k` (R318, R323). -/
def squashFrom (p k : Nat) (s : State) : State :=
  s.onTile p fun t => match elemAt t.yk.win k with
    | some b => { t with yk := { t.yk with win := t.yk.win.take k, nextHdr := b.hdr } }
    | none => t

/-- A store that finds a younger load performed squashes that load's block and every younger one (R323). -/
def checkLoads (p k : Nat) (effs : List Eff) (s : State) : State :=
  match findIdx (fun b => b.reads.any fun r => effs.any fun e => effHits e r) ((s.tile p).yk.win.drop (k + 1)) (k + 1) with
  | some (j, _) => squashFrom p j s
  | none => s

/-- LDD and STD: the forms that may name tile control space (R26). -/
def isCtl (t : Tile) (regs : Regs) : Instr → Bool
  | .ldd x => ctl x.a (x.imm * 8)
  | .std x => ctl x.a (x.imm * 8)
  | .lddL x => ctl x.a (sext x.imm 32)
  | .stdL x => ctl x.a (sext x.imm 32)
  | _ => false
where
  /-- Whether a firmware task's address lies in control space. -/
  ctl (a : Nat) (off : Int) : Bool :=
    t.sys.fw && bits (wrapN 32 ((if a = 0 then 0 else (FMap.get 0 regs.g a).toNat) + off)) 31 28 == 1

/-- Spill syllables (R324). -/
def isSpill : Instr → Bool
  | .vspl _ => true
  | .vfil _ => true
  | _ => false

/-- The local atomics by their words (R63, R137). -/
def isLocalAtomic (w : Nat) : Bool := bits w 30 27 == 14

/-- Whether a bundle waits until its block is oldest (R324); the loop end step, which counts in the leader's LCOUNT, does too (R88), and a local
atomic, whose read and write are one event (R137, R300). -/
noncomputable def waitsOldest (t : Tile) (b : Blk) (l : List (Nat × Nat)) : Bool :=
  (t.sys.lcount != 0 && b.pc == t.sys.lend.toNat) || l.any fun w => slotOf w.1 == .n || slotOf w.1 == .x || isS w || isLocalAtomic w.1
    || (match readRow w.1 w.2 with | some i => isCtl t b.regs i || isSpill i | none => false)

/-- What one bundle of a block comes to. -/
inductive BlkRun
  | moved (s : State)
  | stalled (s : State)
  | trapped (idx : Nat) (ti : TrapInfo)
  | broke (o : Out)

/-- A sector under the stores written early, as it is now. -/
def sectorNow (s : State) (q k : Nat) : Nat × Nat × List Byte × Bool × Bool :=
  let t := s.tile q
  (q, k, Mem.bytes t.sram (32 * k) 32, NSet.mem t.poison k, NSet.mem t.full k)

/-- The tile and the sectors that an effect touches. -/
def effSectors : Eff → List (Nat × Nat)
  | .write q ps _ => (pieceSectors ps).map fun k => (q, k)
  | .full q k _ => [(q, k)]
  | .poison q k _ => [(q, k)]

/-- A waiting memory effect written (R323), seen by the watchpoints of the tile that holds the bytes (R431). -/
def commitEff (s : State) (e : Eff) : State :=
  match e with
  | .write q ps fe => ps.foldl (fun s x => noteAccess q false true x.1 x.2.length s) (s.onTile q fun t => t.writeAll ps fe false)
  | .full q k v => s.onTile q fun t => { t with full := FMap.set false t.full k v }
  | .poison q k v => s.onTile q fun t => { t with poison := FMap.set false t.poison k v }

/-- The waiting stores of the oldest block written for the engines that its syllables start (R42, R298), with what they cover kept in case
the block is undone. -/
def flushBlk (p : Nat) (s : State) : State :=
  match elemAt (s.tile p).yk.win 0 with
  | none => s
  | some b =>
    let secs := (b.effs.flatMap effSectors).eraseDups.filter fun e => !(b.was.any fun w => w.1 == e.1 && w.2.1 == e.2)
    onBlk p 0 (fun x => { x with effs := [], flushed := x.flushed ++ b.effs, was := x.was ++ secs.map fun e => sectorNow s e.1 e.2 })
      (b.effs.foldl commitEff s)

/-- Whether a list of syllables starts an engine's action (R42), or is a local atomic, whose write falls with its read (R137). -/
def startsEngine (l : List (Nat × Nat)) : Bool := l.any fun w => isLate w.1 || isLocalAtomic w.1

/-- The synchronising syllables of R299 by their instructions: MWAIT, MTSTJ, TSTAT, RTEST, RWAIT, BWAIT, LDF, LDFC, VLDF, and LDD, whose control-space
form reads a counter word. -/
def observes (t : Tile) (regs : Regs) : Instr → Bool
  | .mwait _ => true
  | .mtstj _ => true
  | .tstat _ => true
  | .rtest _ => true
  | .rwait _ => true
  | .bwait _ => true
  | .ldf _ => true
  | .ldfc _ => true
  | .ldfL _ => true
  | .ldfcL _ => true
  | .vldf _ => true
  | i => isCtl t regs i

/-- A table's entry, if it lists one. -/
def entryAt {α : Type} (m : FMap α) (k : Nat) : Option α := (m.find? fun e => e.1 == k).map (·.2)

/-- The entries in which two tables differ. -/
def changes {α : Type} [DecidableEq α] (a b : FMap α) : List (Nat × Option α × Option α) :=
  ((a ++ b).map (·.1)).eraseDups.filterMap fun k =>
    if entryAt a k = entryAt b k then none else some (k, entryAt a k, entryAt b k)

/-- One change after others of the same block: the oldest value stays the one to go back to. -/
def addChange {α : Type} (l : List (Nat × Option α × Option α)) (e : Nat × Option α × Option α) : List (Nat × Option α × Option α) :=
  (l.filter fun x => x.1 != e.1) ++ [(e.1, match l.find? fun x => x.1 == e.1 with | some x => x.2.1 | none => e.2.1, e.2.2)]

/-- A table without a block's changes; an entry that something else has changed since stays. -/
def revert {α : Type} [DecidableEq α] (l : List (Nat × Option α × Option α)) (m : FMap α) : FMap α :=
  l.foldl (fun m e =>
    if entryAt m e.1 = e.2.2 then (match e.2.1 with | some x => FMap.put m e.1 x | none => FMap.drop m e.1) else m) m

/-- A block's record of its changes after a bundle that took the tile from `a` to `b`. -/
def noteMade (a b : Tile) (u : Undo) : Undo :=
  { slots := (changes a.task.slots b.task.slots).foldl addChange u.slots
    ctrs := (changes a.task.ctrs b.task.ctrs).foldl addChange u.ctrs
    recs := (changes a.task.recs b.task.recs).foldl addChange u.recs
    recvs := (changes a.net.recvs b.net.recvs).foldl addChange u.recvs
    unexp := (changes a.net.unexp b.net.unexp).foldl addChange u.unexp
    sends := (changes a.net.sends b.net.sends).foldl addChange u.sends
    spill := (changes a.spill b.spill).foldl addChange u.spill
    bars := (changes a.comm.bars b.comm.bars).foldl addChange u.bars
    colls := (changes a.comm.colls b.comm.colls).foldl addChange u.colls }

/-- A tile's tables without a block's changes (R325): its receives are free again, its sends are in no queue. -/
def unmake (u : Undo) (t : Tile) : Tile :=
  let sends := revert u.sends t.net.sends
  let recvs := revert u.recvs t.net.recvs
  let freed := (u.recvs.map (·.1)).filter fun k => (FMap.get ({} : Recv) recvs k).state == 15 && !t.net.rorder.contains k
  let kept (h : Held) : Bool := match h with
    | .send d => (entryAt sends d).isSome || (entryAt t.net.sends d).isNone
    | _ => true
  { t with
    spill := revert u.spill t.spill
    task := { t.task with slots := revert u.slots t.task.slots, ctrs := revert u.ctrs t.task.ctrs, recs := revert u.recs t.task.recs }
    net := { t.net with recvs := recvs, rorder := freed ++ t.net.rorder, unexp := revert u.unexp t.net.unexp, sends := sends,
                        heldq := t.net.heldq.filter kept, outq := t.net.outq.filter kept }
    comm := { t.comm with bars := revert u.bars t.comm.bars, colls := revert u.colls t.comm.colls } }

/-- A block's bundle executed (R316, R319, R323, R324). Where it has observed an engine (R299) the younger blocks, which may have read before
that, start again (R298, R310). What only waits for its request or reply has issued it; where nothing else holds
the bundle it issues now. -/
noncomputable def blkBundle (ex : Instr → State → Out) (p k : Nat) (b : Blk) (s : State) : BlkRun :=
  let t := s.tile p
  let l := syllables t b.pc
  if fetchBad t b.pc && !(k == 0 && pinned t) then .trapped b.idx { cause := cEccLocal, imem := true }
  else match bundleIll b.pc l.1 l.2 (b.idx + 1 != b.count) with
  | some (r, j) => .trapped b.idx { cause := cIllegalBundle, sub := r * 256 + j }
  | none =>
    let r := sortSyls t l.1
    let view := blkView p k b l.1 t
    let s0 := ({ s with cur := p }.setTile p view).onT fun t => { t with bun := { t.bun with trap := bestOf r.1 } }
    match runSyls ex r.2 s0 with
    | .next s' =>
      match s'.t.bun.trap with
      | some (_, ti) => .trapped b.idx ti
      | none =>
        let v := s'.t
        let c := v.bun.blk.getD {}
        if v.wait.isEmpty then
          if slicesFull t.yk.win k c.ents && (k ≠ 0 || decide (1 < t.yk.win.length)) then
            .stalled (if k = 0 then squashFrom p 1 s else s)
          else
            let more := if k = 0 then directEffs p view v else []
            let e := loopEnd v.bun v.sys
            let target := if e.2.lcount = v.sys.lcount ∨ e.2.lcount = 0 then none else some e.1
            let v := if k = 0 then { v with sys := e.2 } else v
            let s' := if k = 0 then s' else { s with free := s'.free }
            let s' := checkLoads p k (c.effs ++ more)
              (onBlk p k (fun b => blkAfter t.sys.va more target v.bun v.regs (if k = 0 then { b with made := noteMade t v b.made } else b))
                (s'.setTile p (mergeTile k t v)))
            .moved (if r.2.any fun e => observes t b.regs e.2 then squashFrom p (k + 1) s' else s')
        else if k ≠ 0 then .stalled s
        else if v.wait.all fun e => isIssue e.2 then
          match runSyls ex (r.2.filter fun e => v.wait.any fun x => x.1 == e.1) s0 with
          | .next s2 =>
            .stalled (onBlk p 0 (fun b => { b with effs := b.effs ++ directEffs p view s2.t, made := noteMade t s2.t b.made })
              (s2.setTile p (keepIssue (view.bun.pre.getD (preOf view)) { mergeTile 0 t s2.t with wait := v.wait, woken := t.woken })))
          | o => .broke o
        else .stalled (s.setTile p { t with wait := v.wait.filter fun e => !isIssue e.2 })
    | o => .broke o

/-- One bundle of the oldest block, with its stores and those before it written where it starts an engine; a next bundle that is no header
then raises BADTARGET with the rest of the block's traps (R316). -/
noncomputable def blkBundle0 (ex : Instr → State → Out) (p : Nat) (b : Blk) (s : State) : BlkRun :=
  if !startsEngine (syllables (s.tile p) b.pc).1 then blkBundle ex p 0 b s
  else
    let s1 := flushBlk p s
    match elemAt (s1.tile p).yk.win 0 with
    | none => .moved s
    | some b1 =>
      match blkBundle ex p 0 b1 s1 with
      | .moved s' => .moved (flushBlk p s')
      | .stalled s' => .stalled (flushBlk p s')
      | o => o

/-- Whether a block has ended before a bundle that is no header (R316). -/
def badTarget (t : Tile) (b : Blk) : Bool :=
  b.done && b.ends == 0 && match b.next with | some a => !opensBlock t a | none => false

/-- The oldest block run on, bundle after bundle, from the first syllable that acts through the leader, so that a trap undoes it
whole (R325). -/
noncomputable def blkRunOn (ex : Instr → State → Out) (p : Nat) : Nat → State → BlkRun
  | 0, s => .moved s
  | n + 1, s =>
    match elemAt (s.tile p).yk.win 0 with
    | none => .moved s
    | some b =>
      if b.done then (if badTarget (s.tile p) b then .trapped b.idx (yokeTrap 1) else .moved s)
      else match blkBundle0 ex p b s with
        | .moved s' => blkRunOn ex p n s'
        | o => o

/-- The leader's registers noted when the oldest block first acts through the leader. -/
def noteUndo (t : Tile) (b : Blk) : Blk := { b with undo := some (b.undo.getD t.sys) }

/-- A block's trap, with the bundle's index and the member in SUB (R325). -/
def blkTrap (n : Nat) (b : Blk) (idx : Nat) (ti : TrapInfo) : TrapInfo := { ti with sub := ti.sub + idx * 2 ^ 28 + blkMember n b.hdr * 16 }

/-- The leader's system registers without what the squashed block wrote (R325). Watchpoint hits set since, and the delay accounts, stay: the
block did not make them. -/
def undoSys (old y : Sys) : Sys :=
  { old with dacct := y.dacct,
             wpc := (List.range 4).foldl (fun m k => FMap.set 0 m k (FMap.get 0 old.wpc k ||| (FMap.get 0 y.wpc k &&& 0x20000))) y.wpc }

/-- A byte that a store written early still holds goes back to what it was. -/
def undoByte (fl : List Eff) (q a : Nat) (old : Byte) (m : Mem) : Mem :=
  if Mem.byte m a = overByte fl q a old then Mem.setBytes m a [old] else m

/-- Whether an effect is a store of a sector's poison bit. -/
def poisons (q k : Nat) : Eff → Bool
  | .poison q' k' _ => q' == q && k' == k
  | _ => false

/-- A sector under the stores of an undone block as it was (R325); what an engine has written there since stays. -/
def undoSector (fl : List Eff) (s : State) (w : Nat × Nat × List Byte × Bool × Bool) : State :=
  s.onTile w.1 fun t => { t with
    sram := (List.range 32).foldl (fun m j => undoByte fl w.1 (32 * w.2.1 + j) (w.2.2.1.getD j 0) m) t.sram
    poison := if fl.any (poisons w.1 w.2.1) then FMap.set false t.poison w.2.1 w.2.2.2.1
              else if w.2.2.2.1 then NSet.add t.poison w.2.1 else t.poison
    full := FMap.set false t.full w.2.1 w.2.2.2.2 }

/-- The oldest block undone (R325): nothing of it remains in the leader's registers and tables or in memory. What it has sent before a stall is on
its way (log 47). -/
def undoBlk (p : Nat) (s : State) : State :=
  match elemAt (s.tile p).yk.win 0 with
  | none => s
  | some b =>
    let s := b.was.foldl (undoSector b.flushed) s
    match b.undo with
    | some y => s.onTile p fun t => unmake b.made { t with sys := undoSys y t.sys, issuePre := none }
    | none => s

/-- A trap of the oldest block taken (R325). -/
def takeBlkTrap (p : Nat) (b : Blk) (idx : Nat) (ti : TrapInfo) (s : State) : State :=
  let n := (s.tile p).yk.n
  takeTrapAt p (blkTrap n b idx ti) 0 b.hdr true (ti.cause == cEccLocal) (undoBlk p s)

/-- The header address that an asynchronous trap in yoked execution names: the oldest block's, or the next one's. -/
def yokeAt (y : Yoke) : Nat := match y.win with | b :: _ => b.hdr | [] => y.nextHdr

/-- One move of block `k` of the yoke that tile `p` leads: an asynchronous cause at the boundary after the youngest committed block
(R325), the trap of the oldest block, or its next bundle. A bundle that would trap in a younger block waits until its block is oldest, and is then
run on what is there (R318, R323). -/
noncomputable def blockStep (ex : Instr → State → Out) (p k : Nat) (s : State) : Out :=
  let t := s.tile p
  let y := t.yk
  if t.life != .running || !y.blocks then .next s
  else match pinned t, t.async with
    | false, ti :: _ => .next (if ti.cause = 0 then abandon p (undoBlk p s) else takeTrapAt p ti 0 (yokeAt y) true true (undoBlk p s))
    | _, _ =>
      if t.dbg.watch.isSome && decide (4 ≤ t.dbg.skid) then .next (takeWatchAt p (yokeAt y) true (undoBlk p s))
      else match elemAt y.win k with
        | none => .next s
        | some b =>
          match b.trap with
          | some (idx, ti) => .next (if k = 0 then takeBlkTrap p b idx ti s else s)
          | none =>
            if !b.read then .next (onBlk p k (fun b => { b with read := true, dp := NSet.addAll [] (blkDests t b) }) s)
            else if b.done || (k == 0 && !t.wait.isEmpty) then .next s
            else
              let l := (syllables t b.pc).1
              let late := waitsOldest t b l
              if k ≠ 0 && (late || !(blkNeeds l).all (NSet.mem b.arr)) then .next s
              else
                let s1 := if k = 0 then onBlk p 0 (fun b => if late then noteUndo t (fillHome t b) else fillHome t b) s else s
                let b := if k = 0 then fillHome t b else b
                match (if late then blkRunOn ex p 16 s1 else blkBundle ex p k b s1) with
                | .moved s' => .next s'
                | .stalled s' => .next s'
                | .trapped j ti => .next (if k = 0 then onBlk p 0 (fun b => { b with trap := some (j, ti) }) s else s)
                | .broke o => o

/-- Whether the leader's thread stands at its first header after YOKE (R313). -/
def atHeader (t : Tile) : Bool := threadRuns t && t.yk.st == .yoked && t.wait.isEmpty && t.async.isEmpty && opensBlock t t.pc

/-- The leader hands out blocks from its pc on (R313). -/
def startBlocks (t : Tile) : Tile := { t with yk := { t.yk with blocks := true, nextHdr := t.pc, win := [] } }

/-! ## Resolution, commit and the end (R318, R320, R323, R325, R326) -/

/-- BLOCK_RESOLVE (R316, R318, R443): block `b` has executed its last bundle: the predictor learns, a wrong successor is squashed, and
a next bundle that is no header raises BADTARGET; a block that ends at word 0x7FFF without a branch too (log 112). -/
def execBlockResolve (p b : Nat) (s : State) : Out :=
  .next (let t := s.tile p
  let y := t.yk
  match elemAt y.win b with
  | some x =>
    match x.done && x.trap.isNone, x.pred, x.next with
    | true, some guess, some a =>
      let y := { y with pred := FMap.put y.pred (512 * blkMember y.n x.hdr + x.hdr % 512) a }
      let win := setAt y.win b { x with pred := none }
      if x.ends != 0 then s.setTile p { t with yk := { y with win := win.take (b + 1) } }
      else if !opensBlock t a then
        s.setTile p { t with yk := { y with win := (setAt y.win b { x with pred := none, trap := some (x.idx, yokeTrap 1) }).take (b + 1) } }
      else if a = guess then s.setTile p { t with yk := { y with win := win } }
      else s.setTile p { t with yk := { y with win := win.take (b + 1), nextHdr := a } }
    | _, _, _ => s
  | none => s)

/-- The registers that a block writes, at their homes (R320); a v register at or above the allotment has none. -/
def homeRegs (va : Nat) (b : Blk) (r : Regs) : Regs :=
  ringRegs.foldl (fun r k => if blkWrites b k && NSet.mem b.arr k && !(decide (64 + va ≤ k) && decide (k < 96)) then copyReg k b.regs r else r) r

/-- STEP at a committed block (R325, R433): the trap dissolves the yoke, with the registers gathered, and the thread stands alone at the
next block. A block that ends its yoke goes on by R326. -/
def stepBlk (p : Nat) (b : Blk) (s : State) : State :=
  if b.ends = 0 then endYoke p (s.onTile p fun t => { t with pc := b.next.getD 0 }) else s

/-- The effects of the oldest block made (R320, R323): registers at their homes, stores in program order, VFLAGS; the bundle counts of
R431 and R432, and in step mode its bundles (R433). -/
def commitBlk (p : Nat) (b : Blk) (s : State) : State :=
  let n := b.idx + 1
  let s := s.onTile p fun t => { t with
    regs := homeRegs t.sys.va b t.regs
    sys := { t.sys with vflags := t.sys.vflags ||| b.vflags }
    yk := { t.yk with win := t.yk.win.drop 1 }
    dbg := { t.dbg with skid := if t.dbg.watch.isSome then t.dbg.skid + n else t.dbg.skid,
                        stopSkid := if t.pend.stop then t.dbg.stopSkid + n else t.dbg.stopSkid } }
  let s := b.reads.foldl (fun s r => noteAccess r.1 false false r.2.1 r.2.2 s) s
  let s := b.effs.foldl commitEff s
  if !(s.tile p).dbg.stepping then s
  else stepBlk p b ((List.range n).foldl (fun s k => stepped p b.hdr (k * 2 ^ 28 + blkMember (s.tile p).yk.n b.hdr * 16) true s) s)

/-- Whether the oldest block of a yoke may commit. -/
def mayCommit (t : Tile) : Bool :=
  t.life == .running && t.yk.st == .yoked && t.yk.blocks
    && match t.yk.win with | b :: _ => b.done && b.pred.isNone && b.trap.isNone | [] => false

/-- BLOCK_COMMIT (R320, R323). -/
def execBlockCommit (p : Nat) (s : State) : Out :=
  .next (let t := s.tile p
  match t.yk.win with
  | b :: _ => if mayCommit t && b.ends == 0 then commitBlk p b s else s
  | [] => s)

/-- YOKE_MEMBER_FAULT (R325): member `m` of the yoke that tile `p` leads is Faulted: YOKE MEMBER at the leader. -/
def execYokeMemberFault (p m : Nat) (s : State) : Out :=
  .next (let t := s.tile p
  let ti := { yokeTrap 3 with sub := 3 * 256 + m * 16 }
  if (t.yk.st == .yoked || t.yk.st == .draining) && t.yk.leader == tileNo s p && t.life == .running && decide (0 < m) && decide (m < t.yk.n)
      && (s.tile (yokeTile s p m)).life == .faulted && !t.async.contains ti then raiseAsync p ti s
  else s)

/-- YOKE_DRAIN (R326): the block that ends with UNYOKE or TEND is oldest: the window commits and the yoke drains; then the registers
stand in the leader, the members are released, and the thread goes on alone or the task ends. -/
def execYokeDrain (p : Nat) (s : State) : Out :=
  .next (let t := s.tile p
  let y := t.yk
  if t.life != .running || !y.blocks then s
  else if y.st == .draining then
    if y.result = some 2 then endTask none { s with cur := p }
    else endYoke p (s.setTile p { t with pc := y.nextHdr })
  else match y.win with
    | b :: _ =>
      if mayCommit t && b.ends != 0 then
        (commitBlk p b s).onTile p fun t => { t with yk := { t.yk with st := .draining, result := some b.ends, win := [], nextHdr := b.next.getD 0 } }
      else s
    | [] => s)

end Sys2Proof.Machine
end

