-- ==== Sys2Proof/Machine/Mailbox.lean ====
section
/-!
DEFINITION. Sys2Proof/Machine/Mailbox.lean: the firmware mailbox and its requests (R421 to R424), the gates of clusters and the power
control (R424, R425).
-/

namespace Sys2Proof.Machine

/-! ## The mailbox (R421) -/

/-- STATUS values. -/
def mbUnknown : Nat := 1
def mbDenied : Nat := 2
def mbRefused : Nat := 3
def mbBusy : Nat := 4
def mbNoctx : Nat := 5
def mbRecovery : Nat := 6
def mbMalformed : Nat := 7

/-- What serving a request comes to: an answer with its status, its result words and the device, or a wait, with BELL at BUSY. -/
inductive Reply
  | answer (status : Nat) (results : List Nat) (s : State)
  | wait (s : State)

/-- A function's mailbox. -/
def mailboxOf (s : State) (f : Nat) : Mailbox := FMap.get {} s.svc.mailboxes f

/-- A function's mailbox replaced. -/
def setMailbox (f : Nat) (b : Mailbox) (s : State) : State := { s with svc := { s.svc with mailboxes := FMap.put s.svc.mailboxes f b } }

/-- The answer written: the response words, BELL = DONE, MSI-X vector 0. -/
def answerMb (m : Mbx) (status : Nat) (results : List Nat) (s : State) : State :=
  msix 0 m.func 0 (setMailbox m.func { mailboxOf s m.func with bell := 2, status := status, tok := m.tok, results := results, req := none } s)

/-- A reply carried out. -/
def settleMb (m : Mbx) (r : Reply) : State :=
  match r with
  | .answer st l s => answerMb m st l s
  | .wait s => s

/-- REQ1 of a request: the operand length in bytes, and the zero field (R421). -/
def reqLen (m : Mbx) : Nat := 8 * m.ops.length + m.low % 8 + m.high * 2 ^ 11

/-- The request words as software writes them: REQ0 with CMD and TOKEN, REQ1, and the operands (R421). -/
def reqWords (cmd : Nat) (m : Mbx) (l : FMap Nat) : FMap Nat :=
  let l := FMap.put (FMap.put l 0 (cmd % 2 ^ 16 + m.zeros % 2 ^ 16 * 2 ^ 16 + m.tok % 2 ^ 32 * 2 ^ 32)) 8 (reqLen m % 2 ^ 64)
  ((List.range (Nat.min m.ops.length 248)).map fun i => (0x40 + 8 * i, m.ops.getD i 0)).foldl (fun l e => FMap.put l e.1 e.2) l

/-- Whether the length of a request and its zero fields are right (R421). -/
def wordsGood (m : Mbx) : Bool := m.zeros % 2 ^ 16 == 0 && m.low % 8 == 0 && m.high == 0 && decide (m.ops.length ≤ 248)

/-- A request of number `cmd` written and submitted by BELL := 1, or served again while it waits. Writes in BUSY are ignored; in Recovery only
function 0's mailbox answers, and only the requests offered there (`rec`); a wrong length or zero field is MALFORMED before anything else
(log 96). -/
def request (cmd : Nat) (rec : Bool) (m : Mbx) (f : State → Reply) (s : State) : State :=
  let b := mailboxOf s m.func
  let y := setMailbox m.func { b with bell := 1, req := some m, words := reqWords cmd m b.words } s
  if s.svc.boot = .off ∨ 64 ≤ m.func then s
  else if b.bell = 1 then (if b.req = some m ∧ s.svc.boot = .ready then settleMb m (f s) else s)
  else if s.svc.boot = .recovery then
    (if m.func ≠ 0 then y else if !rec then answerMb m mbRecovery [] y else if !wordsGood m then answerMb m mbMalformed [] y else settleMb m (f y))
  else if !wordsGood m then answerMb m mbMalformed [] y
  else settleMb m (f y)

/-- A refusal of some status. -/
def deny (status : Nat) (s : State) : Reply := .answer status [] s

/-- Operand word `k`. -/
def op (m : Mbx) (k : Nat) : Nat := m.ops.getD k 0

/-- A request of function 0 alone, of a given number of operand words whose zero fields `ok` checks. -/
def pfOnly (m : Mbx) (n : Nat) (ok : Bool) (f : State → Reply) (s : State) : Reply :=
  if m.func ≠ 0 then deny mbDenied s
  else if m.ops.length ≠ n ∨ !ok then deny mbMalformed s
  else f s

/-- Whether a CID exists and a function may name it. -/
def mayName (s : State) (func cid : Nat) : Bool :=
  let c := s.ctx cid
  c.st != .free && c.st != .destroyed && (func == 0 || c.func == func)

/-- A request of function 0 or of the owner of the context named. -/
def ownerOnly (m : Mbx) (n : Nat) (ok : Bool) (cid : Nat) (f : State → Reply) (s : State) : Reply :=
  if m.ops.length ≠ n ∨ !ok then deny mbMalformed s
  else if !mayName s m.func cid then deny mbNoctx s
  else f s

/-- CMD_NOT_OFFERED (R421): the number is any that is not offered; the row does not say which. -/
def execCmdNotOffered (m : Mbx) (s : State) : Out :=
  .next (request (Config.unstated 421 s.picks) false m (deny mbUnknown) s)

/-- MAILBOX_DONE_ACK (R421). -/
def execMailboxDoneAck (f : Nat) (s : State) : Out :=
  .next (let b := mailboxOf s f
  if b.bell = 2 then setMailbox f { b with bell := 0 } s else s)

/-- VERSION (R422). -/
def execVersion (m : Mbx) (s : State) : Out :=
  .next (request 0x01 true m (fun s => if m.ops.length ≠ 0 then deny mbMalformed s else .answer 0 [s.svc.abi] s) s)

/-! ## Contexts (R372, R373, R375, R386, R423) -/

/-- The zero fields of CTX_CREATE's operands. -/
def createZero (m : Mbx) : Bool :=
  bits (op m 0) 63 42 == 0 && bits (op m 0) 7 6 == 0 && bits (op m 1) 63 40 == 0 && bits (op m 2) 63 56 == 0 && bits (op m 3) 63 56 == 0
    && bits (op m 4) 63 40 == 0 && bits (op m 4) 31 21 == 0 && bits (op m 5) 63 56 == 0 && bits (op m 10) 63 56 == 0
    && bits (op m 11) 63 56 == 0 && bits (op m 12) 63 44 == 0 && bits (op m 12) 31 24 == 0

/-- The bytes of a save area: the context block and a block for each tile (R378). -/
def saveSize (lg : Nat) : Nat := 0x100000 + 0x260000 * (16 * 2 ^ lg)

/-- Whether every page of a range is mapped W and PINNED under a root. -/
def pinnedW (s : State) (root va n : Nat) : Bool :=
  (segs va n).all fun e =>
    match walkFrom s e.1 levels root with
    | .leaf _ w0 w1 _ => bit w0 2 && ePinned w1
    | _ => false

/-- Whether the values of CTX_CREATE's operands lie within the limits of R372. -/
def createOk (s : State) (m : Mbx) : Bool :=
  match shapeLog (bits (op m 0) 15 8) with
  | none => false
  | some lg =>
    shapeFits s (bits (op m 0) 15 8) && bits (op m 0) 31 16 != 0 && op m 1 % 4096 == 0 && op m 2 % 2 ^ 21 == 0 && pinnedW s (op m 1) (op m 2) (saveSize lg)
      && op m 3 % 2 ^ 21 == 0 && decide (1 ≤ bits (op m 4) 15 0) && decide (bits (op m 4) 15 0 ≤ 4096)
      && op m 5 % 4096 == 0 && decide (6 ≤ bits (op m 4) 20 16) && decide (bits (op m 4) 20 16 ≤ 16)
      && (bits (op m 12) 23 0 == 0 || !(s.svc.jobs.any fun e => e.1 == bits (op m 12) 23 0 * 4096 + bits (op m 12) 43 32))

/-- The lowest slot of R409 that no context of a function holds. -/
def freeCtxSlot (s : State) (f : Nat) : Option Nat :=
  let used := (s.ctxs.filter fun e => e.2.st != .free && e.2.func == f).map fun e => e.2.slot
  (List.range 1024).find? fun k => !used.contains k

/-- The free CIDs of user contexts (R371). -/
def freeCids (s : State) : List Nat := ((List.range 0xEFF).map (· + 1)).filter fun c => (s.ctx c).st == .free

/-- The ASCII bytes of "FNVS-MC". -/
def mcBytes : List Byte := [0x46, 0x4E, 0x56, 0x53, 0x2D, 0x4D, 0x43]

/-- M of a new context (R386). -/
def m0 (s : State) (nonce : List Byte) : List Byte := sha3 (mcBytes ++ fitBytes 48 s.svc.did ++ nonce)

/-- The context record of CTX_CREATE's operands (R372, R423). -/
def newCtx (s : State) (m : Mbx) (slot : Nat) : Ctx :=
  let nonce := wordBytes [op m 6, op m 7, op m 8, op m 9]
  { st := .created, func := bits (op m 0) 5 0, shape := bits (op m 0) 15 8, maxbudget := bits (op m 0) 31 16,
    restartmax := if bits (op m 0) 39 32 = 0 then 3 else bits (op m 0) 39 32, overlayOk := bit (op m 0) 40, debugOk := bit (op m 0) 41,
    root := op m 1, saveva := op m 2, ovfva := op m 3, ovfsize := bits (op m 4) 15 0, fringva := op m 5, frlog := bits (op m 4) 20 16,
    frvec := bits (op m 4) 39 32, cnonce := nonce, eptab := op m 10, hwtab := op m 11, job := bits (op m 12) 23 0, pid := bits (op m 12) 43 32,
    m := m0 s nonce, slot := slot }

/-- A cistern decode table at creation, in the layout of R344 (R288): the presets of R107 for 0 to 3, zero entries, C8 and LINEAR, for the others. -/
def cdtAtCreate (t : Nat) : List Byte :=
  let img (gb : Nat) (f : Nat → Nat) : List Byte := natLe 8 gb ++ (List.range 256).flatMap fun c => natLe 4 (f c)
  match t with
  | 0 => img 0x7F00 presetE4m3
  | 1 => img 0x7F01 presetE5m2
  | 2 => img (0x10000 + 4 + 2) fun c => if c < 16 then presetE2m1 c else 0x80000000
  | 3 => img (0x10000 + 16 + 3) presetI8
  | _ => img (8 + t % 4) fun _ => 0

/-- CTX_CREATE (R372, R375, R423). Which free CID is taken is the firmware's choice (log 6). -/
def execCtxCreate (m : Mbx) (s : State) : Out :=
  .next (request 0x10 false m (pfOnly m 13 (createZero m) fun s =>
    let l := freeCids s
    match l, freeCtxSlot s (bits (op m 0) 5 0) with
    | c0 :: _, some k =>
      if !createOk s m then deny mbRefused s
      else
        let cid := l.getD (Config.unstated 423 s.picks % l.length) c0
        let c := newCtx s m k
        let s := s.onCtx cid fun _ => c
        let s := if c.job = 0 then s else { s with svc := { s.svc with jobs := FMap.put s.svc.jobs (c.job * 4096 + c.pid) cid } }
        let s := (List.range 16).foldl (fun s (t : Nat) => putCdt cid t (cdtAtCreate t) s) s
        let s := setMember cid true (edgePorts s cid) s
        .answer 0 [cid + k * 2 ^ 16] s
    | _, _ => deny mbRefused s) s)

/-- CTX_GRANT (R373, R422). -/
def execCtxGrant (m : Mbx) (s : State) : Out :=
  .next (request 0x11 false m (pfOnly m 1 (bits (op m 0) 15 12 == 0 && bits (op m 0) 63 22 == 0) fun s =>
    let cid := bits (op m 0) 11 0
    let f := bits (op m 0) 21 16
    if !mayName s 0 cid then deny mbNoctx s
    else if (s.ctx cid).func = f then .answer 0 [(s.ctx cid).slot] s
    else match freeCtxSlot s f with
      | none => deny mbRefused s
      | some k => .answer 0 [k] (s.onCtx cid fun c => { c with func := f, slot := k })) s)

/-- CTX_DESTROY (R375, R422). -/
def execCtxDestroy (m : Mbx) (s : State) : Out :=
  .next (request 0x12 false m (pfOnly m 1 (bits (op m 0) 63 12 == 0) fun s =>
    let cid := bits (op m 0) 11 0
    if !mayName s 0 cid then deny mbNoctx s else .answer 0 [] (destroyCtx cid s)) s)

/-- Whether a request of this mailbox has been served before and waits. -/
def polled (s : State) (m : Mbx) : Bool := (mailboxOf s m.func).bell == 1 && (mailboxOf s m.func).req == some m

/-- Whether a context is resident. -/
def isResident (c : Ctx) : Bool := c.st == .residentIdle || c.st == .residentRunning

/-- CTX_SAVE (R377, R422): answered when the context is Saved (held); `again` holds where the request has waited. -/
def ctxSave (again : Bool) (cid : Nat) (s : State) : Reply :=
  let c := s.ctx cid
  if isResident c then .wait (requestSave cid s)
  else if c.st == .preempting then .wait s
  else if again && (c.st == .savedHeld || c.st == .savedStored) then .answer 0 [] s
  else deny mbBusy s

/-- CTX_SAVE (R422). -/
def execCtxSave (m : Mbx) (s : State) : Out :=
  .next (request 0x13 false m (ownerOnly m 1 (bits (op m 0) 63 12 == 0) (bits (op m 0) 11 0) (ctxSave (polled s m) (bits (op m 0) 11 0))) s)

/-- CTX_RESTORE (R381, R422): answered when the context is resident, or REFUSED with RESTORE_SHAPE or RESTORE_POISON. -/
def ctxRestore (again : Bool) (cid : Nat) (s : State) : Reply :=
  let c := s.ctx cid
  if c.st == .savedHeld || c.st == .savedStored then
    (if checkpointed s cid then deny mbBusy s
    else match startRestore cid s with | some s => .wait s | none => .answer mbRefused [3] (ringAdd cid 3 [] s))
  else if c.st == .restoring then .wait s
  else if again && isResident c then .answer 0 [] s
  else if again && c.st == .faulted then .answer mbRefused [4] s
  else deny mbBusy s

/-- CTX_RESTORE (R422). -/
def execCtxRestore (m : Mbx) (s : State) : Out :=
  .next (request 0x14 false m (ownerOnly m 1 (bits (op m 0) 63 12 == 0) (bits (op m 0) 11 0) (ctxRestore (polled s m) (bits (op m 0) 11 0))) s)

/-- CTX_SLICE (R377, R422). -/
def execCtxSlice (m : Mbx) (s : State) : Out :=
  .next (request 0x15 false m (pfOnly m 2 (bits (op m 0) 63 12 == 0) fun s =>
    let cid := bits (op m 0) 11 0
    if !mayName s 0 cid then deny mbNoctx s
    else .answer 0 [] (s.onCtx cid fun c => { c with slice := op m 1, sliceStart := s.now })) s)

/-! ## Queues (R366, R422) -/

/-- A word that names a context and a queue. -/
def queueWord (w : Nat) : Bool := bits w 15 12 == 0 && bits w 63 22 == 0

/-- Whether a context is on its way through a save: its queues are Suspended. -/
def isSaved (c : Ctx) : Bool := c.st == .savedHeld || c.st == .savedStored || c.st == .restoring

/-- Q_CREATE (R366, R422). -/
def execQCreate (m : Mbx) (s : State) : Out :=
  .next (request 0x20 false m (ownerOnly m 2 (bits (op m 0) 15 12 == 0 && bits (op m 0) 23 22 == 0 && bits (op m 0) 31 26 == 0 && bits (op m 0) 63 37 == 0
      && bits (op m 1) 63 56 == 0) (bits (op m 0) 11 0) fun s =>
    let cid := bits (op m 0) 11 0
    let q := bits (op m 0) 21 16
    let size := bits (op m 0) 36 32
    if size < 4 ∨ 16 < size ∨ op m 1 % 4096 ≠ 0 then deny mbRefused s
    else if (queueOf s cid q).st ≠ .free ∨ (s.ctx cid).st = .faulted then deny mbBusy s
    else
      let st : QSt := if isSaved (s.ctx cid) then .suspended else .active
      .answer 0 [] (setQueue cid q (fun _ => { base := op m 1, prio := bits (op m 0) 25 24, size := size, st := st, prev := .active }) s)) s)

/-- A packet of a queue dropped at Q_RESET: off its counter and its signal's list. -/
def dropHpkt (s : State) (p : HPkt) : State :=
  let s := closeQueued p.id stAborted (if p.st == .depParked then unpark p s else if p.st == .waiting then leaveList p s else s)
  s.onPump fun h => { h with pkts := h.pkts.filter fun o => o.id != p.id }

/-- The packets of a queue. -/
def queuePkts (s : State) (cid q : Nat) : List HPkt := s.pump.pkts.filter fun p => p.cid == cid && p.q == q

/-- Q_RESET (R366). -/
def execQReset (m : Mbx) (s : State) : Out :=
  .next (request 0x21 false m (ownerOnly m 1 (queueWord (op m 0)) (bits (op m 0) 11 0) fun s =>
    let cid := bits (op m 0) 11 0
    let q := bits (op m 0) 21 16
    if (queueOf s cid q).st ≠ .error then deny mbBusy s
    else
      let s := ((queuePkts s cid q).filter fun p => p.st == .ready || p.st == .depParked || p.st == .waiting).foldl dropHpkt s
      .answer 0 [] (setQueue cid q (fun x => { x with st := .active, err := 0, head := x.tail, seen := x.tail }) s)) s)

/-- Q_DESTROY (R366, R422): the packets in flight complete, then the queue is Free. -/
def execQDestroy (m : Mbx) (s : State) : Out :=
  .next (let again := polled s m
  request 0x22 false m (ownerOnly m 1 (queueWord (op m 0)) (bits (op m 0) 11 0) fun s =>
    let cid := bits (op m 0) 11 0
    let q := bits (op m 0) 21 16
    if (queueOf s cid q).st = .free then (if again then .answer 0 [] s else deny mbBusy s)
    else if (queuePkts s cid q).isEmpty then .answer 0 [] (setQueue cid q (fun _ => {}) s)
    else .wait (setQueue cid q (fun x => { x with destroy := true }) s)) s)

/-! ## Ports, flash and power (R402, R394, R424) -/

/-- POWER_LIMIT (R424). -/
def execPowerLimit (m : Mbx) (s : State) : Out :=
  .next (request 0x30 false m (pfOnly m 1 true fun s =>
    if op m 0 < 1200 ∨ s.svc.ceiling < op m 0 then deny mbRefused s
    else .answer 0 [op m 0] { s with svc := { s.svc with limit := op m 0 } }) s)

/-- The zero fields of PORT_CTL's word. -/
def portWord (w : Nat) : Bool := bits w 7 3 == 0 && bits w 63 9 == 0

/-- Function 0 disables a port that is Failed or Degraded (R402): it waits while the replay buffer holds packets. Of a port in another state than
these and Down, the request is turned away (log 90), but one that waits, which `again` tells, goes on waiting. -/
def disable (again : Bool) (q : Nat) (done : State → State) (s : State) : Reply :=
  let w := welim s q
  if w.st == .down || mayDisable w then (match portDown q s with | some s => .answer 0 [] (done s) | none => .wait s)
  else if again then .wait s
  else deny mbBusy s

/-- PORT_CTL DOWN (R402, R422). -/
def execPortCtlDown (m : Mbx) (s : State) : Out :=
  .next (if bit (op m 0) 8 then s
  else request 0x31 false m (pfOnly m 1 (portWord (op m 0)) (disable (polled s m) (bits (op m 0) 2 0) id)) s)

/-- PORT_CTL ENABLE (R402): a port Down goes to Detect; one Failed or Degraded goes Down first, once its replay buffer is empty. -/
def execPortCtlEnable (m : Mbx) (s : State) : Out :=
  .next (if !bit (op m 0) 8 then s
  else
    let again := polled s m
    request 0x31 false m (pfOnly m 1 (portWord (op m 0)) fun s =>
    let q := bits (op m 0) 2 0
    if mayDisable (welim s q) then disable again q (portEnable q) s else .answer 0 [] (portEnable q s)) s)

/-- The 17 entries of a lane log, 0 to 15 then S (R422). -/
def laneWords (w : Welim) : List Nat :=
  (List.range 17).flatMap fun l =>
    [w.log.corr.getD l 0, w.log.margin.getD l 0 % 2 ^ 16 + b2n (NSet.mem w.weak l) * 2 ^ 16 + b2n (NSet.mem w.lost l) * 2 ^ 17]

/-- LANE_LOG (R394, R422). -/
def execLaneLog (m : Mbx) (s : State) : Out :=
  .next (request 0x32 false m (pfOnly m 1 (bits (op m 0) 63 3 == 0) fun s => .answer 0 (laneWords (welim s (bits (op m 0) 2 0))) s) s)

/-- FLASH_WRITE (R418, R422): an offset, then 8 to 1,968 bytes. -/
def execFlashWrite (m : Mbx) (s : State) : Out :=
  .next (request 0x33 true m (fun s =>
    if m.func ≠ 0 then deny mbDenied s
    else if m.ops.length < 2 ∨ 247 < m.ops.length then deny mbMalformed s
    else if op m 0 % 8 ≠ 0 then deny mbRefused s
    else .answer 0 [] { s with svc := { s.svc with flash := Mem.setBytes s.svc.flash (op m 0) (wordBytes (m.ops.drop 1)) } }) s)

/-- POWER_WINDOW_CONTROL (R424): `watts` is the average over 10 ms; above the limit the shared point is stepped down, else up, by steps
that the manual does not give (log 6). Only durations change. -/
def execPowerWindowControl (watts : Nat) (s : State) : Out :=
  .next (let v := s.svc
  let x := Config.unstated 424 (2 * s.picks)
  let y := Config.unstated 424 (2 * s.picks + 1)
  let above := decide (v.limit < watts)
  let f := if above then x % (v.dvfs + 1) else v.dvfs + x % (1601 - v.dvfs)
  let u := if above then 600 + y % (v.volts - 599) else v.volts + y % (751 - v.volts)
  { s with svc := { v with watts := watts, dvfs := f, volts := u, capped := above || decide (f < 1600) } })

/-- THERMAL_THROTTLE (R424): a die at 105 °C or more is throttled; below, it is so no longer. -/
def execThermalThrottle (die temp : Nat) (s : State) : Out :=
  .next (if 4 ≤ die then s
  else { s with svc := { s.svc with throttled := FMap.set false s.svc.throttled die (decide (105 ≤ temp)) } })

/-- What outlives a reset of the device: the host's memory, the memory behind the UE ports, the module flash, the fuses, the time and the model's own
choices. -/
def keepOutside (s : State) : State :=
  { State.reset with
    dev := s.dev, now := s.now, clk := s.clk, picks := s.picks, free := s.free
    fab := { host := s.fab.host, ue := s.fab.ue }
    svc := { flash := s.svc.flash, rootDigests := s.svc.rootDigests, minVersion := s.svc.minVersion } }

/-- THERMAL_SHUTDOWN (R424): at 115 °C the module shuts down until PERST#. -/
def execThermalShutdown (die temp : Nat) (s : State) : Out :=
  .next (if 4 ≤ die ∨ temp < 115 then s
  else
    let y := keepOutside s
    { y with svc := { y.svc with shutdown := true } })

/-- CLUSTER_GATE (R425): a compute cluster that belongs to no partition is gated or ungated. -/
def execClusterGate (p on : Nat) (s : State) : Out :=
  .next (let l := (List.range 16).map (p / 16 * 16 + ·)
  if s.svc.boot ≠ .ready ∨ 2048 ≤ p ∨ l.any fun q => (s.tile q).place.isSome then s
  else if on = 0 then l.foldl (fun s q => gateReq q s) s
  else l.foldl (fun s q => ungateTile q s) s)

/-! ## Boot (R414 to R418) -/

/-- The ASCII bytes of "FNVS-FW". -/
def fwBytes : List Byte := [0x46, 0x4E, 0x56, 0x53, 0x2D, 0x46, 0x57]

/-- The bytes of the configuration table and of the firmware image, as the flash holds them (R414 step 2). -/
def tableBytes (b : BootIn) (s : State) : List Byte := Mem.bytes s.svc.flash b.tableAt b.tableLen
def imageBytes (b : BootIn) (s : State) : List Byte := Mem.bytes s.svc.flash b.imageAt b.imageLen

/-- Whether the root keys are those whose digests are fused, and the four signatures verify (R415). -/
def sigGood (b : BootIn) (v : Service) : Bool :=
  v.rootDigests == (sha3 b.edKey, sha3 b.mlKey) && b.edTable && b.mlTable && b.edImage && b.mlImage

/-- Whether the table's values lie within their limits (R417): the pump-house widths, the ceiling of R424, and its others. -/
def tableGood (b : BootIn) : Bool :=
  b.tableOk && b.widths.length == 4 && b.widths.all (fun w => decide (4 ≤ w) && decide (w ≤ 16)) && decide (1200 ≤ b.ceiling) && decide (b.ceiling ≤ 2200)

/-- Whether the role map names for each of the seven roles a primary and a standby, two pump-house tiles of one die whose service cluster is
there (R367, R414 step 4); the pump-house tiles of a die are its lowest (log 60). -/
def rolesGood (b : BootIn) : Bool :=
  b.roles.length == 7 && b.roles.all fun e =>
    decide (e.1 < 64) && decide (e.2 < 64) && e.1 != e.2 && e.1 / 16 == e.2 / 16 && bit b.clusters (33 * (e.1 / 16) + 32)
      && decide (e.1 % 16 < b.widths.getD (e.1 / 16) 0) && decide (e.2 % 16 < b.widths.getD (e.1 / 16) 0)

/-- Whether the role map names a service tile. -/
def roleTile (b : BootIn) (p : Nat) : Bool := b.roles.any fun e => serviceTile (e.1 / 16) e.1 == p || serviceTile (e.2 / 16) e.2 == p

/-- The part of the image that is loaded into a tile's IMEM, at most 128 KiB; which part, the spec leaves to the image (log 60). -/
def firmwareOf (b : BootIn) (p : Nat) (s : State) : List Byte := ((imageBytes b s).drop (Config.unstated 414 (64 * s.picks + p % 64))).take 0x20000

/-- A service tile as boot leaves it (R414 steps 1 and 4): out of reset, its memories undefined (R33); those of the role map, once the pump
house is formed, under its CID with the firmware in IMEM. -/
def bootTile (b : BootIn) (formed : Bool) (dev p : Nat) (s : State) : Tile :=
  let k := s.free + p % 64 * (0x20000 + 2 ^ 21)
  let t : Tile := { life := .idle, cyc0 := s.clk, imem := freeWords k 0x8000, sram := freeBytes (k + 0x20000) (2 ^ 21) }
  if formed && roleTile b p then { t with place := some (tilePlace dev p), sys := { cid := 0xFFF, fw := true }, imem := (writeCode 0 (firmwareOf b p s) t).imem } else t

/-- The reason of Recovery, 0 where the boot passes: the checks of step 3, the roles of step 4, the stacks of step 5 (R414 to R418). -/
def bootReason (b : BootIn) (v : Service) : Nat :=
  if !sigGood b v then 1 else if b.version < v.minVersion then 2 else if !tableGood b then 3
  else if !rolesGood b then 5 else if b.healthy % 4096 ≠ 4095 then 4 else 0

/-- The service tiles that stand as spares after the boot (R367, R420): those beyond the pump house's width, on dies whose service cluster is
there. -/
def bootSpares (b : BootIn) : Nat := ((List.range 4).map fun d => if bit b.clusters (33 * d + 32) then 16 - b.widths.getD d 16 else 0).sum

/-- What firmware writes into the firewall registers: control-class traffic and queue-class messages pass, header classes 6 and 8 (R368). -/
def firewallBoot : Nat := 2 ^ 6 + 2 ^ 8

/-- BW and RW brought within their limits (R420). -/
def topoRw : Nat := Nat.min Config.topology.2 10
def topoBw : Nat := Nat.min Config.topology.1 topoRw

/-- BOOT_RESET (R414 to R418): the whole device is as after reset, with the index that the fabric configuration gives it (R10; log 8); FWM is
computed once step 3 passes; a boot that passes has its stations and clusters enabled, compute tiles Off, and its Welim ports in Detect. -/
def execBootReset (b : BootIn) (s : State) : Out :=
  .next (let y := keepOutside s
  let r := bootReason b s.svc
  let formed := r == 0 || r == 4
  let v : Service := { y.svc with
    boot := if r = 0 then .ready else .recovery
    reason := r
    did := sha3 (fitBytes 32 Config.keys.1 ++ fitBytes 1952 Config.keys.2)
    fwm := if r = 1 ∨ r = 2 ∨ r = 3 then [] else sha3 (fwBytes ++ digest (tableBytes b s) ++ digest (imageBytes b s))
    abi := b.abi, widths := if formed then b.widths else [], spares := if formed then bootSpares b else 0
    units := if r = 0 then Config.units else 0
    ceiling := b.ceiling, limit := b.ceiling, laneErr := b.laneErr, laneMargin := b.laneMargin
    stacksOk := b.healthy % 4096, clustersOk := b.clusters % 2 ^ 132, roles := if formed then b.roles else []
    bw := topoBw, rw := topoRw
    reserve := if r = 0 then Config.reserve else [] }
  let y := { y with
    svc := v, dev := Config.device % 2 ^ 20
    tiles := (List.range 64).map fun (i : Nat) => (2048 + i, bootTile b formed (Config.device % 2 ^ 20) (2048 + i) s)
    free := s.free + 64 * (0x20000 + 2 ^ 21)
    fab := { y.fab with firewall := if r = 0 then (List.range 4).map fun (d : Nat) => (d, firewallBoot) else [] } }
  if r = 0 then (List.range 8).foldl (fun s q => portEnable q s) y else y)

end Sys2Proof.Machine
end

