-- ==== Sys2Proof/Machine/Bar0.lean ====
section
/-!
DEFINITION. Sys2Proof/Machine/Bar0.lean: what a function reads in its BAR0 (R409, R373), the queue records of its doorbell pages (R354), and
what it writes there (R409, R411, R413, R421).
-/

namespace Sys2Proof.Machine

/-- The number of a queue's state in its record. -/
def qstNum : QSt → Nat
  | .free => 0
  | .active => 1
  | .blocked => 2
  | .error => 3
  | .suspended => 4

/-- Word `k` of a queue record (R354). -/
def recordWord (x : Queue) (k : Nat) : Nat :=
  match k with
  | 0 => bits x.base 55 0
  | 1 => x.prio % 4 * 2 ^ 8 + x.size % 32
  | 2 => x.head % 2 ^ 64
  | 3 => x.tail % 2 ^ 64
  | 4 => x.err % 256 * 2 ^ 8 + qstNum x.st
  | _ => 0

/-- Aligned word `o` of a function's mailbox as it reads (R421): the request words as last written, the response, the results and BELL. -/
def mailboxWord (s : State) (f o : Nat) : Nat :=
  let b := mailboxOf s f
  if o = 0 ∨ o = 8 ∨ (0x40 ≤ o ∧ o < 0x800) then FMap.get 0 b.words o
  else if o = 0x800 then b.status % 2 ^ 16 + b.tok % 2 ^ 32 * 2 ^ 32
  else if o = 0x808 then 8 * b.results.length % 2 ^ 11
  else if 0x840 ≤ o ∧ o < 0x840 + 1976 then b.results.getD ((o - 0x840) / 8) 0 % 2 ^ 64
  else if o = 0xFF8 then b.bell
  else 0

/-- The number of a context's state: R375 names the states and gives them no number (log 96). -/
def ctxStNum : CtxSt → Nat
  | .free => 0
  | .created => 1
  | .residentIdle => 2
  | .residentRunning => 3
  | .preempting => 4
  | .savedHeld => 5
  | .savedStored => 6
  | .restoring => 7
  | .faulted => 8
  | .destroyed => 9

/-- Words of bytes. -/
def wordsOf (n : Nat) (d : List Byte) : List Nat := (List.range n).map fun i => leNat ((d.drop (8 * i)).take 8)

/-- The fields of a context record (R372), in the table's order, those wider than a word as several; then the vectors that were not raised (R413).
The number of a state is free. -/
noncomputable def ctxFields (cid : Nat) (c : Ctx) : List Nat :=
  [cid, c.func, c.shape, c.maxbudget, c.restartmax, b2n c.overlayOk, b2n c.debugOk, c.root, c.saveva, c.ovfva, c.ovfsize, c.fringva, c.frlog]
    ++ wordsOf 4 c.cnonce ++ [c.eptab, c.hwtab, c.job, c.pid] ++ wordsOf 6 c.m
    ++ [c.events, Config.unstated 375 (ctxStNum c.st) % 16, c.vecLost]

/-- Aligned word `o` of the context records: which field of R372 a word of a record's 1 KiB holds is not stated, and free (log 96). -/
noncomputable def ctxWord (s : State) (f o : Nat) : Nat :=
  match ctxInSlot s f (o / 1024) with
  | some c => (ctxFields c (s.ctx c)).getD (Config.unstated 372 (o % 1024 / 8)) 0 % 2 ^ 64
  | none => 0

/-- Aligned word `o` of the doorbell pages. -/
def doorWord (s : State) (f o : Nat) : Nat :=
  match ctxInSlot s f (o / 4096) with
  | some c => recordWord (queueOf s c (o % 4096 / 64)) (o % 64 / 8)
  | none => 0

/-- The vectors of a function (R413). -/
def vectors (f : Nat) : Nat := if f = 0 then 256 else 64

/-- The 64 pending bits of a function from vector `v` on. -/
def pendingWord (s : State) (f v : Nat) : Nat :=
  (List.range 64).foldl (fun w (i : Nat) => if v + i < vectors f ∧ NSet.mem s.svc.msixPending (f * 256 + v + i) then w + 2 ^ i else w) 0

/-- A word of the MSI-X table (R413): address and data as last written, and the mask bit in the vector control (log 96). -/
def msixWord (s : State) (f o : Nat) : Nat :=
  let w := FMap.get 0 s.svc.msixTable (f * 512 + o / 8)
  if vectors f ≤ o / 16 then 0
  else if o % 16 = 8 then w % 2 ^ 32 + b2n (NSet.mem s.svc.msixMask (f * 256 + o / 16)) * 2 ^ 32 else w % 2 ^ 64

/-- The aligned 8-byte word that function `f` reads at offset `o` of its BAR0 (R409): only its own contexts show in it (R373), WLSTAT only to
function 0, and in Recovery only the capability list and the mailbox (R418). -/
noncomputable def bar0Word (s : State) (f o : Nat) : Nat :=
  let v := s.svc
  if v.boot = .off then 0
  else if o < 0x10000 then leNat (((capsList s).drop o).take 8)
  else if o < 0x11000 then mailboxWord s f (o - 0x10000)
  else if v.boot = .recovery then 0
  else if o < 0x11040 then (if f = 0 then wlstat s ((o - 0x11000) / 8) else 0)
  else if 0x12000 ≤ o ∧ o < 0x12400 then apertureWord (apertureOf s f ((o - 0x12000) / 16)) (o / 8 % 2)
  else if 0x20000 ≤ o ∧ o < 0x21000 then msixWord s f (o - 0x20000)
  else if 0x30000 ≤ o ∧ o < 0x30040 then pendingWord s f (8 * (o - 0x30000))
  else if 0x100000 ≤ o ∧ o < 0x200000 then ctxWord s f (o - 0x100000)
  else if 0x400000 ≤ o ∧ o < 0x800000 then doorWord s f (o - 0x400000)
  else 0

/-- The mask bit of vector `k` (256 for each function) written in the MSI-X table: one unmasked with its pending bit set is sent (R413). -/
def maskVector (k : Nat) (on : Bool) (s : State) : State :=
  let v := s.svc
  if k % 256 ≥ vectors (k / 256) ∨ 64 ≤ k / 256 then s
  else if on then { s with svc := { v with msixMask := NSet.add v.msixMask k } }
  else
    let v := { v with msixMask := NSet.del v.msixMask k }
    if NSet.mem v.msixPending k then
      { s with svc := { v with msixPending := NSet.del v.msixPending k, msixSent := FMap.set 0 v.msixSent k (FMap.get 0 v.msixSent k + 1) } }
    else { s with svc := v }

/-- A word of the MSI-X table written (R413). -/
def writeVector (f o v : Nat) (s : State) : State :=
  if vectors f ≤ o / 16 then s
  else
    let s := { s with svc := { s.svc with msixTable := FMap.set 0 s.svc.msixTable (f * 512 + o / 8) (v % 2 ^ 64) } }
    if o % 16 = 8 then maskVector (f * 256 + o / 16) (bit v 32) s else s

/-- A word of a function's mailbox written (R421): the request words and the operands, but not while it is BUSY; 0 into BELL in DONE. Writing 1
into BELL is a request's own row, which writes the request's words as well. -/
def writeMailbox (f o v : Nat) (s : State) : State :=
  let b := mailboxOf s f
  if b.bell = 1 then s
  else if o = 0 ∨ o = 8 ∨ (0x40 ≤ o ∧ o < 0x800) then setMailbox f { b with words := FMap.put b.words o (v % 2 ^ 64) } s
  else if o = 0xFF8 ∧ v = 0 ∧ b.bell = 2 then setMailbox f { b with bell := 0 } s
  else s

/-- An aligned 8-byte word that function `f` writes at offset `o` of its BAR0 (R409); before the boot has ended nothing is there, and in Recovery
only the mailbox (R414, R418). -/
def bar0Write (f o v : Nat) (s : State) : State :=
  if s.svc.boot = .off ∨ 64 ≤ f ∨ o % 8 ≠ 0 then s
  else if 0x10000 ≤ o ∧ o < 0x11000 then writeMailbox f (o - 0x10000) v s
  else if s.svc.boot = .recovery then s
  else if 0x12000 ≤ o ∧ o < 0x12400 then
    let j := (o - 0x12000) / 16
    let a := apertureOf s f j
    if o % 16 = 0 then setAperture f j v (apertureWord a 1) s else setAperture f j (apertureWord a 0) v s
  else if 0x20000 ≤ o ∧ o < 0x21000 then writeVector f (o - 0x20000) v s
  else if 0x400000 ≤ o ∧ o < 0x800000 then ringBar0 f (o - 0x400000) v s
  else s

end Sys2Proof.Machine
end

