-- ==== Sys2Proof/Machine/Debug.lean ====
section
/-!
DEFINITION. Sys2Proof/Machine/Debug.lean: the debugger's requests (R429, R433), watchpoints (R430, R431), stop-the-cluster (R432) and the
drain of the trace buffers (R434).
-/

namespace Sys2Proof.Machine

/-! ## Who is named (R422, R429) -/

/-- A request of the debugger about context `cid`: from function 0, or from the owner where DEBUG = 1. -/
def dbgCtx (m : Mbx) (cid : Nat) (f : State → Reply) (s : State) : Reply :=
  if !mayName s m.func cid then deny mbNoctx s
  else if m.func ≠ 0 ∧ !(s.ctx cid).debugOk then deny mbDenied s
  else f s

/-- The physical tile on which a logical place stands, among those of contexts that a function may name. -/
def tileAt (s : State) (func place : Nat) : Option Nat :=
  (s.tiles.find? fun e => e.2.place == some place && mayName s func e.2.sys.cid).map fun e => e.1

/-- A request about the tile at a logical place. -/
def dbgTile (m : Mbx) (place : Nat) (f : Nat → State → Reply) (s : State) : Reply :=
  match tileAt s m.func place with
  | none => deny mbNoctx s
  | some p => dbgCtx m (s.tile p).sys.cid (f p) s

/-- The tiles of the cluster of tile `p`: those of its context whose logical places share it. -/
def clusterTiles (s : State) (p : Nat) : List Nat :=
  (s.tiles.filter fun e => e.2.sys.cid == (s.tile p).sys.cid && (match e.2.place with | some a => a / 16 == s.placeOf p / 16 | none => false)).map
    fun e => e.1

/-! ## Stopping a cluster (R432) -/

/-- Stop-the-cluster sent to every tile of a tile's cluster; one already on its way is the same stop. -/
def sendStop (p : Nat) (s : State) : State :=
  (clusterTiles s p).foldl (fun s q =>
    if s.fab.net.any fun m => m.kind == .stop && m.dst == q then s
    else s.onFab fun f => { f with net := f.net ++ [{ kind := .stop, cid := (s.tile q).sys.cid, dst := q }] }) s

/-- STOP_THE_CLUSTER_ARRIVAL (R432): an Idle tile is Stopped at once; any other takes the stop at its task boundary or with its leader. -/
def execStopTheClusterArrival (p : Nat) (s : State) : Out :=
  .next (let t := s.tile p
  if !(s.fab.net.any fun m => m.kind == .stop && m.dst == p) then s
  else
    let s := s.onFab fun f => { f with net := f.net.filter fun m => !(m.kind == .stop && m.dst == p) }
    match t.life with
    | .idle =>
      let s := s.onTile p fun t => { t with dbg := { t.dbg with stopSkid := 0 }, pend := { t.pend with stop := true } }
      let s := stopTrace p s
      s.onTile p fun t => { t with life := .stopped, pend := { t.pend with stop := false }, mx := { t.mx with started := !t.mx.queue.isEmpty } }
    | .running | .member | .saving | .restoring =>
      if t.pend.stop then s else s.setTile p { t with pend := { t.pend with stop := true }, dbg := { t.dbg with stopSkid := 0 } }
    | .off | .reset | .stopped | .faulted => s)

/-- A Stopped tile goes on (R429, R433): a suspended task to its end, else Idle; its held input comes in. -/
def resumeTile (p : Nat) (s : State) : State :=
  let t := s.tile p
  let t := { t with pend := { t.pend with stop := false } }
  if t.life != .stopped then s.setTile p t
  else if t.dbg.suspended then
    s.setTile p { t with life := .running, dbg := { t.dbg with suspended := false, stepping := false, stepN := 0 },
                         task := { t.task with run := { t.task.run with start := s.clk } }, mx := { t.mx with started := false } }
  else wakeDispatch p (s.setTile p { t with life := .idle, mx := { t.mx with started := false } })

/-! ## Requests (R429) -/

/-- ATTACH (R429, R388): a context with DEBUG = 0 refuses function 0. -/
def execAttach (m : Mbx) (s : State) : Out :=
  .next (request 0x60 false m (fun s =>
    if m.ops.length ≠ 1 ∨ bits (op m 0) 63 12 ≠ 0 then deny mbMalformed s
    else dbgCtx m (op m 0) (fun s =>
      if !(s.ctx (op m 0)).debugOk then deny mbRefused s
      else
        let s := s.onCtx (op m 0) fun c => { c with attached := true, attachedEver := true }
        .answer 0 [] (setMailbox m.func { mailboxOf s m.func with att := some (op m 0) } s)) s) s)

/-- One held record at DETACH: restarted, or killed where it is EXPOSED or NR. -/
def detachRec (p : Nat) (s : State) (e : Nat × Rec) : State :=
  let r := e.2
  if !r.hold || !(r.trapc == cBkpt || r.trapc == cWatch) then s
  else
    let s := match pagerEntry s p e.1 r.asn with | some w => pagerTook p e.1 r.asn w s | none => s
    if r.exposed || r.nr then (s.onTile p (killRec e.1)).push [.ctxFault (s.tile p).sys.cid]
    else wakeDispatch p ((s.onTile p (restartRec e.1 r)).onCtx (s.tile p).sys.cid fun c => { c with restarted := true })

/-- DETACH on one tile. -/
def detachTile (s : State) (p : Nat) : State :=
  let s := s.onTile p fun t => { t with sys := { t.sys with wpa := [], wpc := [] }, dbg := { t.dbg with watch := none } }
  resumeTile p ((s.tile p).task.recs.foldl (detachRec p) s)

/-- DETACH (R429). -/
def execDetach (m : Mbx) (s : State) : Out :=
  .next (request 0x61 false m (fun s =>
    if m.ops.length ≠ 1 ∨ bits (op m 0) 63 12 ≠ 0 then deny mbMalformed s
    else dbgCtx m (op m 0) (fun s =>
      .answer 0 [] ((tilesOf s (op m 0)).foldl detachTile (s.onCtx (op m 0) fun c => { c with attached := false }))) s) s)

/-- STOP (R429): the operand is a logical place in the cluster. -/
def execStop (m : Mbx) (s : State) : Out :=
  .next (request 0x62 false m (fun s =>
    if m.ops.length ≠ 1 then deny mbMalformed s
    else dbgTile m (op m 0) (fun p s => .answer 0 [] (sendStop p s)) s) s)

/-- RESUME (R429). -/
def execResume (m : Mbx) (s : State) : Out :=
  .next (request 0x63 false m (fun s =>
    if m.ops.length ≠ 1 then deny mbMalformed s
    else dbgTile m (op m 0) (fun p s =>
      .answer 0 [] ((clusterTiles s p).foldl (fun s q => if (s.tile q).life == .stopped then resumeTile q s else s) s)) s) s)

/-- A tile put in step mode for `n` bundles, the first of which issues next. -/
def stepMode (n : Nat) (clk : Nat) (t : Tile) : Tile :=
  { t with life := .running, dbg := { t.dbg with stepping := true, stepN := n, suspended := false },
           task := { t.task with run := { t.task.run with start := clk, fresh := false } } }

/-- STEP (R433): a suspended record goes on; one held for BKPT or WATCH starts again from its entry. -/
def stepReply (p k n : Nat) (s : State) : Reply :=
  let t := s.tile p
  if t.life != .stopped then deny mbBusy s
  else if n = 0 ∨ 65535 < n ∨ 128 ≤ k then deny mbRefused s
  else match t.task.recs.find? fun e => e.1 == k with
    | none => deny mbRefused s
    | some (_, r) =>
      if t.dbg.suspended && t.task.run.idx == k then .answer 0 [] (s.setTile p (stepMode n s.clk t))
      else if t.dbg.suspended || !r.hold || !(r.trapc == cBkpt || r.trapc == cWatch) || r.exposed || r.nr then deny mbRefused s
      else
        let s := match pagerEntry s p k r.asn with | some w => pagerTook p k r.asn w s | none => s
        let s := s.onTile p (restartRec k r)
        let s := beginTask p k (FMap.get {} (s.tile p).task.recs k) s
        .answer 0 [] ((s.onTile p (stepMode n s.clk)).onCtx t.sys.cid fun c => { c with restarted := true })

/-- STEP (R429, R433). -/
def execStep (m : Mbx) (s : State) : Out :=
  .next (request 0x64 false m (fun s =>
    if m.ops.length ≠ 3 then deny mbMalformed s
    else dbgTile m (op m 0) (fun p s => stepReply p (op m 1) (op m 2) s) s) s)

/-- Whether the second operand of READ and WRITE names a system register: bit [63] says so (log 41), and the number follows. -/
def namesReg (w : Nat) : Bool := bit w 63
def regNo (w : Nat) : Nat := bits w 62 0

/-- Whether a control offset may be named (R26). -/
def ctlOk (o : Nat) : Bool := o % 8 == 0 && decide (o < 2 ^ 28) && ctlMapped o

/-- READ (R429). -/
def readReply (p w : Nat) (s : State) : Reply :=
  let t := s.tile p
  if t.life != .stopped then deny mbBusy s
  else if namesReg w then
    (if sysAssigned (regNo w) then .answer 0 [(sysRead s p t.sys (regNo w)).toNat] s else deny mbRefused s)
  else if ctlOk w then .answer 0 [ctlRead t w] s
  else deny mbRefused s

/-- READ (R429). -/
def execRead (m : Mbx) (s : State) : Out :=
  .next (request 0x65 false m (fun s =>
    if m.ops.length ≠ 2 then deny mbMalformed s
    else dbgTile m (op m 0) (fun p s => readReply p (op m 1) s) s) s)

/-- WRITE (R429): a system register under the limits that MTS keeps (R29, R113). -/
def writeReply (p w v : Nat) (s : State) : Reply :=
  let t := s.tile p
  let x := BitVec.ofNat 64 v
  if t.life != .stopped then deny mbBusy s
  else if namesReg w then
    let n := regNo w
    (if !sysAssigned n || sysLimit t n x || (decide (0x11 ≤ n) && decide (n < 0x20) && !wdOk v) then deny mbRefused s
    else .answer 0 [] (s.setTile p (sysWrite n x t)))
  else if ctlOk w then .answer 0 [] (s.setTile p (ctlWrite t w v))
  else deny mbRefused s

/-- WRITE (R429). -/
def execWrite (m : Mbx) (s : State) : Out :=
  .next (request 0x66 false m (fun s =>
    if m.ops.length ≠ 3 then deny mbMalformed s
    else dbgTile m (op m 0) (fun p s => writeReply p (op m 1) (op m 2) s) s) s)

/-- Whether every page of a range of a context is mapped W. -/
def mappedW (s : State) (cid va n : Nat) : Bool :=
  (segs va n).all fun e => match walk s cid e.1 with | .leaf _ w0 _ _ => bit w0 2 | _ => false

/-- TRACE (R429, R434): the ring's VA, its log size and the enable, for the context that the function attached last (log 41); the whole header is
zeroed. -/
def execTrace (m : Mbx) (s : State) : Out :=
  .next (request 0x67 false m (fun s =>
    if m.ops.length ≠ 3 then deny mbMalformed s
    else match (mailboxOf s m.func).att with
    | none => deny mbNoctx s
    | some cid => dbgCtx m cid (fun s =>
      let va := op m 0
      let lg := op m 1
      if lg < 16 ∨ 30 < lg ∨ 2 ^ 56 ≤ va ∨ va % 4096 ≠ 0 ∨ !mappedW s cid va (64 + 2 ^ lg) ∨ 1 < op m 2 then deny mbRefused s
      else
        let s := (List.range 8).foldl (fun s (i : Nat) => plainPut cid (va + 8 * i) 8 0 s) s
        .answer 0 [] (s.onCtx cid fun c => { c with traceva := va, tracelog := lg, traceOn := op m 2 == 1 })) s) s)

/-- CLEARACCT (R436). -/
def execClearacct (m : Mbx) (s : State) : Out :=
  .next (request 0x68 false m (fun s =>
    if m.ops.length ≠ 1 then deny mbMalformed s
    else dbgTile m (op m 0) (fun p s =>
      .answer 0 [] ((clusterTiles s p).foldl (fun s q => s.onTile q fun t => { t with sys := { t.sys with dacct := [] } }) s)) s) s)

/-! ## Watchpoints (R431) -/

/-- Hits of one task gathered: the masks, the engine bit, the lowest byte. -/
def mergeWatch (o : Option (Nat × Nat × Nat)) (k eng off : Nat) : Nat × Nat × Nat :=
  match o with
  | some (m, e, a) => (Nat.lor m (2 ^ k), Nat.lor e eng, Nat.min a off)
  | none => (2 ^ k, eng, off)

/-- WATCHPOINT_HIT (R431): watchpoint `k` of tile `p` hit at `off`; bit 0 of `wr` is a write, bit 1 an engine's access. A hit at a yoke member is
one of its leader's task (R325). -/
def execWatchpointHit (p k off wr : Nat) (s : State) : Out :=
  .next (let t := s.tile p
  let c := (FMap.get 0 t.sys.wpc k).toNat
  if 4 ≤ k then s
  else
    let t := { t with sys := { t.sys with wpc := FMap.put t.sys.wpc k (FMap.get 0 t.sys.wpc k ||| 0x20000) } }
    let s := (s.setTile p t).onTile (watchTile s p) fun t =>
      if t.life == .running then { t with dbg := { t.dbg with watch := some (mergeWatch t.dbg.watch k (bits wr 1 1) off) } } else t
    if bit c 16 && (s.ctx t.sys.cid).attached then sendStop p s else s)

/-- WATCH_TRAP (R431): a hit that waits is taken at a bundle boundary. -/
def execWatchTrap (p : Nat) (s : State) : Out :=
  .next (let t := s.tile p
  if t.dbg.watch.isNone || pinned t then s
  else if t.yk.blocks then takeWatchAt p (yokeAt t.yk) true (undoBlk p s)
  else takeWatch p s)

/-! ## Trace (R434) -/

/-- A record written to a context's trace ring, or dropped and counted. -/
def ringTrace (cid : Nat) (r : List Nat) (s : State) : State :=
  let c := s.ctx cid
  let lose := plainPut cid (c.traceva + 16) 8 (Nat.min ((plainNum s cid (c.traceva + 16) 8).getD 0 + 1) (2 ^ 64 - 1)) s
  match plainNum s cid c.traceva 8, plainNum s cid (c.traceva + 8) 8 with
  | some head, some tail =>
    if (head + 2 ^ 64 - tail) % 2 ^ 64 = 2 ^ (c.tracelog - 6) || !mappedW s cid (c.traceva + 64 + 64 * (head % 2 ^ (c.tracelog - 6))) 64 then lose
    else match plainWrite cid (c.traceva + 64 + 64 * (head % 2 ^ (c.tracelog - 6))) (wordBytes (r.take 8)) s with
      | some s => plainPut cid c.traceva 8 ((head + 1) % 2 ^ 64) s
      | none => lose
  | _, _ => lose

/-- The context whose partition holds a physical cluster. -/
def clusterCtx (s : State) (p : Nat) : Option Nat :=
  (s.tiles.find? fun e => e.1 / 16 == p / 16 && e.2.place.isSome).map fun e => e.2.sys.cid

/-- The context of a trace record; one made while the cluster had none belongs to the next (R434). -/
def traceCtx (s : State) (p : Nat) (r : List Nat) : Nat := if r.getD 8 0 = 0 then (clusterCtx s p).getD 0 else r.getD 8 0

/-- The gate requests of a cluster whose trace buffer is empty are granted (R34). -/
def drainGates (p : Nat) (s : State) : State :=
  if (FMap.get [] s.fab.trace (p / 16)).isEmpty then
    ((s.tiles.map (·.1)).filter fun q => q / 16 == p / 16).foldl (fun s q => if mayGate (s.tile q) && (s.tile q).pend.gate then gateTile q s else s) s
  else s

/-- TRACE_DRAIN (R434, R34): the oldest record of tile `p`'s cluster goes to its context's ring; with the last of them a gate request's
wait is over. -/
def execTraceDrain (p : Nat) (s : State) : Out :=
  .next (match FMap.get [] s.fab.trace (p / 16) with
  | r :: l =>
    let cid := traceCtx s p r
    if (s.ctx cid).traceOn then drainGates p (ringTrace cid r (s.onFab fun f => { f with trace := FMap.put f.trace (p / 16) l })) else s
  | [] => s)

end Sys2Proof.Machine
end

