-- ==== Sys2Proof/Machine/Matrix.lean ====
section
/-!
DEFINITION. Sys2Proof/Machine/Matrix.lean: the X instructions (R163 to R181): configuration, the checks of queued commands,
the queue, waits and jobs.
-/

namespace Sys2Proof.Machine

/-! ## Configuration -/

/-- K outside its limits (R170). -/
def badK (k : Nat) : Bool := decide (k > 4096) || k % 4 != 0

/-- MCFG (R171). -/
def execMcfg (x : X) (s : State) : Out :=
  .next (guarded x.g x.n (fun s =>
    let a := (rg s x.a).toNat
    let b := (rg s x.b).toNat
    checked [(bits a 31 13 != 0 || bits a 63 53 != 0 || bits b 31 21 != 0 || bits b 63 53 != 0 || badK (bits a 12 0), tr cIllegalOp)]
      (fun s => s.onT fun t => { t with sys := { t.sys with
        kdim := BitVec.ofNat 64 (bits a 12 0), msa := BitVec.ofNat 64 (bits a 52 32),
        msb := BitVec.ofNat 64 (bits b 20 0), msd := BitVec.ofNat 64 (bits b 52 32) } }) s) s)

/-- MCFG.L (R171): MSD stays. -/
def execMcfgL (x : L) (s : State) : Out :=
  .next (guarded x.g x.n (fun s =>
    let a := (rg s x.a).toNat
    let b := (rg s x.b).toNat
    checked [(bits x.imm 31 13 != 0 || badK (bits x.imm 12 0) || bits a 63 21 != 0 || bits b 63 21 != 0, tr cIllegalOp)]
      (fun s => s.onT fun t => { t with sys := { t.sys with
        kdim := BitVec.ofNat 64 (bits x.imm 12 0), msa := BitVec.ofNat 64 a, msb := BitVec.ofNat 64 b } }) s) s)

/-! ## The footprint of an operand -/

/-- Rows of elements in SRAM through a window: the offset of row 0, the row distance, the rows, and the elements per row. -/
structure Rows where
  w : Nat := 0
  o : Nat := 0
  stride : Nat := 0
  n : Nat := 0
  len : Nat := 0
deriving DecidableEq, Repr

/-- The offset of row `i`. -/
def Rows.at (r : Rows) (i : Nat) : Nat := r.o + i * r.stride

/-- Data bytes of one row. -/
def Rows.bytes (r : Rows) : Nat := r.len * fmtBits (wFmt r.w) / 8

/-- The index of a row's first element in its window (R172). -/
def elemIndex (w o : Nat) : Nat := o * 8 / fmtBits (wFmt w)

/-- The scale bytes of row `i`: the first and how many (R102, R172). -/
def Rows.scale (r : Rows) (i : Nat) : Nat × Nat :=
  let e := elemIndex r.w (r.at i)
  (wSpb r.w + e / 4, (e + r.len - 1) / 4 + 1 - e / 4)

/-- Whether a row has scale bytes. -/
def Rows.scaled (r : Rows) : Bool := fmtScaled (wFmt r.w)

/-- Whether the rows hold any byte. -/
def Rows.any (r : Rows) : Bool := r.n != 0 && r.len != 0

/-- Whether a data byte or a scale byte lies beyond 0x1F_FFFF. -/
def Rows.past (r : Rows) : Bool :=
  r.any && (decide (r.at (r.n - 1) + r.bytes > sramTop)
    || (r.scaled && decide ((r.scale (r.n - 1)).1 + (r.scale (r.n - 1)).2 > sramTop)))

/-- Whether a row's start misses the window's alignment (R127, R172). -/
def Rows.misaligned (r : Rows) : Bool :=
  r.any && ((List.range r.n).any fun i => r.at i % fmtAlign (wFmt r.w) != 0 || (r.scaled && elemIndex r.w (r.at i) % 4 != 0))

/-- The bank group of a byte (R24). -/
def bankOf (o : Nat) : Nat := o / 2 ^ 19

/-- Whether the data bytes span two bank groups. -/
def Rows.spans (r : Rows) : Bool := r.any && bankOf r.o != bankOf (r.at (r.n - 1) + r.bytes - 1)

/-- Whether a scale byte lies in a bank group. -/
def Rows.scaleIn (r : Rows) (g : Nat) : Bool :=
  r.any && r.scaled && ((List.range r.n).any fun i =>
    let e := r.scale i
    decide (bankOf e.1 ≤ g) && decide (g ≤ bankOf (e.1 + e.2 - 1)))

/-- Whether a sector of the rows' data or scale bytes is poisoned. -/
def Rows.poisoned (r : Rows) (t : Tile) : Bool :=
  r.any && ((List.range r.n).any fun i => t.poisoned (r.at i) r.bytes || (r.scaled && t.poisoned (r.scale i).1 (r.scale i).2))

/-! ## Commands -/

/-- An SRAM address of a command in space 0 (R167). -/
def space0 (a : W64) : Bool := decide (a.toNat < 2 ^ 28)

/-- The window of a command's address, as captured at issue (R90, R167). -/
def winAt (s : State) (a : W64) : Nat := wdOf s.t (bits a.toNat 27 24)

/-- TA[23:21] of a command's address must be zero (R23). -/
def offBad (a : W64) : Bool := bits a.toNat 23 21 != 0

/-- The operand A of a product: 32 rows of K elements (R172). -/
def rowsA (w o k stride : Nat) : Rows := { w := w, o := o, stride := stride, n := 32, len := k }

/-- The operand B: K rows of 32 elements, or 32 rows of K for the transposing forms. -/
def rowsB (w o k stride : Nat) (tr : Bool) : Rows :=
  { w := w, o := o, stride := stride, n := if tr then 32 else k, len := if tr then k else 32 }

/-- A command's fields as captured at issue. -/
def capture (s : State) (op v3 : Nat) (x : X) : MCmd :=
  let y := preSys s.t
  { op := op, c := x.c, v3 := v3, a := bits (rg s x.a).toNat 20 0, b := bits (rg s x.b).toNat 20 0,
    wa := winAt s (rg s x.a), wb := winAt s (rg s x.b), kdim := y.kdim.toNat, msa := y.msa.toNat, msb := y.msb.toNat,
    msd := y.msd.toNat, job := s.t.mx.job, jn := s.t.mx.jn }

/-- A command that has passed its checks: it enters the queue, or its bundle stalls while 16 are held (R167). -/
def enqueue (m : MCmd) (s : State) : State :=
  if 16 ≤ s.t.mx.queue.length then stall .mqueue s
  else s.onT fun t => { t with mx := { t.mx with queue := t.mx.queue ++ [m] } }

/-- Windows that a product refuses: RAW and I16 (R172). -/
def winBad (s : State) (a : W64) : Bool := space0 a && (wFmt (winAt s a) == 0 || wFmt (winAt s a) == 9)

/-- One operand of the float family and the other of the integer family (R172). -/
def familyBad (s : State) (a b : W64) : Bool :=
  space0 a && space0 b && fmtFloat (wFmt (winAt s a)) != fmtFloat (wFmt (winAt s b))

/-- The checks of a product (R172); with K = 0 only the first three rows of its table. A check of both operands together names A in DADDR
(log 82). -/
def mmaChecks (s : State) (v3 : Nat) (x : X) : List (Bool × TrapInfo) :=
  let a := rg s x.a
  let b := rg s x.b
  let y := preSys s.t
  let k := y.kdim.toNat
  let ra := rowsA (winAt s a) (bits a.toNat 20 0) k y.msa.toNat
  let rb := rowsB (winAt s b) (bits b.toNat 20 0) k y.msb.toNat (bit v3 0)
  let da := a.toNat % 2 ^ 32
  let db := b.toNat % 2 ^ 32
  let live := k != 0
  [(!space0 a, tr cLocalRange da), (!space0 b, tr cLocalRange db), (winBad s a, tr cWindow da), (winBad s b, tr cWindow db),
   (live && familyBad s a b, tr cWindow da),
   (live && space0 a && (offBad a || ra.past), tr cLocalRange da), (live && space0 b && (offBad b || rb.past), tr cLocalRange db),
   (live && ra.misaligned, tr cAlign da), (live && rb.misaligned, tr cAlign db),
   (live && (ra.spans || rb.spans || bankOf ra.o == bankOf rb.o), tr cBank da),
   (live && (ra.scaleIn (bankOf rb.o) || rb.scaleIn (bankOf ra.o)), tr cBank da)]

/-- A product queued (R172, R173): FN6 1, or 2 for the forms that start from zero. -/
def mmaForm (op v3 : Nat) (x : X) (s : State) : Out :=
  .next (guarded x.g x.n (fun s => checked (mmaChecks s v3 x) (enqueue (capture s op v3 x)) s) s)

/-- MMA (R173). -/
def execMma (x : X) (s : State) : Out := mmaForm 1 0 x s
/-- MMAT (R173). -/
def execMmat (x : X) (s : State) : Out := mmaForm 1 1 x s
/-- MMS (R173). -/
def execMms (x : X) (s : State) : Out := mmaForm 1 2 x s
/-- MMST (R173). -/
def execMmst (x : X) (s : State) : Out := mmaForm 1 3 x s
/-- MMAZ (R173). -/
def execMmaz (x : X) (s : State) : Out := mmaForm 2 0 x s
/-- MMAZT (R173). -/
def execMmazt (x : X) (s : State) : Out := mmaForm 2 1 x s
/-- MMSZ (R173). -/
def execMmsz (x : X) (s : State) : Out := mmaForm 2 2 x s
/-- MMSZT (R173). -/
def execMmszt (x : X) (s : State) : Out := mmaForm 2 3 x s

/-- MZERO (R175). -/
def execMzero (x : X) (s : State) : Out := .next (guarded x.g x.n (fun s => enqueue (capture s 3 0 x) s) s)

/-- The rows of MLDAC and MSTAC: 32 of 128 bytes at MSD (R175). -/
def rawRows (o stride : Nat) : Rows := { w := 0, o := o, stride := stride, n := 32, len := 32 }

/-- The checks of MLDAC and MSTAC, with their trailer (R175). -/
def rawChecks (s : State) (f : Bool) (x : X) : List (Bool × TrapInfo) :=
  let a := rg s x.a
  let d := a.toNat % 2 ^ 32
  let o := bits a.toNat 20 0
  let st := (preSys s.t).msd.toNat
  [(space0 a && wFmt (winAt s a) != 0, tr cWindow d),
   (!space0 a || offBad a || (rawRows o st).past || (f && decide (o + 32 * st + 16 > sramTop)), tr cLocalRange d),
   (o % 4 != 0 || st % 4 != 0 || (f && (o + 32 * st) % 8 != 0), tr cAlign d)]

/-- MLDAC or MSTAC queued. -/
def rawForm (op v3 : Nat) (x : X) (s : State) : Out :=
  .next (guarded x.g x.n (fun s => checked (rawChecks s (v3 == 1) x) (enqueue (capture s op v3 x)) s) s)

/-- MLDAC (R175). -/
def execMldac (x : X) (s : State) : Out := rawForm 4 0 x s
/-- MLDACF (R175). -/
def execMldacf (x : X) (s : State) : Out := rawForm 4 1 x s
/-- MSTAC (R175). -/
def execMstac (x : X) (s : State) : Out := rawForm 5 0 x s
/-- MSTACF (R175). -/
def execMstacf (x : X) (s : State) : Out := rawForm 5 1 x s

/-- A counter field of R176 with a non-zero zero field. -/
def cntBad (b : W64) : Bool := decide (b.toNat ≥ 256) || bit b.toNat 6

/-- The rows of a drain (R176). -/
def drainRows (w o stride : Nat) : Rows := { w := w, o := o, stride := stride, n := 32, len := 32 }

/-- The checks of MDRN (R176). -/
def mdrnChecks (s : State) (x : X) : List (Bool × TrapInfo) :=
  let a := rg s x.a
  let d := a.toNat % 2 ^ 32
  let w := winAt s a
  let y := preSys s.t
  let r := drainRows w (bits a.toNat 20 0) y.msd.toNat
  [(cntBad (rg s x.b), tr cIllegalOp), (!space0 a || offBad a || r.past, tr cLocalRange d),
   (space0 a && (r.o % fmtAlign (wFmt w) != 0 || y.msd.toNat % fmtAlign (wFmt w) != 0 || r.misaligned), tr cAlign d),
   (space0 a && fmtCode (wFmt w) && !tableOk y (wTbl w) (fmtNib (wFmt w)), tr cTable d)]

/-- MDRN (R176): the counter is the drain's. -/
def execMdrn (x : X) (s : State) : Out :=
  .next (guarded x.g x.n (fun s =>
    let b := (rg s x.b).toNat
    checked (mdrnChecks s x) (enqueue { capture s 6 0 x with ce := bit b 7, cnt := b % 64 }) s) s)

/-- MHAD (R178): d and k are held in `kdim` and `a`. -/
def execMhad (x : X) (s : State) : Out :=
  .next (guarded x.g x.n (fun s =>
    let a := (rg s x.a).toNat
    checked [(decide (a ≥ 2 ^ 38), tr cIllegalOp)] (enqueue { capture s 7 0 x with kdim := bits a 31 0, a := bits a 37 32 }) s) s)

/-- The checks of MSCLC and MADDR (R178). -/
def srcRowChecks (s : State) (x : X) : List (Bool × TrapInfo) :=
  let a := rg s x.a
  let d := a.toNat % 2 ^ 32
  let o := bits a.toNat 20 0
  [(space0 a && wFmt (winAt s a) != 0, tr cWindow d), (!space0 a || offBad a || decide (o + 128 > sramTop), tr cLocalRange d),
   (o % 4 != 0, tr cAlign d)]

/-- MSCLC (R178). -/
def execMsclc (x : X) (s : State) : Out :=
  .next (guarded x.g x.n (fun s => checked (srcRowChecks s x) (enqueue (capture s 8 0 x)) s) s)

/-- MADDR (R178). -/
def execMaddr (x : X) (s : State) : Out :=
  .next (guarded x.g x.n (fun s => checked (srcRowChecks s x) (enqueue (capture s 9 0 x)) s) s)

/-- MCLRF (R179). -/
def execMclrf (x : X) (s : State) : Out := .next (guarded x.g x.n (fun s => enqueue (capture s 11 0 x) s) s)

/-! ## Waits and jobs -/

/-- Whether a queued command names accumulator c. -/
def accBusy (t : Tile) (c : Nat) : Bool := t.mx.queue.any fun m => m.c == c

/-- A command or MRDF reads accumulator `c` as it is stored: an error in one of its words sets PD and PSN (R179). -/
def seeAccBad (c : Nat) (t : Tile) : Tile :=
  if t.accBad.any fun e => e.1 / 1024 == c then { t with regs := accSetPd (accOr t.regs c accPsn) c true } else t

/-- MRDF (R179). -/
def execMrdf (x : X) (s : State) : Out :=
  .next (guarded x.g x.n (fun s =>
    if accBusy s.t x.c then stall (.mrdf x.c) s
    else
      let s := s.onT (seeAccBad x.c)
      wg x.a (BitVec.ofNat 64 (FMap.get 0 s.t.regs.accst x.c)) s) s)

/-- MWAIT (R180). -/
def execMwait (x : X) (s : State) : Out :=
  .next (guarded x.g x.n (fun s => if s.t.mx.queue.isEmpty then s else stall (.mwait none) s) s)

/-- MWAIT on one accumulator (R180). -/
def execMwaitAc (x : X) (s : State) : Out :=
  .next (guarded x.g x.n (fun s => if accBusy s.t x.c then stall (.mwait (some x.c)) s else s) s)

/-- Whether a queued command carries a job number. -/
def jobBusy (t : Tile) (j : Nat) : Bool := t.mx.queue.any fun m => m.job == j

/-- Whether a queued command belongs to the `n`-th job. -/
def jobOpen (t : Tile) (n : Nat) : Bool := t.mx.queue.any fun m => m.jn == n

/-- MJOB (R181): an empty job decrements its counter at once. -/
def execMjob (x : X) (s : State) : Out :=
  .next (guarded x.g x.n (fun s =>
    let b := (rg s x.b).toNat
    checked [(cntBad (rg s x.b), tr cIllegalOp)] (fun s =>
      let j := s.t.mx.job
      let busy := jobOpen s.t s.t.mx.jn
      let s' := wg x.a (BitVec.ofNat 64 j) (s.onT fun t => { t with mx := { t.mx with
        job := (j + 1) % 256, jn := t.mx.jn + 1, closed := if bit b 7 && busy then t.mx.closed ++ [(t.mx.jn, true, b % 64)] else t.mx.closed } })
      if bit b 7 && !busy then decCounter s.cur (b % 64) s' else s') s) s)

/-- MTSTJ (R181). -/
def execMtstj (x : X) (s : State) : Out :=
  .next (guarded x.g x.n (fun s =>
    let b := (rg s x.b).toNat
    checked [(decide (b ≥ 256), tr cIllegalOp)] (fun s => wg x.a (if jobBusy s.t b then 0 else 1) s) s) s)

end Sys2Proof.Machine
end

