-- ==== Sys2Proof/Machine/MatrixUnit.lean ====
section
/-!
DEFINITION. Sys2Proof/Machine/MatrixUnit.lean: the matrix unit's own steps: commands complete in issue order (R167), closed
jobs end (R181).
-/

namespace Sys2Proof.Machine

/-! ## Elements -/

/-- Element `e` of the row at offset `o`, as stored (R101, R172). -/
def rawElem (t : Tile) (w o e : Nat) : Nat :=
  if fmtNib (wFmt w) then
    let b := Mem.le t.sram (o + e / 2) 1
    if e % 2 = 0 then b % 16 else b / 16
  else Mem.le t.sram (o + e * (fmtBits (wFmt w) / 8)) (fmtBits (wFmt w) / 8)

/-- The scale byte of element `e` of the row at offset `o` (R102). -/
def rawScale (t : Tile) (w o e : Nat) : Nat := Mem.le t.sram (wSpb w + (elemIndex w o + e) / 4) 1

/-- A float element with its block scale applied exactly (R173). -/
def elemFloat (t : Tile) (w o e : Nat) : FV :=
  let r := rawElem t w o e
  if wFmt w = 3 then f16.unpack r
  else if wFmt w = 4 then bf16.unpack r
  else if fmtScaled (wFmt w) then scaled (decodeCode t.sys (wTbl w) r) (rawScale t w o e)
  else decodeCode t.sys (wTbl w) r

/-- An integer element: I8 signed, N8 unsigned (R173). -/
def elemInt (t : Tile) (w o e : Nat) : Int :=
  let r := rawElem t w o e
  if wFmt w = 7 then sext r 8 else (r : Int)

/-- Element (i, j) of accumulator c. -/
def accAt (t : Tile) (c i j : Nat) : Nat := (FMap.get 0 t.regs.acc (1024 * c + 32 * i + j)).toNat

/-- An accumulator's elements replaced, and with them their errors. -/
def setAcc (t : Tile) (c : Nat) (f : Nat → Nat → Nat) : Tile :=
  let m := (List.range 1024).foldl (fun m k => FMap.set 0 m (1024 * c + k) (BitVec.ofNat 32 (f (k / 32) (k % 32)))) t.regs.acc
  { t with regs := { t.regs with acc := m }, accBad := t.accBad.filter fun e => e.1 / 1024 != c }

/-! ## Products (R173) -/

/-- One chunk of four in the float family: the accumulator, and the flags so far. A signalling NaN raises nothing (log 114). -/
def stepFloat (neg : Bool) (ps : List (FV × FV)) (st : Nat × BitVec 5) : Nat × BitVec 5 :=
  let ms := ps.map fun p => p.1.mul p.2
  let x := FV.sum 0 (ms.map (·.1))
  let t := f32.finish 0 (x.1, x.2 || ms.any (·.2))
  let u := f32.unpack t.1
  let y := FV.sum 0 [f32.unpack st.1, if neg then u.neg else u]
  let r := f32.finish 0 y
  (r.1, st.2 ||| t.2 ||| r.2)

/-- One chunk of four in the integer family: the accumulator clamped, and SAT. -/
def stepInt (neg : Bool) (ps : List (Int × Int)) (st : Nat × Bool) : Nat × Bool :=
  let x := ps.foldl (fun a p => a + p.1 * p.2) 0
  let u := if neg then sext st.1 32 - x else sext st.1 32 + x
  let c : Int := if u < -(2 ^ 31) then -(2 ^ 31) else if u > 2 ^ 31 - 1 then 2 ^ 31 - 1 else u
  (wrapN 32 c, st.2 || c != u)

/-- The offset of the row that holds b(k, j), and the element in it. -/
def bPos (m : MCmd) (k j : Nat) : Nat × Nat := if bit m.v3 0 then (m.b + j * m.msb, k) else (m.b + k * m.msb, j)

/-- The four k of chunk `c`. -/
def chunk (c : Nat) : List Nat := [4 * c, 4 * c + 1, 4 * c + 2, 4 * c + 3]

/-- One element of a product in the float family. -/
def mmaFloat (t : Tile) (m : MCmd) (i j : Nat) : Nat × BitVec 5 :=
  (List.range (m.kdim / 4)).foldl (fun st c => stepFloat (bit m.v3 1) ((chunk c).map fun k =>
    (elemFloat t m.wa (m.a + i * m.msa) k, elemFloat t m.wb (bPos m k j).1 (bPos m k j).2)) st)
    (if m.op = 2 then 0 else accAt t m.c i j, 0)

/-- One element of a product in the integer family. -/
def mmaInt (t : Tile) (m : MCmd) (i j : Nat) : Nat × Bool :=
  (List.range (m.kdim / 4)).foldl (fun st c => stepInt (bit m.v3 1) ((chunk c).map fun k =>
    (elemInt t m.wa (m.a + i * m.msa) k, elemInt t m.wb (bPos m k j).1 (bPos m k j).2)) st)
    (if m.op = 2 then 0 else accAt t m.c i j, false)

/-- The element numbers of an accumulator. -/
def cells : List (Nat × Nat) := (List.range 1024).map fun k => (k / 32, k % 32)

/-- PD and PSN after the reads of a command: PD takes the poison alone where it starts anew (R173, R175). -/
def accPoison (c : Nat) (fresh bad : Bool) (r : Regs) : Regs :=
  let r := if fresh then accSetPd r c bad else if bad then accSetPd r c true else r
  if bad then accOr r c accPsn else r

/-- A product (R173). -/
def mmaRun (m : MCmd) (t : Tile) : Tile :=
  let bad := (rowsA m.wa m.a m.kdim m.msa).poisoned t || (rowsB m.wb m.b m.kdim m.msb (bit m.v3 0)).poisoned t
  let t' :=
    if m.kdim = 0 || fmtFloat (wFmt m.wa) then
      let f := cells.foldl (fun f e => f ||| (mmaFloat t m e.1 e.2).2) 0
      let t' := setAcc t m.c fun i j => (mmaFloat t m i j).1
      { t' with regs := accOr t'.regs m.c (accBits f) }
    else
      let sat := cells.any fun e => (mmaInt t m e.1 e.2).2
      let t' := setAcc t m.c fun i j => (mmaInt t m i j).1
      { t' with regs := accOr t'.regs m.c (if sat then accSat else 0) }
  { t' with regs := accPoison m.c (m.op == 2) bad t'.regs }

/-! ## Completion -/

/-- Engine reads of rows noted for the watchpoints (R431). -/
def noteRows (p : Nat) (wr : Bool) (r : Rows) (s : State) : State :=
  if !r.any then s
  else (List.range r.n).foldl (fun s i =>
    let s := noteAccess p true wr (r.at i) r.bytes s
    if r.scaled then noteAccess p true wr (r.scale i).1 (r.scale i).2 s else s) s

/-- Whether the head command of a tile's queue runs: a Stopped tile completes only the command it had started (R432). -/
def headRuns (t : Tile) : Bool := engLive t || t.mx.started

/-- Whether a command reads accumulator words: all but MZERO, MLDAC, MCLRF and the zeroing product. -/
def readsAcc (op : Nat) : Bool := !(op == 2 || op == 3 || op == 4 || op == 11)

/-- The head command of tile `p` completes if its operation is one of `ops`: its effect, then it leaves the queue. -/
def completeHead (p : Nat) (ops : List Nat) (f : MCmd → State → State) (s : State) : State :=
  match (s.tile p).mx.queue with
  | m :: _ =>
    if ops.contains m.op && headRuns (s.tile p) then
      (f m (if readsAcc m.op then s.onTile p (seeAccBad m.c) else s)).onTile p fun t => { t with mx := { t.mx with queue := t.mx.queue.drop 1, started := false, done := t.mx.done + 1 } }
    else s
  | [] => s

/-- MMA_COMPLETE (R173). -/
def execMmaComplete (p : Nat) (s : State) : Out :=
  .next (completeHead p [1, 2] (fun m s =>
    noteRows p false (rowsB m.wb m.b m.kdim m.msb (bit m.v3 0))
      (noteRows p false (rowsA m.wa m.a m.kdim m.msa) (s.onTile p (m.early.run (mmaRun m))))) s)

/-- MZERO_COMPLETE (R175). -/
def execMzeroComplete (p : Nat) (s : State) : Out :=
  .next (completeHead p [3] (fun m s => s.onTile p fun t =>
    let t' := setAcc t m.c fun _ _ => 0
    { t' with regs := accSetPd t'.regs m.c false }) s)

/-- A raw load of an accumulator (R175): the elements, PD, PSN, and with the trailer the sticky bits. -/
def mldacRun (m : MCmd) (t : Tile) : Tile :=
  let tr := m.a + 32 * m.msd
  let data := (rawRows m.a m.msd).poisoned t
  let bad := data || (m.v3 == 1 && t.poisoned tr 16)
  let t' := setAcc t m.c fun i j => Mem.le t.sram (m.a + i * m.msd + 4 * j) 4
  let r := accSetPd t'.regs m.c bad
  let r := if bad then accOr r m.c accPsn else r
  { t' with regs := if m.v3 = 1 then accOr r m.c (Nat.land (Mem.le t.sram tr 8) accMask) else r }

/-- MLDAC_COMPLETE (R175). -/
def execMldacComplete (p : Nat) (s : State) : Out :=
  .next (completeHead p [4] (fun m s =>
    let s := noteRows p false (rawRows m.a m.msd) (s.onTile p (m.early.run (mldacRun m)))
    if m.v3 = 1 then noteAccess p true false (m.a + 32 * m.msd) 16 s else s) s)

/-- The bytes of accumulator row `i`. -/
def accRow (t : Tile) (c i : Nat) : List Byte := (List.range 32).flatMap fun j => natLe 4 (accAt t c i j)

/-- A raw store of an accumulator (R175): the pieces, the trailer last. -/
def mstacPieces (m : MCmd) (t : Tile) : List (Nat × List Byte) :=
  (List.range 32).map (fun i => (m.a + i * m.msd, accRow t m.c i))
    ++ (if m.v3 = 1 then [(m.a + 32 * m.msd, natLe 8 (FMap.get 0 t.regs.accst m.c) ++ natLe 8 0)] else [])

/-- Whether an accumulator is poisoned. -/
def accPoisoned (t : Tile) (c : Nat) : Bool := bit (FMap.get 0 t.regs.accst c) 15

/-- The raw elements of row `i` with their flags, and the row's scale bytes. -/
def drainRow (t : Tile) (m : MCmd) (i : Nat) : List (Nat × BitVec 5) × List Nat :=
  let v (j : Nat) : Nat := accAt t m.c i j
  if fmtScaled (wFmt m.wa) then
    let sc (g : Nat) : Nat := blockScale (dtsEmax (dtsOf t.sys (wTbl m.wa))) ((List.range 4).map fun k => f32.unpack (v (4 * g + k)))
    ((List.range 32).map fun j => narrowScaled t.sys m.wa (f32.unpack (v j)) (sc (j / 4)), (List.range 8).map sc)
  else ((List.range 32).map fun j => narrowElem t.sys m.wa (v j), [])

/-- Raw elements as bytes, two to the byte in a 4-bit format. -/
def packRow (w : Nat) (l : List Nat) : List Byte :=
  if fmtNib (wFmt w) then (List.range (l.length / 2)).map fun k => BitVec.ofNat 8 (l.getD (2 * k) 0 % 16 + 16 * (l.getD (2 * k + 1) 0 % 16))
  else l.flatMap fun v => natLe (fmtBits (wFmt w) / 8) v

/-- The writes of a drain of tile memory `t` (R175, R177): the pieces of a raw store; or the data and the scale bytes of MDRN, rows in
ascending i (log 100). -/
def drainWrites (m : MCmd) (t : Tile) : List (Nat × List Byte) × List (Nat × List Byte) :=
  if m.op = 5 then (mstacPieces m t, [])
  else
    let r := drainRows m.wa m.a m.msd
    let rows := (List.range 32).map fun i => (i, drainRow t m i)
    (rows.map fun e => (r.at e.1, packRow m.wa (e.2.1.map (·.1))),
     (rows.filter fun e => !e.2.2.isEmpty).map fun e => ((r.scale e.1).1, e.2.2.flatMap (natLe 1)))

/-- A drain written but for the sectors that it has written already: data and then scale bytes. -/
def drain (p : Nat) (m : MCmd) (s : State) : State :=
  let t := s.tile p
  let w := drainWrites m t
  let s := engineWriteBut 32 m.wrote p w.1 (wFe m.wa) (accPoisoned t m.c) s
  if w.2.isEmpty then s else engineWriteBut 32 m.wrote p w.2 false (accPoisoned t m.c) s

/-- MSTAC_COMPLETE (R175). -/
def execMstacComplete (p : Nat) (s : State) : Out :=
  .next (completeHead p [5] (fun m s =>
    drain p m s) s)

/-! ## The drain (R176, R177) -/

/-- MDRN_COMPLETE (R177): data, scale bytes, flags, then the counter. -/
def execMdrnComplete (p : Nat) (s : State) : Out :=
  .next (completeHead p [6] (fun m s =>
    let t := s.tile p
    let flags := (List.range 32).foldl (fun f i => (drainRow t m i).1.foldl (fun f x => f ||| x.2) f) 0
    let s := drain p m s
    let s := s.onTile p fun t => { t with regs := accOr t.regs m.c (drainBits flags) }
    if m.ce then decCounter p m.cnt s else s) s)

/-! ## Passes (R178) -/

/-- The sign of d[m] and of H(m, j). -/
def hadNeg (d m j : Nat) : Bool :=
  bit d m != (((List.range 5).filter fun b => bit m b && bit j b).length % 2 == 1)

/-- One output of the Hadamard transform, with its flags. -/
def hadOut (t : Tile) (m : MCmd) (i j : Nat) : Nat × BitVec 5 :=
  let l := (List.range 32).map fun k =>
    let v := f32.unpack (accAt t m.c i k)
    if hadNeg m.kdim k j then v.neg else v
  let r := FV.sum 0 l
  f32.finish 0 (r.1.scale (-(m.a : Int)), r.2 || l.any FV.isSig)

/-- A pass over an accumulator by elements, with its flags. -/
def passRun (c : Nat) (f : Tile → Nat → Nat → Nat × BitVec 5) (t : Tile) : Tile :=
  let fl := cells.foldl (fun x e => x ||| (f t e.1 e.2).2) 0
  let t' := setAcc t c fun i j => (f t i j).1
  { t' with regs := accOr t'.regs c (accBits fl) }

/-- MHAD_COMPLETE (R178). -/
def execMhadComplete (p : Nat) (s : State) : Out :=
  .next (completeHead p [7] (fun m s => s.onTile p (passRun m.c fun t => hadOut t m)) s)

/-- The FP32 row of MSCLC and MADDR. -/
def rowAt (t : Tile) (o j : Nat) : FV := f32.unpack (Mem.le t.sram (o + 4 * j) 4)

/-- MSCLC and MADDR (R178): an operation of each element with the row's, PD and PSN from the row's poison. -/
def rowPass (p : Nat) (m : MCmd) (f : FV → FV → Nat × BitVec 5) (s : State) : State :=
  let s := s.onTile p (m.early.run fun t =>
    let t' := passRun m.c (fun t i j => f (f32.unpack (accAt t m.c i j)) (rowAt t m.a j)) t
    { t' with regs := accPoison m.c false (t.poisoned m.a 128) t'.regs })
  noteAccess p true false m.a 128 s

/-- MSCLC_COMPLETE (R178). -/
def execMsclcComplete (p : Nat) (s : State) : Out :=
  .next (completeHead p [8] (fun m s => rowPass p m (fpMul f32 0) s) s)

/-- MADDR_COMPLETE (R178). -/
def execMaddrComplete (p : Nat) (s : State) : Out :=
  .next (completeHead p [9] (fun m s => rowPass p m (fpAdd f32 0) s) s)

/-- MCLRF_COMPLETE (R179): PD stays. -/
def execMclrfComplete (p : Nat) (s : State) : Out :=
  .next (completeHead p [11] (fun m s => s.onTile p fun t =>
    let w := FMap.get 0 t.regs.accst m.c
    { t with regs := { t.regs with accst := FMap.put t.regs.accst m.c (w - Nat.land w accSticky) } }) s)

/-- The head command of tile `p` changed. -/
def onHead (p : Nat) (f : MCmd → MCmd) (s : State) : State :=
  s.onTile p fun t => match t.mx.queue with | m :: r => { t with mx := { t.mx with queue := f m :: r } } | [] => t

/-- The running command reads sector `k` of its tile's memory before its other operands (R168, R297). -/
def earlyRead (p k : Nat) (s : State) : State :=
  if headRuns (s.tile p) then onHead p (fun m => { m with early := m.early.take (s.tile p) k }) s else s

/-- The running drain writes the `k`th of its sectors before the others (R297, R299): its data, its scale bytes. -/
def earlyDrain (p k : Nat) (s : State) : State :=
  let t := s.tile p
  match t.mx.queue with
  | m :: _ =>
    let w := drainWrites m t
    match headRuns t && (m.op == 5 || m.op == 6), elemAt ((blocksOf 32 (w.1 ++ w.2)).filter fun k => !NSet.mem m.wrote k) k with
    | true, some b =>
      let s := engineWriteAll p (clip 32 b w.1) (wFe m.wa) (accPoisoned t m.c) s
      onHead p (fun m => { m with wrote := NSet.add m.wrote b }) (engineWriteAll p (clip 32 b w.2) false (accPoisoned t m.c) s)
    | _, _ => s
  | [] => s

/-- JOB_COMPLETE (R181): the first closed job without a queued command decrements its counter. -/
def execJobComplete (p : Nat) (s : State) : Out :=
  let t := s.tile p
  .next (match findIdx (fun (j : Nat × Bool × Nat) => !jobOpen t j.1) t.mx.closed 0 with
    | some (k, j) =>
      let s := s.onTile p fun t => { t with mx := { t.mx with closed := dropAt t.mx.closed k } }
      if j.2.1 then decCounter p j.2.2 s else s
    | none => s)

/-! ## The ends of waits -/

/-- MWAIT_RELEASE (R180). -/
def execMwaitRelease (p : Nat) (s : State) : Out :=
  let t := s.tile p
  .next (wake p (fun w => match w with
    | .mwait none => t.mx.queue.isEmpty
    | .mwait (some c) => !accBusy t c
    | _ => false) s)

/-- MRDF_RELEASE (R179). -/
def execMrdfRelease (p : Nat) (s : State) : Out :=
  let t := s.tile p
  .next (wake p (fun w => match w with | .mrdf c => !accBusy t c | _ => false) s)

/-- MATRIX_QUEUE_STALL_END (R167). -/
def execMatrixQueueStallEnd (p : Nat) (s : State) : Out :=
  let t := s.tile p
  .next (wake p (fun w => match w with | .mqueue => decide (t.mx.queue.length < 16) | _ => false) s)

/-- ALLOT_STALL_END (R96): the AALLOT bundle issues once no queued command names the accumulators it moves. -/
def execAllotStallEnd (p : Nat) (s : State) : Out :=
  let t := s.tile p
  .next (wake p (fun w => match w with | .allot lo hi => !queueNames t lo hi | _ => false) s)

/-- TLOAD_WAIT_END (R118). -/
def execTloadWaitEnd (p : Nat) (s : State) : Out :=
  let t := s.tile p
  .next (wake p (fun w => match w with | .tload n => !queueTable t n | _ => false) s)

/-- FULL_WAIT_WAKE (R131): the bundle goes on once its sectors are Full. -/
def execFullWaitWake (p : Nat) (s : State) : Out :=
  let t := s.tile p
  .next (wake p (fun w => match w with | .full l => l.all (NSet.mem t.full) | _ => false) s)

/-- SLEEP_WAKE (R93): a zero event of a masked counter was seen, or the deadline has passed. -/
def execSleepWake (p : Nat) (s : State) : Out :=
  .next (wakeVal p (fun w => match w with
    | .sleep dl _ seen => if seen ≠ 0 ∨ (dl ≤ s.gtime ∧ dl ≠ 2 ^ 64 - 1) then some seen else none
    | _ => none) s)

end Sys2Proof.Machine
end

