-- ==== Sys2Proof/Machine/Agents.lean ====
section
/-!
DEFINITION. Sys2Proof/Machine/Agents.lean: who moves, and what a move is. The head of the agenda moves first; with an empty agenda the next mover
is a free choice (log 2), and time passes first (log 3): in one clock cycle arrivals come before completions and these before the threads (R189).
-/

namespace Sys2Proof.Machine

/-- The steps that only follow from another step and never move by themselves (R32, R89, R430, R431, R355). -/
def followsOnly : Instr → Bool
  | .vflagsClear _ => true
  | .caps0Write _ => true
  | .wpcHitClear _ _ => true
  | .watchpointHit _ _ _ _ => true
  | .contextFault _ => true
  | i => i.isSyllable

/-- One move. A syllable never moves outside its bundle. -/
noncomputable def move (ex : Instr → State → Out) (a : Agent) (s : State) : Out :=
  match a with
  | .thread p =>
    if (s.tile p).yk.blocks then blockStep ex p 0 s
    else if atHeader (s.tile p) then .next (s.onTile p startBlocks)
    else threadStep ex p s
  | .block p k => blockStep ex p k s
  | .joins p => ex (.memberJoin p) s
  | .saveAt p => ex (.saveTaskBoundary p) s
  | .watchHit p k off wr => ex (.watchpointHit p k off wr) s
  | .watchTrap p => ex (.watchTrap p) s
  | .memberFault p m => ex (.yokeMemberFault p m) s
  | .ctxFault c => ex (.contextFault c) s
  | .flush p => .next (flushComm p s)
  | .engineEcc p => .next (engineEcc p s)
  | .accEcc p => .next (accEcc p s)
  | .unparkAt k => .next (unparkAgain k s)
  | .bar0Write f o v => .next (bar0Write f o v s)
  | .eccOne p => .next (eccOne p s)
  | .door c o d => .next (doorWrite c o d s)
  | .trainSend q l => .next (trainSend q l s)
  | .readAhead j i k => .next (readAhead j i k s)
  | .earlyReply n k => .next (earlyBank n k (earlyReply n k s))
  | .earlySource n k => .next (earlySource n k s)
  | .earlyData n k => .next (earlyDown n k (earlyMessage n k s))
  | .earlyDrain p k => .next (earlyDrain p k s)
  | .earlyRead p k => .next (earlyRead p k s)
  | .earlySend p d k => .next (if d < 64 then earlySend p d k s else earlyContrib p (d - 64) k s)
  | .earlyTrough p j k => .next (earlyTrough p j k s)
  | .event i => if followsOnly i then .next s else ex i s

/-- Who may move by free choice; the others only follow from another step. A tile that is to choose its record at the end of the cycle does not
choose it before (R221). -/
def mayPick (s : State) : Agent → Bool
  | .joins _ => false
  | .saveAt _ => false
  | .watchHit _ _ _ _ => false
  | .watchTrap _ => false
  | .memberFault _ _ => false
  | .ctxFault _ => false
  | .door _ _ _ => false
  | .event (.taskDispatch p) => !s.choices.contains p
  | .thread _ | .block _ _ | .flush _ | .engineEcc _ | .accEcc _ | .unparkAt _ | .bar0Write _ _ _ | .eccOne _ | .trainSend _ _ | .readAhead _ _ _
  | .earlyReply _ _ | .earlySource _ _ | .earlyData _ _ | .earlyDrain _ _ | .earlyRead _ _ | .earlySend _ _ _ | .earlyTrough _ _ _ | .event _ => true

/-- Whether an event is the arrival of a header at a tile's matching engine (R189). -/
def isHeader : Instr → Bool
  | .eagerArrival _ => true
  | .rtsArrival _ => true
  | .ctsArrival _ => true
  | .eackArrival _ => true
  | .rackArrival _ => true
  | .poolFullArrival _ => true
  | _ => false

/-- The place of a move in its clock cycle (R189): header arrivals, completions and all else, threads. -/
def phaseOf : Agent → Nat
  | .thread _ | .block _ _ => 2
  | .event i => if isHeader i then 0 else 1
  | _ => 1

/-- The thread that a move runs, by a number of its own: that of a tile, or one of the blocks of a yoke. -/
def threadNo : Agent → Option Nat
  | .thread p => some p
  | .block p k => some (p + 4096 * (k + 1))
  | _ => none

/-- The clock cycles that pass before a move (log 3): at least one where its place in the cycle has gone by, or its thread has issued (R189). -/
noncomputable def passing (s : State) (a : Agent) : Nat :=
  let n := Config.cycles s.picks
  if decide (phaseOf a < s.phase) || (match threadNo a with | some k => NSet.mem s.issued k | none => false) then Nat.max n 1 else n

/-- Time passes before a free choice (log 2, log 3); with a new clock cycle every formation that can go on no longer ends (R312). -/
noncomputable def tick (n : Nat) (s : State) : State :=
  let y := { s with picks := s.picks + 1, now := s.now + Config.nanos s.picks, clk := s.clk + n }
  if n = 0 then y else endForms { y with phase := 0, issued := [] }

/-- A move's place in the clock cycle noted. -/
def noteMove (a : Agent) (s : State) : State :=
  { s with phase := Nat.max s.phase (phaseOf a), issued := match threadNo a with | some k => NSet.add s.issued k | none => s.issued }

/-- The next move of the device. At the end of a clock cycle the tiles that are to choose a record do so (R221). -/
noncomputable def nextMove (ex : Instr → State → Out) (s : State) : Out :=
  match s.agenda with
  | a :: r => move ex a (noteMove a { s with agenda := r })
  | [] =>
    let a := Config.pick s.picks
    let n := passing s a
    match n, s.choices with
    | _ + 1, p :: r => ex (.taskDispatch p) { s with choices := r }
    | _, _ =>
      let y := noteMove a (tick n s)
      if mayPick s a then move ex a y else .next y

/-- The words of an instruction placed at a tile's pc; a bundle that they do not end gets the empty bundle after them. -/
def placeWords (t : Tile) (w : Nat) : Tile :=
  let w0 := w % 2 ^ 32
  let long := isLong w0
  let m := FMap.put t.imem t.pc (BitVec.ofNat 32 w0)
  let m := if long then FMap.put m (t.pc + 1) (BitVec.ofNat 32 (w / 2 ^ 32)) else m
  let n := t.pc + (if long then 2 else 1)
  { t with imem := if bit w0 31 then m else FMap.put m n 0x80000000,
           imemBad := NSet.delAll t.imemBad (List.range 4 |>.map (t.pc + ·)) }

/-- A tile made to run a task at its pc at once, with nothing pending before its next bundle. -/
def runningTile (t : Tile) : Tile :=
  let t' := { t with bun := {}, wait := [], woken := [], async := [], yk := {},
                     dbg := { t.dbg with watch := none } }
  if t.life == .running then { t' with task := { t.task with run := { t.task.run with fresh := false } } }
  else { t' with life := .running, resident := true,
                 task := { t.task with recs := FMap.put t.task.recs 0 { run := true }, run := { idx := 0, budget := 0xFFFF } } }

/-- An instruction, numbered as the opcode table numbers its bits, placed so that the next step runs it on tile 0. -/
def placeInstr (s : State) (nbits w : Nat) : State :=
  { s.setTile 0 (runningTile (placeWords (s.tile 0) (w % 2 ^ nbits))) with agenda := [.thread 0] }

end Sys2Proof.Machine
end

