-- ==== Sys2Proof/Machine/Scalar.lean ====
section
/-!
DEFINITION. Sys2Proof/Machine/Scalar.lean: the A-R, A-I and A-M instructions and their long forms (R73–R83).
-/

namespace Sys2Proof.Machine

/-! ## The operations (R74, R75, R77, R81–R83) -/

def fShl (w : Nat) (a b : BitVec w) : BitVec w := a <<< (b.toNat % w)
def fShr (w : Nat) (a b : BitVec w) : BitVec w := a >>> (b.toNat % w)
def fSar (w : Nat) (a b : BitVec w) : BitVec w := a.sshiftRight (b.toNat % w)
def fRor (w : Nat) (a b : BitVec w) : BitVec w := a.rotateRight (b.toNat % w)
def fMin (w : Nat) (a b : BitVec w) : BitVec w := if a.slt b then a else b
def fMax (w : Nat) (a b : BitVec w) : BitVec w := if a.slt b then b else a
def fMinN (w : Nat) (a b : BitVec w) : BitVec w := if a.ult b then a else b
def fMaxN (w : Nat) (a b : BitVec w) : BitVec w := if a.ult b then b else a

/-- The high half of the signed product (R81). -/
def fMulh (w : Nat) (a b : BitVec w) : BitVec w := BitVec.ofInt w ((a.toInt * b.toInt) / (2 : Int) ^ w)

/-- The high half of the unsigned product (R81). -/
def fMulhn (w : Nat) (a b : BitVec w) : BitVec w := BitVec.ofNat w (a.toNat * b.toNat / 2 ^ w)

/-- DIV (R82): all ones for a zero divisor; the dividend where the quotient overflows. -/
def fDiv (w : Nat) (a b : BitVec w) : BitVec w :=
  if b = 0 then BitVec.allOnes w else BitVec.ofInt w (Int.tdiv a.toInt b.toInt)

/-- DIVN (R82). -/
def fDivn (w : Nat) (a b : BitVec w) : BitVec w :=
  if b = 0 then BitVec.allOnes w else BitVec.ofNat w (a.toNat / b.toNat)

/-- REM (R82): the dividend for a zero divisor; the sign of the dividend. -/
def fRem (w : Nat) (a b : BitVec w) : BitVec w :=
  if b = 0 then a else BitVec.ofInt w (Int.tmod a.toInt b.toInt)

/-- REMN (R82). -/
def fRemn (w : Nat) (a b : BitVec w) : BitVec w :=
  if b = 0 then a else BitVec.ofNat w (a.toNat % b.toNat)

/-- The effective length of the field that g[B] describes, clipped at bit 63 (R77). -/
def fieldLen (b : W64) : Nat :=
  let pos := bits b.toNat 5 0
  let len := bits b.toNat 14 8
  if pos + len > 64 then 64 - pos else len

/-- EXT (R77). -/
def fExt (a b : W64) : W64 := BitVec.ofNat 64 (a.toNat / 2 ^ bits b.toNat 5 0 % 2 ^ fieldLen b)

/-- EXTS (R77). -/
def fExts (a b : W64) : W64 := BitVec.ofInt 64 (sext (a.toNat / 2 ^ bits b.toNat 5 0) (fieldLen b))

/-- INS (R77). -/
def fIns (d a b : W64) : W64 :=
  let pos := bits b.toNat 5 0
  let l := fieldLen b
  let m := (2 ^ l - 1) * 2 ^ pos
  (d &&& ~~~ BitVec.ofNat 64 m) ||| BitVec.ofNat 64 (a.toNat % 2 ^ l * 2 ^ pos)

/-- The number of leading zero bits of a 64-bit number (R83). -/
def fClz (a : W64) : W64 := BitVec.ofNat 64 (((List.range 64).find? fun i => a.getLsbD (63 - i)).getD 64)

/-- The number of trailing zero bits (R83). -/
def fCtz (a : W64) : W64 := BitVec.ofNat 64 (((List.range 64).find? fun i => a.getLsbD i).getD 64)

/-- The number of one bits (R83). -/
def fPopc (a : W64) : W64 := BitVec.ofNat 64 ((List.range 64).foldl (fun n i => n + b2n (a.getLsbD i)) 0)

/-- Bit i of the result is bit 63 − i (R83). -/
def fBrev (a : W64) : W64 := BitVec.ofNat 64 ((List.range 64).foldl (fun n i => n * 2 + b2n (a.getLsbD i)) 0)

/-- Byte i of the result is byte 7 − i (R83). -/
def fBswap (a : W64) : W64 := BitVec.ofNat 64 (leNat (natLe 8 a.toNat).reverse)

/-! ## The operand shapes -/

/-- g[D] := f(g[A], g[B]) at the width W selects. -/
def alu (x : R) (f : (k : Nat) → BitVec k → BitVec k → BitVec k) (s : State) : State :=
  guarded x.g x.n (fun s => wg x.d (atW x.m f (rg s x.a) (rg s x.b)) s) s

/-- p[D] := relation of g[A] and g[B] at the width W selects. -/
def cmp (x : R) (f : (k : Nat) → BitVec k → BitVec k → Bool) (s : State) : State :=
  guarded x.g x.n (fun s => wp x.d (relW x.m f (rg s x.a) (rg s x.b)) s) s

/-- p[D] := f(p[A], p[B]). -/
def pred (x : R) (f : Bool → Bool → Bool) (s : State) : State :=
  guarded x.g x.n (fun s => wp x.d (f (rp s x.a) (rp s x.b)) s) s

/-- g[D] := f(g[A]). -/
def alu1 (x : R) (f : W64 → W64) (s : State) : State :=
  guarded x.g x.n (fun s => wg x.d (f (rg s x.a)) s) s

/-- g[D] := f(g[A], imm), a short form. -/
def aluI (x : I) (f : W64 → W64 → W64) (s : State) : State :=
  guarded x.g x.n (fun s => wg x.d (f (rg s x.a) (immW x.imm)) s) s

/-- p[D] := relation of g[A] and imm, a short form. -/
def cmpI (x : I) (f : W64 → W64 → Bool) (s : State) : State :=
  guarded x.g x.n (fun s => wp x.d (f (rg s x.a) (immW x.imm)) s) s

/-- g[D] := f(g[A], SignExtend(IMM32)), a long form (R79). -/
def aluL (x : L) (f : W64 → W64 → W64) (s : State) : State :=
  guarded x.g x.n (fun s => wg x.d (f (rg s x.a) (immL x.imm)) s) s

/-- p[D] := relation of g[A] and SignExtend(IMM32), a long form (R79). -/
def cmpL (x : L) (f : W64 → W64 → Bool) (s : State) : State :=
  guarded x.g x.n (fun s => wp x.d (f (rg s x.a) (immL x.imm)) s) s

/-- ADDWI's sum: the low 32 bits, sign-extended (R78). -/
def addw (a b : W64) : W64 := sx32 (lo32 (a + b))

/-- ADD (R74): g[D] := a + b. -/
def execAdd (x : R) (s : State) : Out := .next (alu x (fun _ a b => a + b) s)

/-- SUB (R74): g[D] := a − b. -/
def execSub (x : R) (s : State) : Out := .next (alu x (fun _ a b => a - b) s)

/-- AND (R74): g[D] := a AND b. -/
def execAnd (x : R) (s : State) : Out := .next (alu x (fun _ a b => a &&& b) s)

/-- OR (R74): g[D] := a OR b. -/
def execOr (x : R) (s : State) : Out := .next (alu x (fun _ a b => a ||| b) s)

/-- XOR (R74): g[D] := a XOR b. -/
def execXor (x : R) (s : State) : Out := .next (alu x (fun _ a b => a ^^^ b) s)

/-- ANDN (R74): g[D] := a AND NOT b. -/
def execAndn (x : R) (s : State) : Out := .next (alu x (fun _ a b => a &&& ~~~b) s)

/-- ORN (R74): g[D] := a OR NOT b. -/
def execOrn (x : R) (s : State) : Out := .next (alu x (fun _ a b => a ||| ~~~b) s)

/-- SLL (R74): shift left. -/
def execSll (x : R) (s : State) : Out := .next (alu x fShl s)

/-- SRL (R74): shift right, zeros in. -/
def execSrl (x : R) (s : State) : Out := .next (alu x fShr s)

/-- SRA (R74): shift right, sign in. -/
def execSra (x : R) (s : State) : Out := .next (alu x fSar s)

/-- ROR (R74): rotate right. -/
def execRor (x : R) (s : State) : Out := .next (alu x fRor s)

/-- MIN (R74): signed minimum. -/
def execMin (x : R) (s : State) : Out := .next (alu x fMin s)

/-- MAX (R74): signed maximum. -/
def execMax (x : R) (s : State) : Out := .next (alu x fMax s)

/-- MINN (R74): unsigned minimum. -/
def execMinn (x : R) (s : State) : Out := .next (alu x fMinN s)

/-- MAXN (R74): unsigned maximum. -/
def execMaxn (x : R) (s : State) : Out := .next (alu x fMaxN s)

/-- CEQ (R75). -/
def execCeq (x : R) (s : State) : Out := .next (cmp x (fun _ a b => a == b) s)

/-- CNE (R75). -/
def execCne (x : R) (s : State) : Out := .next (cmp x (fun _ a b => a != b) s)

/-- CLT (R75). -/
def execClt (x : R) (s : State) : Out := .next (cmp x (fun _ a b => a.slt b) s)

/-- CLE (R75). -/
def execCle (x : R) (s : State) : Out := .next (cmp x (fun _ a b => a.sle b) s)

/-- CLTN (R75). -/
def execCltn (x : R) (s : State) : Out := .next (cmp x (fun _ a b => a.ult b) s)

/-- CLEN (R75). -/
def execClen (x : R) (s : State) : Out := .next (cmp x (fun _ a b => a.ule b) s)

/-- PAND (R76). -/
def execPand (x : R) (s : State) : Out := .next (pred x (fun a b => a && b) s)

/-- POR (R76). -/
def execPor (x : R) (s : State) : Out := .next (pred x (fun a b => a || b) s)

/-- PXOR (R76). -/
def execPxor (x : R) (s : State) : Out := .next (pred x (fun a b => a != b) s)

/-- PANDN (R76). -/
def execPandn (x : R) (s : State) : Out := .next (pred x (fun a b => a && !b) s)

/-- MOVP (R76): g[D] := p[A] as 0 or 1. -/
def execMovp (x : R) (s : State) : Out := .next (guarded x.g x.n (fun s => wg x.d (BitVec.ofNat 64 (b2n (rp s x.a))) s) s)

/-- PMOVG (R76): p[D] := g[A] ≠ 0. -/
def execPmovg (x : R) (s : State) : Out := .next (guarded x.g x.n (fun s => wp x.d (rg s x.a != 0) s) s)

/-- EXT (R77). -/
def execExt (x : R) (s : State) : Out := .next (guarded x.g x.n (fun s => wg x.d (fExt (rg s x.a) (rg s x.b)) s) s)

/-- EXTS (R77). -/
def execExts (x : R) (s : State) : Out := .next (guarded x.g x.n (fun s => wg x.d (fExts (rg s x.a) (rg s x.b)) s) s)

/-- INS (R77): g[D] is read and written. -/
def execIns (x : R) (s : State) : Out := .next (guarded x.g x.n (fun s => wg x.d (fIns (rg s x.d) (rg s x.a) (rg s x.b)) s) s)

/-- ADDI (R78). -/
def execAddi (x : I) (s : State) : Out := .next (aluI x (fun a b => a + b) s)

/-- ANDI (R78). -/
def execAndi (x : I) (s : State) : Out := .next (aluI x (fun a b => a &&& b) s)

/-- ORI (R78). -/
def execOri (x : I) (s : State) : Out := .next (aluI x (fun a b => a ||| b) s)

/-- XORI (R78). -/
def execXori (x : I) (s : State) : Out := .next (aluI x (fun a b => a ^^^ b) s)

/-- SLLI (R78). -/
def execSlli (x : I) (s : State) : Out := .next (aluI x (fShl 64) s)

/-- SRLI (R78). -/
def execSrli (x : I) (s : State) : Out := .next (aluI x (fShr 64) s)

/-- SRAI (R78). -/
def execSrai (x : I) (s : State) : Out := .next (aluI x (fSar 64) s)

/-- CEQI (R78). -/
def execCeqi (x : I) (s : State) : Out := .next (cmpI x (fun a b => a == b) s)

/-- CNEI (R78). -/
def execCnei (x : I) (s : State) : Out := .next (cmpI x (fun a b => a != b) s)

/-- CLTI (R78). -/
def execClti (x : I) (s : State) : Out := .next (cmpI x (fun a b => a.slt b) s)

/-- CLEI (R78). -/
def execClei (x : I) (s : State) : Out := .next (cmpI x (fun a b => a.sle b) s)

/-- CLTNI (R78). -/
def execCltni (x : I) (s : State) : Out := .next (cmpI x (fun a b => a.ult b) s)

/-- CLENI (R78). -/
def execCleni (x : I) (s : State) : Out := .next (cmpI x (fun a b => a.ule b) s)

/-- ADDWI (R78). -/
def execAddwi (x : I) (s : State) : Out := .next (aluI x addw s)

/-- MOVI (R78): g[D] := the 14-bit immediate. -/
def execMovi (x : M) (s : State) : Out := .next (guarded x.g x.n (fun s => wg x.d (immW x.imm) s) s)

/-- ADDI.L (R79). -/
def execAddiL (x : L) (s : State) : Out := .next (aluL x (fun a b => a + b) s)

/-- ANDI.L (R79). -/
def execAndiL (x : L) (s : State) : Out := .next (aluL x (fun a b => a &&& b) s)

/-- ORI.L (R79). -/
def execOriL (x : L) (s : State) : Out := .next (aluL x (fun a b => a ||| b) s)

/-- XORI.L (R79). -/
def execXoriL (x : L) (s : State) : Out := .next (aluL x (fun a b => a ^^^ b) s)

/-- SLLI.L (R79). -/
def execSlliL (x : L) (s : State) : Out := .next (aluL x (fShl 64) s)

/-- SRLI.L (R79). -/
def execSrliL (x : L) (s : State) : Out := .next (aluL x (fShr 64) s)

/-- SRAI.L (R79). -/
def execSraiL (x : L) (s : State) : Out := .next (aluL x (fSar 64) s)

/-- CEQI.L (R79). -/
def execCeqiL (x : L) (s : State) : Out := .next (cmpL x (fun a b => a == b) s)

/-- CNEI.L (R79). -/
def execCneiL (x : L) (s : State) : Out := .next (cmpL x (fun a b => a != b) s)

/-- CLTI.L (R79). -/
def execCltiL (x : L) (s : State) : Out := .next (cmpL x (fun a b => a.slt b) s)

/-- CLEI.L (R79). -/
def execCleiL (x : L) (s : State) : Out := .next (cmpL x (fun a b => a.sle b) s)

/-- CLTNI.L (R79). -/
def execCltniL (x : L) (s : State) : Out := .next (cmpL x (fun a b => a.ult b) s)

/-- CLENI.L (R79). -/
def execCleniL (x : L) (s : State) : Out := .next (cmpL x (fun a b => a.ule b) s)

/-- ADDWI.L (R79). -/
def execAddwiL (x : L) (s : State) : Out := .next (aluL x addw s)

/-- MOVI.L (R79). -/
def execMoviL (x : L) (s : State) : Out := .next (guarded x.g x.n (fun s => wg x.d (immL x.imm) s) s)

/-- MOVHI.L (R79): g[D][63:32] := IMM32, the low half kept. -/
def execMovhiL (x : L) (s : State) : Out := .next (guarded x.g x.n (fun s => wg x.d (BitVec.ofNat 32 x.imm ++ lo32 (rg s x.d)) s) s)

/-- MUL (R81). -/
def execMul (x : R) (s : State) : Out := .next (alu x (fun _ a b => a * b) s)

/-- MULH (R81). -/
def execMulh (x : R) (s : State) : Out := .next (alu x fMulh s)

/-- MULHN (R81). -/
def execMulhn (x : R) (s : State) : Out := .next (alu x fMulhn s)

/-- DIV (R82). -/
def execDiv (x : R) (s : State) : Out := .next (alu x fDiv s)

/-- DIVN (R82). -/
def execDivn (x : R) (s : State) : Out := .next (alu x fDivn s)

/-- REM (R82). -/
def execRem (x : R) (s : State) : Out := .next (alu x fRem s)

/-- REMN (R82). -/
def execRemn (x : R) (s : State) : Out := .next (alu x fRemn s)

/-- MADD (R81): g[D] is read and written. -/
def execMadd (x : R) (s : State) : Out := .next (guarded x.g x.n (fun s => wg x.d (if x.m = 1 then sx32 (lo32 (rg s x.d) + lo32 (rg s x.a) * lo32 (rg s x.b)) else rg s x.d + rg s x.a * rg s x.b) s) s)

/-- MSUB (R81): g[D] is read and written. -/
def execMsub (x : R) (s : State) : Out := .next (guarded x.g x.n (fun s => wg x.d (if x.m = 1 then sx32 (lo32 (rg s x.d) - lo32 (rg s x.a) * lo32 (rg s x.b)) else rg s x.d - rg s x.a * rg s x.b) s) s)

/-- CLZ (R83). -/
def execClz (x : R) (s : State) : Out := .next (alu1 x fClz s)

/-- CTZ (R83). -/
def execCtz (x : R) (s : State) : Out := .next (alu1 x fCtz s)

/-- POPC (R83). -/
def execPopc (x : R) (s : State) : Out := .next (alu1 x fPopc s)

/-- BREV (R83). -/
def execBrev (x : R) (s : State) : Out := .next (alu1 x fBrev s)

/-- BSWAP (R83). -/
def execBswap (x : R) (s : State) : Out := .next (alu1 x fBswap s)

end Sys2Proof.Machine
end

