-- ==== Sys2Proof/Machine/Vector.lean ====
section
/-!
DEFINITION. Sys2Proof/Machine/Vector.lean: the V-R instructions (R140–R152).
-/

namespace Sys2Proof.Machine

/-! ## Elements (R47, R140) -/

/-- Element width of a type T. -/
def elemW (t : Nat) : Nat := if t = 0 ∨ t = 3 ∨ t = 6 then 32 else if t = 5 ∨ t = 7 then 8 else 16

/-- Float types, and their formats. -/
def isF (t : Nat) : Bool := decide (t < 3)
def fmtOf (t : Nat) : Fmt := if t = 1 then f16 else if t = 2 then bf16 else f32

/-- Types read as two's complement. -/
def isSignedT (t : Nat) : Bool := t == 3 || t == 4 || t == 5

/-- An integer element's value (R147). -/
def elemI (t v : Nat) : Int := if isSignedT t then sext v (elemW t) else (v % 2 ^ elemW t : Nat)

/-- Element k of a lane (R140). -/
def elemOf (w lane k : Nat) : Nat := lane / 2 ^ (w * k) % 2 ^ w

/-- FRM as it stood before the bundle (R39). -/
def frmOf (s : State) : Nat := (preSys s.t).frm.toNat

/-- An element operation over one lane: the lane and the flags (R141). -/
def laneMap (w : Nat) (op : Nat → Nat → Nat → Nat × BitVec 5) (a b d : Nat) : Nat × BitVec 5 :=
  (List.range (32 / w)).foldl (fun r k =>
    let e := op (elemOf w a k) (elemOf w b k) (elemOf w d k)
    (r.1 + e.1 % 2 ^ w * 2 ^ (w * k), r.2 ||| e.2)) (0, 0)

/-- A lane operation over the lanes that Q selects: v[D]'s selected lanes written, their flags ORed into VFLAGS (R141). -/
def vLanes (x : V) (f : Nat → Nat × BitVec 5) (s : State) : State :=
  let s' := wv x.d (fun i => if lane s x.q i then some (BitVec.ofNat 32 (f i).1) else none) s
  let fl := (List.range 16).foldl (fun r i => if lane s x.q i then r ||| (f i).2 else r) 0
  if fl = 0 then s' else orFlags fl s'

/-- The element-wise rule of R141 with elements a, b and d. -/
def vOp (x : V) (op : Nat → Nat → Nat → Nat × BitVec 5) (s : State) : State :=
  vLanes x (fun i => laneMap (elemW x.t) op (rv s x.a i).toNat (rv s x.b i).toNat (rv s x.d i).toNat) s

/-- An exact integer result kept modulo 2^w (R147). -/
def wrapOp (t : Nat) (f : Int → Int → Int → Int) (a b d : Nat) : Nat × BitVec 5 :=
  (wrapN (elemW t) (f (elemI t a) (elemI t b) (elemI t d)), 0)

/-- The exact result clamped to the type's range (R147). -/
def clampT (t : Nat) (v : Int) : Nat :=
  let w := elemW t
  let lo : Int := if isSignedT t then -(2 ^ (w - 1)) else 0
  let hi : Int := if isSignedT t then 2 ^ (w - 1) - 1 else 2 ^ w - 1
  wrapN w (if v < lo then lo else if v > hi then hi else v)

/-- A two-operand instruction with a float and an integer form. -/
def vArith (x : V) (fp : Fmt → FV → FV → FV → Nat × BitVec 5) (ip : Int → Int → Int → Int) (s : State) : State :=
  vOp x (fun a b d =>
    if isF x.t then let f := fmtOf x.t; fp f (f.unpack a) (f.unpack b) (f.unpack d) else wrapOp x.t ip a b d) s

/-- VADD (R148, R150). -/
def execVadd (x : V) (s : State) : Out := .next (vArith x (fun f a b _ => fpAdd f (frmOf s) a b) (fun a b _ => a + b) s)
/-- VSUB (R148, R150). -/
def execVsub (x : V) (s : State) : Out := .next (vArith x (fun f a b _ => fpAdd f (frmOf s) a b.neg) (fun a b _ => a - b) s)
/-- VMUL (R148, R150). -/
def execVmul (x : V) (s : State) : Out := .next (vArith x (fun f a b _ => fpMul f (frmOf s) a b) (fun a b _ => a * b) s)
/-- VFMA (R148, R150): rounded once. -/
def execVfma (x : V) (s : State) : Out :=
  .next (vArith x (fun f a b d => fpDot f (frmOf s) d [(a, b)]) (fun a b d => d + a * b) s)
/-- VFMS (R148, R150): rounded once. -/
def execVfms (x : V) (s : State) : Out :=
  .next (vArith x (fun f a b d => fpDot f (frmOf s) d [(a.neg, b)]) (fun a b d => d - a * b) s)

/-- Minimum or maximum of an element (R150). -/
def vMinMax (x : V) (max : Bool) (s : State) : State :=
  vOp x (fun a b _ => if isF x.t then fpMinMax (fmtOf x.t) max a b
    else (if decide (elemI x.t a < elemI x.t b) = max then b else a, 0)) s

/-- VMIN (R150). -/
def execVmin (x : V) (s : State) : Out := .next (vMinMax x false s)
/-- VMAX (R150). -/
def execVmax (x : V) (s : State) : Out := .next (vMinMax x true s)

/-- A sign change of a float that is no NaN; a NaN gives the canonical NaN, without a flag (R150). -/
def fpSign (f : Fmt) (neg : Bool) (a : Nat) : Nat × BitVec 5 :=
  if (f.unpack a).isNan then (f.nanPat, 0)
  else if neg then (Nat.xor (a % 2 ^ (f.m + f.e + 1)) f.sign, 0) else (a % f.sign, 0)

/-- VABS (R148–R150). -/
def execVabs (x : V) (s : State) : Out :=
  .next (vOp x (fun a _ _ => if isF x.t then fpSign (fmtOf x.t) false a else wrapOp x.t (fun a _ _ => (a.natAbs : Int)) a 0 0) s)
/-- VNEG (R148–R150). -/
def execVneg (x : V) (s : State) : Out :=
  .next (vOp x (fun a _ _ => if isF x.t then fpSign (fmtOf x.t) true a else wrapOp x.t (fun a _ _ => -a) a 0 0) s)

/-- VAND (R148). -/
def execVand (x : V) (s : State) : Out := .next (vLanes x (fun i => ((rv s x.a i &&& rv s x.b i).toNat, 0)) s)
/-- VOR (R148). -/
def execVor (x : V) (s : State) : Out := .next (vLanes x (fun i => ((rv s x.a i ||| rv s x.b i).toNat, 0)) s)
/-- VXOR (R148). -/
def execVxor (x : V) (s : State) : Out := .next (vLanes x (fun i => ((rv s x.a i ^^^ rv s x.b i).toNat, 0)) s)
/-- VANDN (R148). -/
def execVandn (x : V) (s : State) : Out := .next (vLanes x (fun i => ((rv s x.a i &&& ~~~ rv s x.b i).toNat, 0)) s)

/-- VSLL (R148, R149). -/
def execVsll (x : V) (s : State) : Out :=
  .next (vOp x (fun a b _ => (a * 2 ^ (b % elemW x.t) % 2 ^ elemW x.t, 0)) s)
/-- VSRL (R148, R149). -/
def execVsrl (x : V) (s : State) : Out := .next (vOp x (fun a b _ => (a / 2 ^ (b % elemW x.t), 0)) s)
/-- VSRA (R148, R149). -/
def execVsra (x : V) (s : State) : Out :=
  .next (vOp x (fun a b _ => (wrapN (elemW x.t) (sext a (elemW x.t) / 2 ^ (b % elemW x.t)), 0)) s)

/-- VADDS (R147). -/
def execVadds (x : V) (s : State) : Out := .next (vOp x (fun a b _ => (clampT x.t (elemI x.t a + elemI x.t b), 0)) s)
/-- VSUBS (R147). -/
def execVsubs (x : V) (s : State) : Out := .next (vOp x (fun a b _ => (clampT x.t (elemI x.t a - elemI x.t b), 0)) s)
/-- VMULH (R148, R149). -/
def execVmulh (x : V) (s : State) : Out :=
  .next (vOp x (fun a b _ => (wrapN (elemW x.t) (elemI x.t a * elemI x.t b / 2 ^ elemW x.t), 0)) s)

/-- VDOT4 (R151): wraps. -/
def execVdot4 (x : V) (s : State) : Out :=
  .next (vLanes x (fun i =>
    let a := (rv s x.a i).toNat
    let b := (rv s x.b i).toNat
    let p := (List.range 4).foldl (fun (n : Int) k => n + elemI x.t (elemOf 8 a k) * elemI x.t (elemOf 8 b k)) 0
    (wrapN 32 ((rv s x.d i).toNat + p), 0)) s)

/-- VDOT2 (R151): one rounding to F32. -/
def execVdot2 (x : V) (s : State) : Out :=
  .next (vLanes x (fun i =>
    let f := fmtOf x.t
    let a := (rv s x.a i).toNat
    let b := (rv s x.b i).toNat
    fpDot f32 (frmOf s) (f32.unpack (rv s x.d i).toNat)
      ((List.range 2).map fun k => (f.unpack (elemOf 16 a k), f.unpack (elemOf 16 b k)))) s)

/-- The two results of VMULW for a lane (R152). -/
def mulwLane (t a b : Nat) : Nat × Nat :=
  if t = 4 then (wrapN 32 (elemI 4 (a % 2 ^ 16) * elemI 4 (b % 2 ^ 16)), wrapN 32 (elemI 4 (a / 2 ^ 16) * elemI 4 (b / 2 ^ 16)))
  else
    let p := wrapN 64 (elemI t a * elemI t b)
    (p % 2 ^ 32, p / 2 ^ 32)

/-- VMULW (R152): the sources are read before either register is written. -/
def execVmulw (x : V) (s : State) : Out :=
  .next (
    let r (i : Nat) := mulwLane x.t (rv s x.a i).toNat (rv s x.b i).toNat
    wv (x.d + 1) (fun i => if lane s x.q i then some (BitVec.ofNat 32 (r i).2) else none)
      (wv x.d (fun i => if lane s x.q i then some (BitVec.ofNat 32 (r i).1) else none) s))

/-- VCOPY (R148). -/
def execVcopy (x : V) (s : State) : Out := .next (vLanes x (fun i => ((rv s x.a i).toNat, 0)) s)

end Sys2Proof.Machine
end

