-- ==== Sys2Proof/Machine/VFunc.lean ====
section
/-!
DEFINITION. Sys2Proof/Machine/VFunc.lean: the V-F instructions: functions and reductions (R153–R158), conversions and codes
(R119–R121).
-/

namespace Sys2Proof.Machine

/-- E[j] = round(2^(j/64) × 2^30), j = 0–63 (R156). -/
def expE : List Nat :=
  [1073741824, 1085434106, 1097253708, 1109202018, 1121280436, 1133490379, 1145833280, 1158310587,
   1170923762, 1183674286, 1196563654, 1209593378, 1222764986, 1236080024, 1249540052, 1263146652,
   1276901417, 1290805962, 1304861917, 1319070932, 1333434672, 1347954824, 1362633090, 1377471191,
   1392470869, 1407633882, 1422962010, 1438457051, 1454120821, 1469955159, 1485961921, 1502142985,
   1518500250, 1535035634, 1551751076, 1568648537, 1585730000, 1602997467, 1620452965, 1638098541,
   1655936265, 1673968228, 1692196547, 1710623359, 1729250827, 1748081133, 1767116489, 1786359126,
   1805811301, 1825475297, 1845353420, 1865448001, 1885761398, 1906295993, 1927054196, 1948038440,
   1969251188, 1990694927, 2012372174, 2034285470, 2056437387, 2078830522, 2101467502, 2124350982]

/-- c_k = round(ln(2)^k / k! × 2^32), k = 1–3 (R156). -/
def expC1 : Nat := 2977044472
def expC2 : Nat := 1031764991
def expC3 : Nat := 238388332

/-- rc[j] = round(2^38 / (64 + j)) (R157). -/
def logRc (j : Nat) : Nat := (2 ^ 39 / (64 + j) + 1) / 2

/-- L[j] = round(log2(2^32 / rc[j]) × 2^32), j = 0–63 (R157). -/
def logL : List Int :=
  [0, 96069026, 190671291, 283850911, 375650043, 466108992, 555266330, 643158981,
   729822323, 815290272, 899595356, 982768793, 1064840562, 1145839468, 1225793196, 1304728378,
   1382670639, 1459644647, 1535674166, 1610782093, 1684990501, 1758320682, 1830793181, 1902427828,
   1973243777, 2043259528, 2112492963, 2180961373, 2248681479, 2315669461, 2381940980, 2447511201,
   2512394809, 2576606038, 2640158678, 2703066100, 2765341279, 2826996792, 2888044852, 2948497313,
   3008365681, 3067661140, 3126394547, 3184576458, 3242217134, 3299326552, 3355914416, 3411990165,
   3467562987, 3522641821, 3577235372, 3631352118, 3685000314, 3738188006, 3790923030, 3843213028,
   3895065448, 3946487554, 3997486426, 4048068977, 4098241947, 4148011916, 4197385311, 4246368396]

/-- d_k = round((−1)^(k+1) × 2^32 / (k × ln 2)), k = 1–5 (R157). -/
def logD1 : Int := 6196328019
def logD2 : Int := -3098164009
def logD3 : Int := 2065442673
def logD4 : Int := -1549082005
def logD5 : Int := 1239265604

/-- A float function of one element, under FRM. -/
def vFloat1 (x : V) (f : Fmt → Nat → FV → Nat × BitVec 5) (s : State) : State :=
  vOp x (fun a _ _ => f (fmtOf x.t) (frmOf s) ((fmtOf x.t).unpack a)) s

/-- VDIV (R153, R154). -/
def execVdiv (x : V) (s : State) : Out :=
  .next (vOp x (fun a b _ => fpDiv (fmtOf x.t) (frmOf s) ((fmtOf x.t).unpack a) ((fmtOf x.t).unpack b)) s)
/-- VSQRT (R153, R154). -/
def execVsqrt (x : V) (s : State) : Out := .next (vFloat1 x fpSqrt s)
/-- VRCP (R153, R154). -/
def execVrcp (x : V) (s : State) : Out := .next (vFloat1 x (fun f m a => fpDiv f m (.fin false 1 0) a) s)
/-- VRSQ (R153, R154). -/
def execVrsq (x : V) (s : State) : Out := .next (vFloat1 x fpRsq s)

/-- The algorithm of R156 on a finite value: the integer part n, the significand M of 2^31, and whether x − n ≠ 0. -/
def exp2Core (neg : Bool) (m : Nat) (e : Int) : Int × Nat × Bool :=
  let sm : Int := if neg then -(m : Int) else m
  let big : Int := if e + 32 ≥ 0 then sm * (2 : Int) ^ (e + 32).toNat else sm / (2 : Int) ^ (-(e + 32)).toNat
  let fr : Nat := (big % (2 : Int) ^ 32).toNat
  let j : Nat := fr / 2 ^ 26
  let frac : Nat := fr % 2 ^ 26
  let t : Nat := expC3
  let t : Nat := expC2 + t * frac / 2 ^ 32
  let t : Nat := expC1 + t * frac / 2 ^ 32
  let p : Nat := 2 ^ 32 + t * frac / 2 ^ 32
  (big / (2 : Int) ^ 32, expE.getD j 0 * p / 2 ^ 32, decide (e < 0) && m % 2 ^ (-e).toNat != 0)

/-- 2^x (R156), ignoring FRM. -/
def fpExp2 (f : Fmt) (a : FV) : Nat × BitVec 5 :=
  match a with
  | .nan s => f.finish 0 (.nan false, s)
  | .inf n => f.finish 0 (if n then .fin false 0 0 else .inf false, false)
  | .fin n m e =>
    let r := exp2Core n m e
    let v := f.round 0 false r.2.1 (r.1 - 30)
    (v.1, v.2 ||| (if r.2.2 then fNX else 0))

/-- The algorithm of R157 on a positive finite value m × 2^e: Y, and whether x is a power of two. -/
def log2Core (m : Nat) (e : Int) : Int × Bool :=
  let top : Nat := Nat.log2 m
  let mx : Nat := m * 2 ^ 23 / 2 ^ top
  let ex : Int := e + top
  let j : Nat := mx / 2 ^ 17 % 64
  let sv : Int := ((mx : Int) * (logRc j : Int) - 2 ^ 55) / 2 ^ 23
  let h := logD5
  let h := logD4 + h * sv / 2 ^ 32
  let h := logD3 + h * sv / 2 ^ 32
  let h := logD2 + h * sv / 2 ^ 32
  let h := logD1 + h * sv / 2 ^ 32
  (ex * 2 ^ 32 + logL.getD j 0 + h * sv / 2 ^ 32, m == 2 ^ top)

/-- log2 x (R157), ignoring FRM. -/
def fpLog2 (f : Fmt) (a : FV) : Nat × BitVec 5 :=
  match a with
  | .nan s => f.finish 0 (.nan false, s)
  | .inf n => f.finish 0 (if n then (.nan false, true) else (.inf false, false))
  | .fin n m e =>
    if m = 0 then ((f.deliver 0 (.inf true)).1, fDZ)
    else if n then f.finish 0 (.nan false, true)
    else
      let r := log2Core m e
      let v := f.round 0 (decide (r.1 < 0)) r.1.natAbs (-32)
      (v.1, (v.2 &&& ~~~ fNX) ||| (if r.2 then 0 else fNX))

/-- VEXP2 (R156). -/
def execVexp2 (x : V) (s : State) : Out := .next (vFloat1 x (fun f _ a => fpExp2 f a) s)
/-- VLOG2 (R157). -/
def execVlog2 (x : V) (s : State) : Out := .next (vFloat1 x (fun f _ a => fpLog2 f a) s)

/-- Rounding to an integral value of the same format (R155): NV only for a signalling NaN, never NX. -/
def fpRoundInt (f : Fmt) (mode : Nat) (a : FV) : Nat × BitVec 5 :=
  match a with
  | .nan s => f.finish 0 (.nan false, s)
  | .inf n => f.deliver 0 (.inf n)
  | .fin n m e => if e ≥ 0 then ((f.round 0 n m e).1, 0) else ((f.round 0 n (toIntegral mode n m e).1 0).1, 0)

/-- VROUND (R155): the mode in B[1:0]. -/
def execVround (x : V) (s : State) : Out := .next (vFloat1 x (fun f _ a => fpRoundInt f (x.b % 4) a) s)

/-- VSCALE (R155): a × 2^n with the matching element of v[B] as a signed integer. -/
def execVscale (x : V) (s : State) : Out :=
  .next (vOp x (fun a b _ =>
    let f := fmtOf x.t
    let v := f.unpack a
    f.finish (frmOf s) (v.scale (sext b (elemW x.t)), v.isSig)) s)

/-- The class bit of a pattern (R155). -/
def fpClass (f : Fmt) (a : Nat) : Nat :=
  match f.unpack a with
  | .nan s => if s then 1 else 2
  | .inf n => if n then 4 else 2 ^ 9
  | .fin n m _ =>
    if m = 0 then (if n then 2 ^ 5 else 2 ^ 6)
    else if m < 2 ^ f.m then (if n then 2 ^ 4 else 2 ^ 7)
    else (if n then 2 ^ 3 else 2 ^ 8)

/-- VCLASS (R155). -/
def execVclass (x : V) (s : State) : Out := .next (vOp x (fun a _ _ => (fpClass (fmtOf x.t) a, 0)) s)

/-! ## Reductions (R158) -/

/-- A node of the tree: absent, or a value with the flags raised below it. -/
def treeNode (op : Nat → Nat → Nat × BitVec 5) (a b : Option (Nat × BitVec 5)) : Option (Nat × BitVec 5) :=
  match a, b with
  | none, b => b
  | a, none => a
  | some x, some y => let r := op x.1 y.1; some (r.1, r.2 ||| x.2 ||| y.2)

/-- One level of the pairwise tree. -/
def treeLevel (op : Nat → Nat → Nat × BitVec 5) : List (Option (Nat × BitVec 5)) → List (Option (Nat × BitVec 5))
  | a :: b :: r => treeNode op a b :: treeLevel op r
  | l => l

/-- A float input of the tree: a NaN enters canonical, a signalling one raises NV. -/
def floatLeaf (f : Fmt) (v : Nat) : Nat × BitVec 5 :=
  let a := f.unpack v
  (if a.isNan then f32.nanPat else widen f v, if a.isSig then fNV else 0)

/-- Leaf i: absent where lane i is not selected; the two elements of a packed lane combined (R158). -/
def redLeaf (x : V) (op : Nat → Nat → Nat × BitVec 5) (s : State) (i : Nat) : Option (Nat × BitVec 5) :=
  if !lane s x.q i then none
  else
    let v := (rv s x.a i).toNat
    if x.t = 0 then some (floatLeaf f32 v)
    else if x.t = 1 ∨ x.t = 2 then
      treeNode op (some (floatLeaf (fmtOf x.t) (v % 2 ^ 16))) (some (floatLeaf (fmtOf x.t) (v / 2 ^ 16)))
    else some (v, 0)

/-- A reduction: the root, or the identity where no lane is selected, in lane 0; the other lanes zero (R158). -/
def reduce (x : V) (op : Nat → Nat → Nat × BitVec 5) (ident : Nat) (s : State) : State :=
  let lv := (List.range 16).map (redLeaf x op s)
  let root := (treeLevel op (treeLevel op (treeLevel op (treeLevel op lv)))).headD none
  let r := root.getD (ident, 0)
  let s' := wv x.d (fun i => some (if i = 0 then BitVec.ofNat 32 r.1 else 0)) s
  if r.2 = 0 then s' else orFlags r.2 s'

/-- The combination of VRMAX and VRMIN (R158). -/
def redMinMax (t : Nat) (max : Bool) (a b : Nat) : Nat × BitVec 5 :=
  if isF t then fpMinMax f32 max a b else (if decide (elemI t a < elemI t b) = max then b else a, 0)

/-- VRSUM (R158). -/
def execVrsum (x : V) (s : State) : Out :=
  .next (reduce x (fun a b => if isF x.t then fpAdd f32 (frmOf s) (f32.unpack a) (f32.unpack b) else ((a + b) % 2 ^ 32, 0)) 0 s)
/-- VRMAX (R158). -/
def execVrmax (x : V) (s : State) : Out :=
  .next (reduce x (redMinMax x.t true) (if isF x.t then 0xFF800000 else if x.t = 3 then 0x80000000 else 0) s)
/-- VRMIN (R158). -/
def execVrmin (x : V) (s : State) : Out :=
  .next (reduce x (redMinMax x.t false) (if isF x.t then 0x7F800000 else if x.t = 3 then 0x7FFFFFFF else 0xFFFFFFFF) s)

/-! ## Conversions (R119) -/

/-- A float converted to an integer type: rounded under FRM, out of range to the nearest bound with NV, NaN to 0 with NV. -/
def floatToInt (t mode : Nat) (a : FV) : Nat × BitVec 5 :=
  let w := elemW t
  let lo : Int := if isSignedT t then -(2 ^ (w - 1)) else 0
  let hi : Int := if isSignedT t then 2 ^ (w - 1) - 1 else 2 ^ w - 1
  match a with
  | .nan _ => (0, fNV)
  | .inf n => (wrapN w (if n then lo else hi), fNV)
  | .fin n m e =>
    let r := toIntegral mode n m e
    let v : Int := if n then -(r.1 : Int) else r.1
    if v < lo then (wrapN w lo, fNV) else if v > hi then (wrapN w hi, fNV)
    else (wrapN w v, if r.2 then fNX else 0)

/-- One element converted from type `st` to type `dt` (R119). -/
def cvtElem (dt st mode v : Nat) : Nat × BitVec 5 :=
  if isF st then
    let a := (fmtOf st).unpack v
    if isF dt then (fmtOf dt).finish mode (a, a.isSig) else floatToInt dt mode a
  else
    let i := elemI st v
    if isF dt then (fmtOf dt).round mode (decide (i < 0)) i.natAbs 0 else (clampT dt i, 0)

/-- One lane converted: element by element where the counts are equal, else element 0 alone (R119). -/
def cvtLane (dt st mode v : Nat) : Nat × BitVec 5 :=
  let w := elemW dt
  if w = elemW st then laneMap w (fun a _ _ => cvtElem dt st mode a) v 0 0
  else
    let r := cvtElem dt st mode (v % 2 ^ elemW st)
    (r.1 % 2 ^ w, r.2)

/-- VCVT (R119): T the destination type, B[2:0] the source type. -/
def execVcvt (x : V) (s : State) : Out :=
  .next (vLanes x (fun i => cvtLane x.t (x.b % 8) (frmOf s) (rv s x.a i).toNat) s)

/-! ## Codes in registers (R120, R121) -/

/-- An encoding instruction: the TABLE test whatever the mask, then `w`-bit position `k` of each selected lane (R120). -/
def venc (x : V) (w k : Nat) (s : State) : State :=
  let t := x.b % 4
  let y := preSys s.t
  checked [(!tableOk y t (w == 4), tr cTable)] (fun s =>
    vLanes x (fun i =>
      let r := encodeCode y t (f32.unpack (rv s x.a i).toNat) (frmOf s % 2) (bit (frmOf s) 1)
      let d := (rv s x.d i).toNat
      (d - elemOf w d k * 2 ^ (w * k) + r.1 % 2 ^ w * 2 ^ (w * k), r.2)) s) s

/-- A decoding instruction (R120). -/
def vdec (x : V) (w k : Nat) (s : State) : State :=
  vLanes x (fun i => (codeLane (preSys s.t) (x.b % 4) (elemOf w (rv s x.a i).toNat k), 0)) s

/-- VENC8 (R120): byte B[3:2]. -/
def execVenc8 (x : V) (s : State) : Out := .next (venc x 8 (x.b / 4 % 4) s)
/-- VDEC8 (R120). -/
def execVdec8 (x : V) (s : State) : Out := .next (vdec x 8 (x.b / 4 % 4) s)
/-- VENC4 (R120): nibble B[4:2]. -/
def execVenc4 (x : V) (s : State) : Out := .next (venc x 4 (x.b / 4 % 8) s)
/-- VDEC4 (R120). -/
def execVdec4 (x : V) (s : State) : Out := .next (vdec x 4 (x.b / 4 % 8) s)

/-- VBSCL (R121): the scale of the group of four lanes, or the lane scaled by it. -/
def execVbscl (x : V) (s : State) : Out :=
  .next (vLanes x (fun i =>
    let sb := blockScale (dtsEmax (dtsOf (preSys s.t) (x.b % 4)))
      ((List.range 4).map fun j => f32.unpack (rv s x.a (i / 4 * 4 + j)).toNat)
    if bit x.b 4 then (sb, 0)
    else
      let v := f32.unpack (rv s x.a i).toNat
      f32.finish 0 (v.scale (127 - (sb : Int)), v.isSig)) s)

end Sys2Proof.Machine
end

