-- ==== Sys2Proof/Machine/VPred.lean ====
section
/-!
DEFINITION. Sys2Proof/Machine/VPred.lean: the V-P instructions: compares to lane masks, mask forms and lane movement
(R159–R162).
-/

namespace Sys2Proof.Machine

/-- A compare to q[D]: bit i is Q's bit i AND the relation on lane i; the selected lanes' flags (R159). -/
def vcmp (x : V) (fp : Int → Bool) (nan quiet : Bool) (ip : Int → Int → Bool) (s : State) : State :=
  let one (i : Nat) : Bool × BitVec 5 :=
    let a := (rv s x.a i).toNat
    let b := (rv s x.b i).toNat
    if x.t = 0 then
      let u := f32.unpack a
      let v := f32.unpack b
      if u.isNan || v.isNan then (nan, if quiet && !u.isSig && !v.isSig then 0 else fNV) else (fp (u.cmp v), 0)
    else (ip (elemI x.t a) (elemI x.t b), 0)
  let m := (List.range 16).foldr (fun i n => n * 2 + b2n (lane s x.q i && (one i).1)) 0
  let fl := (List.range 16).foldl (fun r i => if lane s x.q i then r ||| (one i).2 else r) 0
  let s' := wq (x.d % 8) (BitVec.ofNat 16 m) s
  if fl = 0 then s' else orFlags fl s'

/-- VCEQ (R159): NV only for a signalling NaN. -/
def execVceq (x : V) (s : State) : Out := .next (vcmp x (fun c => c == 0) false true (fun a b => decide (a = b)) s)
/-- VCNE (R159): true on a NaN. -/
def execVcne (x : V) (s : State) : Out := .next (vcmp x (fun c => c != 0) true true (fun a b => decide (a ≠ b)) s)
/-- VCLT (R159): NV for any NaN. -/
def execVclt (x : V) (s : State) : Out := .next (vcmp x (fun c => decide (c < 0)) false false (fun a b => decide (a < b)) s)
/-- VCLE (R159). -/
def execVcle (x : V) (s : State) : Out := .next (vcmp x (fun c => decide (c ≤ 0)) false false (fun a b => decide (a ≤ b)) s)
/-- VCLTN (R159): unsigned, whatever the type. -/
def execVcltn (x : V) (s : State) : Out :=
  .next (vcmp { x with t := 6 } (fun _ => false) false true (fun a b => decide (a < b)) s)
/-- VCLEN (R159): unsigned. -/
def execVclen (x : V) (s : State) : Out :=
  .next (vcmp { x with t := 6 } (fun _ => false) false true (fun a b => decide (a ≤ b)) s)

/-- QAND (R160). -/
def execQand (x : V) (s : State) : Out := .next (wq x.d (rq s x.a &&& rq s x.b) s)
/-- QOR (R160). -/
def execQor (x : V) (s : State) : Out := .next (wq x.d (rq s x.a ||| rq s x.b) s)
/-- QXOR (R160). -/
def execQxor (x : V) (s : State) : Out := .next (wq x.d (rq s x.a ^^^ rq s x.b) s)
/-- QANDN (R160). -/
def execQandn (x : V) (s : State) : Out := .next (wq x.d (rq s x.a &&& ~~~ rq s x.b) s)
/-- QMOVG (R160). -/
def execQmovg (x : V) (s : State) : Out := .next (wq x.d ((rg s x.a).setWidth 16) s)
/-- GMOVQ (R160). -/
def execGmovq (x : V) (s : State) : Out := .next (wg x.d ((rq s x.a).setWidth 64) s)
/-- QPOPC (R160). -/
def execQpopc (x : V) (s : State) : Out :=
  .next (wg x.d (BitVec.ofNat 64 ((List.range 16).foldl (fun n i => n + b2n ((rq s x.a).getLsbD i)) 0)) s)

/-- VSPLAT (R161): every element of the selected lanes. -/
def execVsplat (x : V) (s : State) : Out :=
  .next (vLanes x (fun _ => laneMap (elemW x.t) (fun _ _ _ => ((rg s x.a).toNat % 2 ^ elemW x.t, 0)) 0 0 0) s)

/-- VINS (R161). -/
def execVins (x : V) (s : State) : Out :=
  .next (wv x.d (fun i => if i = (rg s x.b).toNat % 16 then some (lo32 (rg s x.a)) else none) s)

/-- VEXT (R161): sign-extended for I32. -/
def execVext (x : V) (s : State) : Out :=
  .next (let v := rv s x.a ((rg s x.b).toNat % 16); wg x.d (if x.t = 3 then sx32 v else v.setWidth 64) s)

/-- VPERM (R161). -/
def execVperm (x : V) (s : State) : Out := .next (vLanes x (fun i => ((rv s x.a ((rv s x.b i).toNat % 16)).toNat, 0)) s)

/-- The lanes that Q selects, ascending. -/
def selLanes (s : State) (q : Nat) : List Nat := (List.range 16).filter (lane s q)

/-- VCOMPR (R162): every lane of v[D] is written. -/
def execVcompr (x : V) (s : State) : Out :=
  .next (
    let l := selLanes s x.q
    wv x.d (fun i => some (match elemAt l i with | some j => rv s x.a j | none => 0)) s)

/-- VSEL (R161): every lane of v[D] is written. -/
def execVsel (x : V) (s : State) : Out := .next (wv x.d (fun i => some (if lane s x.q i then rv s x.a i else rv s x.b i)) s)

/-- VIOTA (R162). -/
def execViota (x : V) (s : State) : Out :=
  .next (vLanes x (fun i =>
    (((rg s x.a).toNat + ((selLanes s x.q).filter fun j => decide (j < i)).length) % 2 ^ 32, 0)) s)

end Sys2Proof.Machine
end

