-- ==== Sys2Proof/Machine/Dispatch.lean ====
section
/-!
DEFINITION. Sys2Proof/Machine/Dispatch.lean: the meaning of every step, one arm per constructor of Instr.
-/

namespace Sys2Proof.Machine

/-- One step: an instruction of the issuing tile, or a step of an engine. -/
def exec (i : Instr) (s : State) : Host.Outcome State Fault Refusal :=
  match i with
  | .add x => Sys2Proof.Machine.execAdd x s
  | .sub x => Sys2Proof.Machine.execSub x s
  | .and x => Sys2Proof.Machine.execAnd x s
  | .or x => Sys2Proof.Machine.execOr x s
  | .xor x => Sys2Proof.Machine.execXor x s
  | .andn x => Sys2Proof.Machine.execAndn x s
  | .orn x => Sys2Proof.Machine.execOrn x s
  | .sll x => Sys2Proof.Machine.execSll x s
  | .srl x => Sys2Proof.Machine.execSrl x s
  | .sra x => Sys2Proof.Machine.execSra x s
  | .ror x => Sys2Proof.Machine.execRor x s
  | .min x => Sys2Proof.Machine.execMin x s
  | .max x => Sys2Proof.Machine.execMax x s
  | .minn x => Sys2Proof.Machine.execMinn x s
  | .maxn x => Sys2Proof.Machine.execMaxn x s
  | .ceq x => Sys2Proof.Machine.execCeq x s
  | .cne x => Sys2Proof.Machine.execCne x s
  | .clt x => Sys2Proof.Machine.execClt x s
  | .cle x => Sys2Proof.Machine.execCle x s
  | .cltn x => Sys2Proof.Machine.execCltn x s
  | .clen x => Sys2Proof.Machine.execClen x s
  | .pand x => Sys2Proof.Machine.execPand x s
  | .por x => Sys2Proof.Machine.execPor x s
  | .pxor x => Sys2Proof.Machine.execPxor x s
  | .pandn x => Sys2Proof.Machine.execPandn x s
  | .movp x => Sys2Proof.Machine.execMovp x s
  | .pmovg x => Sys2Proof.Machine.execPmovg x s
  | .ext x => Sys2Proof.Machine.execExt x s
  | .exts x => Sys2Proof.Machine.execExts x s
  | .ins x => Sys2Proof.Machine.execIns x s
  | .addi x => Sys2Proof.Machine.execAddi x s
  | .andi x => Sys2Proof.Machine.execAndi x s
  | .ori x => Sys2Proof.Machine.execOri x s
  | .xori x => Sys2Proof.Machine.execXori x s
  | .slli x => Sys2Proof.Machine.execSlli x s
  | .srli x => Sys2Proof.Machine.execSrli x s
  | .srai x => Sys2Proof.Machine.execSrai x s
  | .ceqi x => Sys2Proof.Machine.execCeqi x s
  | .cnei x => Sys2Proof.Machine.execCnei x s
  | .clti x => Sys2Proof.Machine.execClti x s
  | .clei x => Sys2Proof.Machine.execClei x s
  | .cltni x => Sys2Proof.Machine.execCltni x s
  | .cleni x => Sys2Proof.Machine.execCleni x s
  | .addwi x => Sys2Proof.Machine.execAddwi x s
  | .movi x => Sys2Proof.Machine.execMovi x s
  | .addiL x => Sys2Proof.Machine.execAddiL x s
  | .andiL x => Sys2Proof.Machine.execAndiL x s
  | .oriL x => Sys2Proof.Machine.execOriL x s
  | .xoriL x => Sys2Proof.Machine.execXoriL x s
  | .slliL x => Sys2Proof.Machine.execSlliL x s
  | .srliL x => Sys2Proof.Machine.execSrliL x s
  | .sraiL x => Sys2Proof.Machine.execSraiL x s
  | .ceqiL x => Sys2Proof.Machine.execCeqiL x s
  | .cneiL x => Sys2Proof.Machine.execCneiL x s
  | .cltiL x => Sys2Proof.Machine.execCltiL x s
  | .cleiL x => Sys2Proof.Machine.execCleiL x s
  | .cltniL x => Sys2Proof.Machine.execCltniL x s
  | .cleniL x => Sys2Proof.Machine.execCleniL x s
  | .addwiL x => Sys2Proof.Machine.execAddwiL x s
  | .moviL x => Sys2Proof.Machine.execMoviL x s
  | .movhiL x => Sys2Proof.Machine.execMovhiL x s
  | .mul x => Sys2Proof.Machine.execMul x s
  | .mulh x => Sys2Proof.Machine.execMulh x s
  | .mulhn x => Sys2Proof.Machine.execMulhn x s
  | .div x => Sys2Proof.Machine.execDiv x s
  | .divn x => Sys2Proof.Machine.execDivn x s
  | .rem x => Sys2Proof.Machine.execRem x s
  | .remn x => Sys2Proof.Machine.execRemn x s
  | .madd x => Sys2Proof.Machine.execMadd x s
  | .msub x => Sys2Proof.Machine.execMsub x s
  | .clz x => Sys2Proof.Machine.execClz x s
  | .ctz x => Sys2Proof.Machine.execCtz x s
  | .popc x => Sys2Proof.Machine.execPopc x s
  | .brev x => Sys2Proof.Machine.execBrev x s
  | .bswap x => Sys2Proof.Machine.execBswap x s
  | .br x => Sys2Proof.Machine.execBr x s
  | .call x => Sys2Proof.Machine.execCall x s
  | .bz x => Sys2Proof.Machine.execBz x s
  | .bnz x => Sys2Proof.Machine.execBnz x s
  | .loop x => Sys2Proof.Machine.execLoop x s
  | .brr x => Sys2Proof.Machine.execBrr x s
  | .callr x => Sys2Proof.Machine.execCallr x s
  | .ret x => Sys2Proof.Machine.execRet x s
  | .ldb x => Sys2Proof.Machine.execLdb x s
  | .ldbn x => Sys2Proof.Machine.execLdbn x s
  | .ldh x => Sys2Proof.Machine.execLdh x s
  | .ldhn x => Sys2Proof.Machine.execLdhn x s
  | .ldw x => Sys2Proof.Machine.execLdw x s
  | .ldwn x => Sys2Proof.Machine.execLdwn x s
  | .ldd x => Sys2Proof.Machine.execLdd x s
  | .stb x => Sys2Proof.Machine.execStb x s
  | .sth x => Sys2Proof.Machine.execSth x s
  | .stw x => Sys2Proof.Machine.execStw x s
  | .std x => Sys2Proof.Machine.execStd x s
  | .ldf x => Sys2Proof.Machine.execLdf x s
  | .ldfc x => Sys2Proof.Machine.execLdfc x s
  | .stf x => Sys2Proof.Machine.execStf x s
  | .fclr x => Sys2Proof.Machine.execFclr x s
  | .fset x => Sys2Proof.Machine.execFset x s
  | .ldbL x => Sys2Proof.Machine.execLdbL x s
  | .ldbnL x => Sys2Proof.Machine.execLdbnL x s
  | .ldhL x => Sys2Proof.Machine.execLdhL x s
  | .ldhnL x => Sys2Proof.Machine.execLdhnL x s
  | .ldwL x => Sys2Proof.Machine.execLdwL x s
  | .ldwnL x => Sys2Proof.Machine.execLdwnL x s
  | .lddL x => Sys2Proof.Machine.execLddL x s
  | .stbL x => Sys2Proof.Machine.execStbL x s
  | .sthL x => Sys2Proof.Machine.execSthL x s
  | .stwL x => Sys2Proof.Machine.execStwL x s
  | .stdL x => Sys2Proof.Machine.execStdL x s
  | .ldfL x => Sys2Proof.Machine.execLdfL x s
  | .ldfcL x => Sys2Proof.Machine.execLdfcL x s
  | .stfL x => Sys2Proof.Machine.execStfL x s
  | .fclrL x => Sys2Proof.Machine.execFclrL x s
  | .fsetL x => Sys2Proof.Machine.execFsetL x s
  | .fullWaitWake p => Sys2Proof.Machine.execFullWaitWake p s
  | .vld x => Sys2Proof.Machine.execVld x s
  | .vst x => Sys2Proof.Machine.execVst x s
  | .vldb x => Sys2Proof.Machine.execVldb x s
  | .vlds x => Sys2Proof.Machine.execVlds x s
  | .vsts x => Sys2Proof.Machine.execVsts x s
  | .vldx x => Sys2Proof.Machine.execVldx x s
  | .vstx x => Sys2Proof.Machine.execVstx x s
  | .vldt x => Sys2Proof.Machine.execVldt x s
  | .vstt x => Sys2Proof.Machine.execVstt x s
  | .vldf x => Sys2Proof.Machine.execVldf x s
  | .vspl x => Sys2Proof.Machine.execVspl x s
  | .vfil x => Sys2Proof.Machine.execVfil x s
  | .vadd x => Sys2Proof.Machine.execVadd x s
  | .vsub x => Sys2Proof.Machine.execVsub x s
  | .vmul x => Sys2Proof.Machine.execVmul x s
  | .vfma x => Sys2Proof.Machine.execVfma x s
  | .vfms x => Sys2Proof.Machine.execVfms x s
  | .vmin x => Sys2Proof.Machine.execVmin x s
  | .vmax x => Sys2Proof.Machine.execVmax x s
  | .vabs x => Sys2Proof.Machine.execVabs x s
  | .vneg x => Sys2Proof.Machine.execVneg x s
  | .vand x => Sys2Proof.Machine.execVand x s
  | .vor x => Sys2Proof.Machine.execVor x s
  | .vxor x => Sys2Proof.Machine.execVxor x s
  | .vandn x => Sys2Proof.Machine.execVandn x s
  | .vsll x => Sys2Proof.Machine.execVsll x s
  | .vsrl x => Sys2Proof.Machine.execVsrl x s
  | .vsra x => Sys2Proof.Machine.execVsra x s
  | .vadds x => Sys2Proof.Machine.execVadds x s
  | .vsubs x => Sys2Proof.Machine.execVsubs x s
  | .vmulh x => Sys2Proof.Machine.execVmulh x s
  | .vdot4 x => Sys2Proof.Machine.execVdot4 x s
  | .vdot2 x => Sys2Proof.Machine.execVdot2 x s
  | .vmulw x => Sys2Proof.Machine.execVmulw x s
  | .vcopy x => Sys2Proof.Machine.execVcopy x s
  | .vcvt x => Sys2Proof.Machine.execVcvt x s
  | .vdiv x => Sys2Proof.Machine.execVdiv x s
  | .vsqrt x => Sys2Proof.Machine.execVsqrt x s
  | .vrcp x => Sys2Proof.Machine.execVrcp x s
  | .vrsq x => Sys2Proof.Machine.execVrsq x s
  | .vexp2 x => Sys2Proof.Machine.execVexp2 x s
  | .vlog2 x => Sys2Proof.Machine.execVlog2 x s
  | .vround x => Sys2Proof.Machine.execVround x s
  | .vrsum x => Sys2Proof.Machine.execVrsum x s
  | .vrmax x => Sys2Proof.Machine.execVrmax x s
  | .vrmin x => Sys2Proof.Machine.execVrmin x s
  | .vscale x => Sys2Proof.Machine.execVscale x s
  | .vclass x => Sys2Proof.Machine.execVclass x s
  | .venc8 x => Sys2Proof.Machine.execVenc8 x s
  | .vdec8 x => Sys2Proof.Machine.execVdec8 x s
  | .venc4 x => Sys2Proof.Machine.execVenc4 x s
  | .vdec4 x => Sys2Proof.Machine.execVdec4 x s
  | .vbscl x => Sys2Proof.Machine.execVbscl x s
  | .vceq x => Sys2Proof.Machine.execVceq x s
  | .vcne x => Sys2Proof.Machine.execVcne x s
  | .vclt x => Sys2Proof.Machine.execVclt x s
  | .vcle x => Sys2Proof.Machine.execVcle x s
  | .vcltn x => Sys2Proof.Machine.execVcltn x s
  | .vclen x => Sys2Proof.Machine.execVclen x s
  | .qand x => Sys2Proof.Machine.execQand x s
  | .qor x => Sys2Proof.Machine.execQor x s
  | .qxor x => Sys2Proof.Machine.execQxor x s
  | .qandn x => Sys2Proof.Machine.execQandn x s
  | .qmovg x => Sys2Proof.Machine.execQmovg x s
  | .gmovq x => Sys2Proof.Machine.execGmovq x s
  | .vsplat x => Sys2Proof.Machine.execVsplat x s
  | .vins x => Sys2Proof.Machine.execVins x s
  | .vext x => Sys2Proof.Machine.execVext x s
  | .vperm x => Sys2Proof.Machine.execVperm x s
  | .vcompr x => Sys2Proof.Machine.execVcompr x s
  | .vsel x => Sys2Proof.Machine.execVsel x s
  | .viota x => Sys2Proof.Machine.execViota x s
  | .qpopc x => Sys2Proof.Machine.execQpopc x s
  | .mcfg x => Sys2Proof.Machine.execMcfg x s
  | .mcfgL x => Sys2Proof.Machine.execMcfgL x s
  | .mma x => Sys2Proof.Machine.execMma x s
  | .mmat x => Sys2Proof.Machine.execMmat x s
  | .mms x => Sys2Proof.Machine.execMms x s
  | .mmst x => Sys2Proof.Machine.execMmst x s
  | .mmaz x => Sys2Proof.Machine.execMmaz x s
  | .mmazt x => Sys2Proof.Machine.execMmazt x s
  | .mmsz x => Sys2Proof.Machine.execMmsz x s
  | .mmszt x => Sys2Proof.Machine.execMmszt x s
  | .mzero x => Sys2Proof.Machine.execMzero x s
  | .mldac x => Sys2Proof.Machine.execMldac x s
  | .mldacf x => Sys2Proof.Machine.execMldacf x s
  | .mstac x => Sys2Proof.Machine.execMstac x s
  | .mstacf x => Sys2Proof.Machine.execMstacf x s
  | .mdrn x => Sys2Proof.Machine.execMdrn x s
  | .mhad x => Sys2Proof.Machine.execMhad x s
  | .msclc x => Sys2Proof.Machine.execMsclc x s
  | .maddr x => Sys2Proof.Machine.execMaddr x s
  | .mrdf x => Sys2Proof.Machine.execMrdf x s
  | .mclrf x => Sys2Proof.Machine.execMclrf x s
  | .mwait x => Sys2Proof.Machine.execMwait x s
  | .mwaitAc x => Sys2Proof.Machine.execMwaitAc x s
  | .mjob x => Sys2Proof.Machine.execMjob x s
  | .mtstj x => Sys2Proof.Machine.execMtstj x s
  | .send x => Sys2Proof.Machine.execSend x s
  | .sende x => Sys2Proof.Machine.execSende x s
  | .recv x => Sys2Proof.Machine.execRecv x s
  | .probe x => Sys2Proof.Machine.execProbe x s
  | .rcancel x => Sys2Proof.Machine.execRcancel x s
  | .rtest x => Sys2Proof.Machine.execRtest x s
  | .rwait x => Sys2Proof.Machine.execRwait x s
  | .xchg x => Sys2Proof.Machine.execXchg x s
  | .squery x => Sys2Proof.Machine.execSquery x s
  | .sendv x => Sys2Proof.Machine.execSendv x s
  | .csend x => Sys2Proof.Machine.execCsend x s
  | .recvm x => Sys2Proof.Machine.execRecvm x s
  | .probem x => Sys2Proof.Machine.execProbem x s
  | .recvmFe x => Sys2Proof.Machine.execRecvmFe x s
  | .tbind x => Sys2Proof.Machine.execTbind x s
  | .tarm x => Sys2Proof.Machine.execTarm x s
  | .tkick x => Sys2Proof.Machine.execTkick x s
  | .tspawn x => Sys2Proof.Machine.execTspawn x s
  | .tend x => Sys2Proof.Machine.execTend x s
  | .tcommit x => Sys2Proof.Machine.execTcommit x s
  | .tyield x => Sys2Proof.Machine.execTyield x s
  | .tunbind x => Sys2Proof.Machine.execTunbind x s
  | .tstat x => Sys2Proof.Machine.execTstat x s
  | .grank x => Sys2Proof.Machine.execGrank x s
  | .gsize x => Sys2Proof.Machine.execGsize x s
  | .gplace x => Sys2Proof.Machine.execGplace x s
  | .barr x => Sys2Proof.Machine.execBarr x s
  | .bbind x => Sys2Proof.Machine.execBbind x s
  | .bwait x => Sys2Proof.Machine.execBwait x s
  | .bcancel x => Sys2Proof.Machine.execBcancel x s
  | .cred x => Sys2Proof.Machine.execCred x s
  | .cared x => Sys2Proof.Machine.execCared x s
  | .cbcast x => Sys2Proof.Machine.execCbcast x s
  | .cstart x => Sys2Proof.Machine.execCstart x s
  | .cabort x => Sys2Proof.Machine.execCabort x s
  | .ktrig x => Sys2Proof.Machine.execKtrig x s
  | .kdone x => Sys2Proof.Machine.execKdone x s
  | .get x => Sys2Proof.Machine.execGet x s
  | .put x => Sys2Proof.Machine.execPut x s
  | .getd x => Sys2Proof.Machine.execGetd x s
  | .putd x => Sys2Proof.Machine.execPutd x s
  | .bmv x => Sys2Proof.Machine.execBmv x s
  | .bmvt x => Sys2Proof.Machine.execBmvt x s
  | .bfence x => Sys2Proof.Machine.execBfence x s
  | .fence x => Sys2Proof.Machine.execFence x s
  | .pqry x => Sys2Proof.Machine.execPqry x s
  | .geti x => Sys2Proof.Machine.execGeti x s
  | .maadd x => Sys2Proof.Machine.execMaadd x s
  | .maand x => Sys2Proof.Machine.execMaand x s
  | .maor x => Sys2Proof.Machine.execMaor x s
  | .maxor x => Sys2Proof.Machine.execMaxor x s
  | .mamin x => Sys2Proof.Machine.execMamin x s
  | .mamax x => Sys2Proof.Machine.execMamax x s
  | .maswap x => Sys2Proof.Machine.execMaswap x s
  | .macas x => Sys2Proof.Machine.execMacas x s
  | .mafadd x => Sys2Proof.Machine.execMafadd x s
  | .msadd x => Sys2Proof.Machine.execMsadd x s
  | .msmax x => Sys2Proof.Machine.execMsmax x s
  | .mfs x => Sys2Proof.Machine.execMfs x s
  | .mts x => Sys2Proof.Machine.execMts x s
  | .trap x => Sys2Proof.Machine.execTrap x s
  | .wdset x => Sys2Proof.Machine.execWdset x s
  | .tload x => Sys2Proof.Machine.execTload x s
  | .sleep x => Sys2Proof.Machine.execSleep x s
  | .bkpt x => Sys2Proof.Machine.execBkpt x s
  | .yoke x => Sys2Proof.Machine.execYoke x s
  | .unyoke x => Sys2Proof.Machine.execUnyoke x s
  | .aallot x => Sys2Proof.Machine.execAallot x s
  | .vallot x => Sys2Proof.Machine.execVallot x s
  | .blkh x => Sys2Proof.Machine.execBlkh x s
  | .blkv x => Sys2Proof.Machine.execBlkv x s
  | .laadd x => Sys2Proof.Machine.execLaadd x s
  | .laand x => Sys2Proof.Machine.execLaand x s
  | .laor x => Sys2Proof.Machine.execLaor x s
  | .laxor x => Sys2Proof.Machine.execLaxor x s
  | .lamin x => Sys2Proof.Machine.execLamin x s
  | .lamax x => Sys2Proof.Machine.execLamax x s
  | .laminn x => Sys2Proof.Machine.execLaminn x s
  | .lamaxn x => Sys2Proof.Machine.execLamaxn x s
  | .laswap x => Sys2Proof.Machine.execLaswap x s
  | .lacas x => Sys2Proof.Machine.execLacas x s
  | .vflagsClear mask => Sys2Proof.Machine.execVflagsClear mask s
  | .caps0Write val => Sys2Proof.Machine.execCaps0Write val s
  | .wpcHitClear n val => Sys2Proof.Machine.execWpcHitClear n val s
  | .tileUngate p => Sys2Proof.Machine.execTileUngate p s
  | .tileResetComplete p => Sys2Proof.Machine.execTileResetComplete p s
  | .taskDispatch p => Sys2Proof.Machine.execTaskDispatch p s
  | .budgetExpiry p => Sys2Proof.Machine.execBudgetExpiry p s
  | .pagerRestart p r a => Sys2Proof.Machine.execPagerRestart p r a s
  | .pagerKill p r a => Sys2Proof.Machine.execPagerKill p r a s
  | .imemEccError p => Sys2Proof.Machine.execImemEccError p s
  | .imemRepair p => Sys2Proof.Machine.execImemRepair p s
  | .eccLocal p => Sys2Proof.Machine.execEccLocal p s
  | .tileUnrecoverableFault p => Sys2Proof.Machine.execTileUnrecoverableFault p s
  | .gateRequest p => Sys2Proof.Machine.execGateRequest p s
  | .forcedGate p => Sys2Proof.Machine.execForcedGate p s
  | .sleepWake p => Sys2Proof.Machine.execSleepWake p s
  | .allotStallEnd p => Sys2Proof.Machine.execAllotStallEnd p s
  | .tloadWaitEnd p => Sys2Proof.Machine.execTloadWaitEnd p s
  | .matrixQueueStallEnd p => Sys2Proof.Machine.execMatrixQueueStallEnd p s
  | .mmaComplete p => Sys2Proof.Machine.execMmaComplete p s
  | .mzeroComplete p => Sys2Proof.Machine.execMzeroComplete p s
  | .mldacComplete p => Sys2Proof.Machine.execMldacComplete p s
  | .mstacComplete p => Sys2Proof.Machine.execMstacComplete p s
  | .mdrnComplete p => Sys2Proof.Machine.execMdrnComplete p s
  | .mhadComplete p => Sys2Proof.Machine.execMhadComplete p s
  | .msclcComplete p => Sys2Proof.Machine.execMsclcComplete p s
  | .maddrComplete p => Sys2Proof.Machine.execMaddrComplete p s
  | .mclrfComplete p => Sys2Proof.Machine.execMclrfComplete p s
  | .jobComplete p => Sys2Proof.Machine.execJobComplete p s
  | .mwaitRelease p => Sys2Proof.Machine.execMwaitRelease p s
  | .mrdfRelease p => Sys2Proof.Machine.execMrdfRelease p s
  | .eagerArrival n => Sys2Proof.Machine.execEagerArrival n s
  | .rtsArrival n => Sys2Proof.Machine.execRtsArrival n s
  | .troughCopyDone p k => Sys2Proof.Machine.execTroughCopyDone p k s
  | .ctsArrival n => Sys2Proof.Machine.execCtsArrival n s
  | .dataArrival n => Sys2Proof.Machine.execDataArrival n s
  | .eackArrival n => Sys2Proof.Machine.execEackArrival n s
  | .rackArrival n => Sys2Proof.Machine.execRackArrival n s
  | .dackArrival n => Sys2Proof.Machine.execDackArrival n s
  | .poolFullArrival n => Sys2Proof.Machine.execPoolFullArrival n s
  | .resumeRetry p d => Sys2Proof.Machine.execResumeRetry p d s
  | .sendEmit p k => Sys2Proof.Machine.execSendEmit p k s
  | .rankCacheFill p g r => Sys2Proof.Machine.execRankCacheFill p g r s
  | .rwaitWake p => Sys2Proof.Machine.execRwaitWake p s
  | .packetPark n => Sys2Proof.Machine.execPacketPark n s
  | .overflowStoreGrow c => Sys2Proof.Machine.execOverflowStoreGrow c s
  | .switchPortPass n => Sys2Proof.Machine.execSwitchPortPass n s
  | .groupEntryDrained c k => Sys2Proof.Machine.execGroupEntryDrained c k s
  | .gplaceResolved p => Sys2Proof.Machine.execGplaceResolved p s
  | .barrierArriveAtSwitch n => Sys2Proof.Machine.execBarrierArriveAtSwitch n s
  | .barrierReleaseDelivery n => Sys2Proof.Machine.execBarrierReleaseDelivery n s
  | .barrierCancelAtLca n => Sys2Proof.Machine.execBarrierCancelAtLca n s
  | .bwaitRelease p => Sys2Proof.Machine.execBwaitRelease p s
  | .stationRequest n => Sys2Proof.Machine.execStationRequest n s
  | .translationWalkDone n => Sys2Proof.Machine.execTranslationWalkDone n s
  | .pagerFaultResolution n ok => Sys2Proof.Machine.execPagerFaultResolution n ok s
  | .packetPerform n => Sys2Proof.Machine.execPacketPerform n s
  | .memoryReply n => Sys2Proof.Machine.execMemoryReply n s
  | .memFaultTrap p => Sys2Proof.Machine.execMemFaultTrap p s
  | .atomicReply n => Sys2Proof.Machine.execAtomicReply n s
  | .fenceComplete p => Sys2Proof.Machine.execFenceComplete p s
  | .pqryReply n => Sys2Proof.Machine.execPqryReply n s
  | .getiWordWrite n => Sys2Proof.Machine.execGetiWordWrite n s
  | .hbmUncorrectable a => Sys2Proof.Machine.execHbmUncorrectable a s
  | .poisonClear c va => Sys2Proof.Machine.execPoisonClear c va s
  | .mappingInvalidate c k => Sys2Proof.Machine.execMappingInvalidate c k s
  | .mappingChangeComplete c k => Sys2Proof.Machine.execMappingChangeComplete c k s
  | .migrateFreezeDone c k => Sys2Proof.Machine.execMigrateFreezeDone c k s
  | .migrateDrainDone c k => Sys2Proof.Machine.execMigrateDrainDone c k s
  | .migrateCopyDone c k => Sys2Proof.Machine.execMigrateCopyDone c k s
  | .migrateSwitchDone c k => Sys2Proof.Machine.execMigrateSwitchDone c k s
  | .bfencePacket n => Sys2Proof.Machine.execBfencePacket n s
  | .bfenceAnswer n => Sys2Proof.Machine.execBfenceAnswer n s
  | .bmvPartial n => Sys2Proof.Machine.execBmvPartial n s
  | .bmvCombine p k => Sys2Proof.Machine.execBmvCombine p k s
  | .cdtCacheFill p c t => Sys2Proof.Machine.execCdtCacheFill p c t s
  | .memberJoin p => Sys2Proof.Machine.execMemberJoin p s
  | .yokeFormationEnd p => Sys2Proof.Machine.execYokeFormationEnd p s
  | .yokeJoinTimeout p => Sys2Proof.Machine.execYokeJoinTimeout p s
  | .blockStart p => Sys2Proof.Machine.execBlockStart p s
  | .operandArrival p b r => Sys2Proof.Machine.execOperandArrival p b r s
  | .blockResolve p b => Sys2Proof.Machine.execBlockResolve p b s
  | .blockCommit p => Sys2Proof.Machine.execBlockCommit p s
  | .yokeMemberFault p m => Sys2Proof.Machine.execYokeMemberFault p m s
  | .yokeDrain p => Sys2Proof.Machine.execYokeDrain p s
  | .combineUpChunk n => Sys2Proof.Machine.execCombineUpChunk n s
  | .combineDownChunk n => Sys2Proof.Machine.execCombineDownChunk n s
  | .collectiveAbortAtLca n => Sys2Proof.Machine.execCollectiveAbortAtLca n s
  | .collectiveAbortArrival n => Sys2Proof.Machine.execCollectiveAbortArrival n s
  | .collectedAtLca n => Sys2Proof.Machine.execCollectedAtLca n s
  | .collectiveIdRelease n => Sys2Proof.Machine.execCollectiveIdRelease n s
  | .scheduleEntryStart k => Sys2Proof.Machine.execScheduleEntryStart k s
  | .scheduleChunkArrival n => Sys2Proof.Machine.execScheduleChunkArrival n s
  | .scheduleEntryComplete k i1 => Sys2Proof.Machine.execScheduleEntryComplete k i1 s
  | .launchPacket n => Sys2Proof.Machine.execLaunchPacket n s
  | .kernelTileLoad k p => Sys2Proof.Machine.execKernelTileLoad k p s
  | .kernelTileKick k p => Sys2Proof.Machine.execKernelTileKick k p s
  | .kernelTriggerArrival k p => Sys2Proof.Machine.execKernelTriggerArrival k p s
  | .kdoneAckArrival k p => Sys2Proof.Machine.execKdoneAckArrival k p s
  | .tailWrite f o val => Sys2Proof.Machine.execTailWrite f o val s
  | .queueNotice n => Sys2Proof.Machine.execQueueNotice n s
  | .packetAdmit c q => Sys2Proof.Machine.execPacketAdmit c q s
  | .packetRun n => Sys2Proof.Machine.execPacketRun n s
  | .nopPacket n => Sys2Proof.Machine.execNopPacket n s
  | .copyPacket n => Sys2Proof.Machine.execCopyPacket n s
  | .fillPacket n => Sys2Proof.Machine.execFillPacket n s
  | .signalSet n => Sys2Proof.Machine.execSignalSet n s
  | .signalAdd n => Sys2Proof.Machine.execSignalAdd n s
  | .signalSub n => Sys2Proof.Machine.execSignalSub n s
  | .signalArm n => Sys2Proof.Machine.execSignalArm n s
  | .waitPacket n => Sys2Proof.Machine.execWaitPacket n s
  | .waitRetest n => Sys2Proof.Machine.execWaitRetest n s
  | .waitTimeout n => Sys2Proof.Machine.execWaitTimeout n s
  | .measurePacket n => Sys2Proof.Machine.execMeasurePacket n s
  | .receiptPacket n => Sys2Proof.Machine.execReceiptPacket n s
  | .mapPacket n => Sys2Proof.Machine.execMapPacket n s
  | .unmapPacket n => Sys2Proof.Machine.execUnmapPacket n s
  | .migratePacket n => Sys2Proof.Machine.execMigratePacket n s
  | .checkpointPacket n => Sys2Proof.Machine.execCheckpointPacket n s
  | .checkpointStreamDone n => Sys2Proof.Machine.execCheckpointStreamDone n s
  | .cdtloadPacket n => Sys2Proof.Machine.execCdtloadPacket n s
  | .packetComplete n => Sys2Proof.Machine.execPacketComplete n s
  | .pumpHouseTileFailure role kind c q => Sys2Proof.Machine.execPumpHouseTileFailure role kind c q s
  | .contextFault c => Sys2Proof.Machine.execContextFault c s
  | .functionLevelReset f => Sys2Proof.Machine.execFunctionLevelReset f s
  | .partitionGrant c base => Sys2Proof.Machine.execPartitionGrant c base s
  | .timeSliceExpiry c => Sys2Proof.Machine.execTimeSliceExpiry c s
  | .saveTaskBoundary p => Sys2Proof.Machine.execSaveTaskBoundary p s
  | .saveChannelDrained c => Sys2Proof.Machine.execSaveChannelDrained c s
  | .tileCaptureDone p => Sys2Proof.Machine.execTileCaptureDone p s
  | .tileEviction p => Sys2Proof.Machine.execTileEviction p s
  | .restoreComplete c => Sys2Proof.Machine.execRestoreComplete c s
  | .cidDropComplete c => Sys2Proof.Machine.execCidDropComplete c s
  | .leafHashDone j i1 => Sys2Proof.Machine.execLeafHashDone j i1 s
  | .measurementAppend j => Sys2Proof.Machine.execMeasurementAppend j s
  | .welimDataReceive port w => Sys2Proof.Machine.execWelimDataReceive port w s
  | .welimAckReceive port w => Sys2Proof.Machine.execWelimAckReceive port w s
  | .welimNakReceive port w => Sys2Proof.Machine.execWelimNakReceive port w s
  | .welimReplayTimeout port => Sys2Proof.Machine.execWelimReplayTimeout port s
  | .welimAckTimer port => Sys2Proof.Machine.execWelimAckTimer port s
  | .laneSample port l => Sys2Proof.Machine.execLaneSample port l s
  | .swapRepeat port => Sys2Proof.Machine.execSwapRepeat port s
  | .swapackReceive port w => Sys2Proof.Machine.execSwapackReceive port w s
  | .swapCutover port => Sys2Proof.Machine.execSwapCutover port s
  | .swapTimeout port => Sys2Proof.Machine.execSwapTimeout port s
  | .laneLoss port lane => Sys2Proof.Machine.execLaneLoss port lane s
  | .retrainTimeout port => Sys2Proof.Machine.execRetrainTimeout port s
  | .trainTimeout port => Sys2Proof.Machine.execTrainTimeout port s
  | .trainingSetReceive port t => Sys2Proof.Machine.execTrainingSetReceive port t s
  | .syncReceive port w => Sys2Proof.Machine.execSyncReceive port w s
  | .syncLoss => Sys2Proof.Machine.execSyncLoss s
  | .uePacketReceive u => Sys2Proof.Machine.execUePacketReceive u s
  | .ueDeferral p d => Sys2Proof.Machine.execUeDeferral p d s
  | .bar2Access h => Sys2Proof.Machine.execBar2Access h s
  | .apertureMapWrite f j w0 w1 => Sys2Proof.Machine.execApertureMapWrite f j w0 w1 s
  | .bootReset b => Sys2Proof.Machine.execBootReset b s
  | .mailboxDoneAck f => Sys2Proof.Machine.execMailboxDoneAck f s
  | .version m => Sys2Proof.Machine.execVersion m s
  | .ctxCreate m => Sys2Proof.Machine.execCtxCreate m s
  | .ctxGrant m => Sys2Proof.Machine.execCtxGrant m s
  | .ctxDestroy m => Sys2Proof.Machine.execCtxDestroy m s
  | .ctxSave m => Sys2Proof.Machine.execCtxSave m s
  | .ctxRestore m => Sys2Proof.Machine.execCtxRestore m s
  | .ctxSlice m => Sys2Proof.Machine.execCtxSlice m s
  | .qCreate m => Sys2Proof.Machine.execQCreate m s
  | .qReset m => Sys2Proof.Machine.execQReset m s
  | .qDestroy m => Sys2Proof.Machine.execQDestroy m s
  | .powerLimit m => Sys2Proof.Machine.execPowerLimit m s
  | .portCtlDown m => Sys2Proof.Machine.execPortCtlDown m s
  | .portCtlEnable m => Sys2Proof.Machine.execPortCtlEnable m s
  | .laneLog m => Sys2Proof.Machine.execLaneLog m s
  | .flashWrite m => Sys2Proof.Machine.execFlashWrite m s
  | .attach m => Sys2Proof.Machine.execAttach m s
  | .detach m => Sys2Proof.Machine.execDetach m s
  | .stop m => Sys2Proof.Machine.execStop m s
  | .resume m => Sys2Proof.Machine.execResume m s
  | .step m => Sys2Proof.Machine.execStep m s
  | .read m => Sys2Proof.Machine.execRead m s
  | .write m => Sys2Proof.Machine.execWrite m s
  | .trace m => Sys2Proof.Machine.execTrace m s
  | .clearacct m => Sys2Proof.Machine.execClearacct m s
  | .powerWindowControl watts => Sys2Proof.Machine.execPowerWindowControl watts s
  | .thermalThrottle die temp => Sys2Proof.Machine.execThermalThrottle die temp s
  | .thermalShutdown die temp => Sys2Proof.Machine.execThermalShutdown die temp s
  | .clusterGate p on => Sys2Proof.Machine.execClusterGate p on s
  | .watchpointHit p k off wr => Sys2Proof.Machine.execWatchpointHit p k off wr s
  | .watchTrap p => Sys2Proof.Machine.execWatchTrap p s
  | .stopTheClusterArrival p => Sys2Proof.Machine.execStopTheClusterArrival p s
  | .traceDrain p => Sys2Proof.Machine.execTraceDrain p s
  | .schedulerTrap c => Sys2Proof.Machine.execSchedulerTrap c s
  | .cmdNotOffered m => Sys2Proof.Machine.execCmdNotOffered m s
  | .ideKmRequest key => Sys2Proof.Machine.execIdeKmRequest key s

end Sys2Proof.Machine
end

