-- ==== Sys2Proof/Machine/Step.lean ====
section
/-!
DEFINITION. Sys2Proof/Machine/Step.lean: one step of the device.
-/

namespace Sys2Proof.Machine

/-- One step: the next move, with the meanings of exec. -/
noncomputable def step (s : State) : Host.Outcome State Fault Refusal := nextMove exec s

/-- The instruction of a word placed where step runs it next. -/
def State.withFetchWord (s : State) (nbits w : Nat) : State := placeInstr s nbits w

end Sys2Proof.Machine
end

