-- ==== Sys2Proof/Safety.lean ====
section
/-!
DEFINITION. Sys2Proof/Safety.lean: the words in which the statements speak of a step: that an instruction completes, what it
leaves unchanged (its frame), and the arithmetic of R73 to R83 written over the integers.
-/

namespace Sys2Proof.Machine

/-! ## Completion -/

/-- Instruction `i` answers a next state in `s`, and `P` holds of that state. -/
def Completes (i : Instr) (s : State) (P : State → Prop) : Prop := ∃ t, exec i s = .next t ∧ P t

/-- The guard of a syllable reads true (R44). -/
abbrev GuardOn (g : Nat) (n : Bool) (s : State) : Prop := guardOf g n s = true

/-- Lane `i` of v[n] of the issuing tile as it stands, also in the midst of a bundle, whose sources are the lanes before it (R7). -/
def vl (s : State) (n i : Nat) : W32 := FMap.get 0 s.t.regs.v (16 * n + i)

/-! ## Frames -/

/-- Nothing of the device has changed but the issuing tile: every other tile, the tree, the memory edge with device and host memory, the
contexts, the pump house, the ports, the service state, time and the agenda. -/
def SameRest (s t : State) : Prop := t = { s with tiles := t.tiles } ∧ ∀ p, p ≠ s.cur → t.tile p = s.tile p

/-- As SameRest, but watchpoint hits may follow (R431). -/
def SameRestW (s t : State) : Prop :=
  t = { s with tiles := t.tiles, agenda := t.agenda } ∧ ∀ p, p ≠ s.cur → t.tile p = s.tile p

/-- Every byte of every tile's SRAM, of device memory and of host memory reads as before. -/
def SameMem (s t : State) : Prop :=
  (∀ p a, Mem.byte (t.tile p).sram a = Mem.byte (s.tile p).sram a) ∧
  (∀ a, Mem.byte t.fab.hbm a = Mem.byte s.fab.hbm a) ∧ ∀ a, Mem.byte t.fab.host a = Mem.byte s.fab.host a

/-- Only g[d] of the issuing tile has changed: no other g, no p, q, v or accumulator register, no system register, flag or Full bit, no
byte of memory. -/
structure OnlyG (d : Nat) (s t : State) : Prop where
  rest : SameRest s t
  tile : t.t = { s.t with regs := { s.t.regs with g := t.t.regs.g } }
  regs : ∀ n, n ≠ d → rg t n = rg s n
  mem : SameMem s t

/-- Only p[d] of the issuing tile has changed. -/
structure OnlyP (d : Nat) (s t : State) : Prop where
  rest : SameRest s t
  tile : t.t = { s.t with regs := { s.t.regs with p := t.t.regs.p } }
  regs : ∀ n, n < 8 → n ≠ d → rp t n = rp s n
  mem : SameMem s t

/-- Only q[d] of the issuing tile has changed. -/
structure OnlyQ (d : Nat) (s t : State) : Prop where
  rest : SameRest s t
  tile : t.t = { s.t with regs := { s.t.regs with q := t.t.regs.q } }
  regs : ∀ n, n < 8 → n ≠ d → rq t n = rq s n
  mem : SameMem s t

/-- Only v[d] of the issuing tile has changed. -/
structure OnlyV (d : Nat) (s t : State) : Prop where
  rest : SameRest s t
  tile : t.t = { s.t with regs := { s.t.regs with v := t.t.regs.v } }
  regs : ∀ n i, i < 16 → n ≠ d → vl t n i = vl s n i
  mem : SameMem s t

/-- Only v[d] and the flags of VFLAGS have changed; the bundle keeps the flags it has raised (R146). -/
structure OnlyVF (d : Nat) (s t : State) : Prop where
  rest : SameRest s t
  tile : t.t = { s.t with regs := { s.t.regs with v := t.t.regs.v }, sys := { s.t.sys with vflags := t.t.sys.vflags },
                          bun := { s.t.bun with raised := t.t.bun.raised } }
  regs : ∀ n i, i < 16 → n ≠ d → vl t n i = vl s n i
  mem : SameMem s t

/-- Only g[d], the task unit and the bundle's record of the issuing tile have changed. -/
structure OnlyGTask (d : Nat) (s t : State) : Prop where
  rest : SameRest s t
  tile : t.t = { s.t with regs := { s.t.regs with g := t.t.regs.g }, task := t.t.task }
  regs : ∀ n, n ≠ d → rg t n = rg s n
  mem : SameMem s t

/-- Of the issuing tile only the system registers and the bundle's record have changed. -/
structure OnlySys (s t : State) : Prop where
  rest : SameRest s t
  tile : t.t = { s.t with sys := t.t.sys, bun := t.t.bun }
  mem : SameMem s t

/-- Only g[d] has changed, beside the bundle's own record (its noted bytes, R41) and watchpoint hits that follow (R431). -/
structure OnlyGB (d : Nat) (s t : State) : Prop where
  rest : SameRestW s t
  tile : t.t = { s.t with regs := { s.t.regs with g := t.t.regs.g }, bun := t.t.bun }
  regs : ∀ n, n ≠ d → rg t n = rg s n
  mem : SameMem s t

/-- Only v[d] has changed, beside the bundle's own record and watchpoint hits that follow. -/
structure OnlyVB (d : Nat) (s t : State) : Prop where
  rest : SameRestW s t
  tile : t.t = { s.t with regs := { s.t.regs with v := t.t.regs.v }, bun := t.t.bun }
  regs : ∀ n i, i < 16 → n ≠ d → vl t n i = vl s n i
  mem : SameMem s t

/-- Nothing has changed but the bundle's branch target and, with `link`, g1 (R84). -/
structure OnlyNext (link : Bool) (s t : State) : Prop where
  rest : SameRest s t
  tile : t.t = { s.t with regs := { s.t.regs with g := t.t.regs.g },
                          bun := { s.t.bun with next := t.t.bun.next, taken := t.t.bun.taken } }
  regs : ∀ n, (n ≠ 1 ∨ link = false) → rg t n = rg s n
  mem : SameMem s t

/-! ## Stores -/

/-- Pieces of one write: the tile, the offset and the bytes of each. -/
abbrev Pieces := List (Nat × Nat × List Byte)

/-- SRAM of tile `p` after the pieces that lie in it, in their order. -/
def putPieces (ps : Pieces) (p : Nat) (m : Mem) : Mem :=
  (ps.filter fun e => e.1 == p).foldl (fun m e => Mem.setBytes m e.2.1 e.2.2) m

/-- The pieces that lie in tile `p`. -/
def piecesOf (ps : Pieces) (p : Nat) : List (Nat × List Byte) := (ps.filter fun e => e.1 == p).map fun e => (e.2.1, e.2.2)

/-- Exactly the bytes of some pieces have been stored (R123): every other byte of every tile, of device and of host memory reads as
before; with `fe` the sectors touched are Full; a sector that the pieces cover is no longer poisoned. Of registers only VFLAGS may
have changed, and of the issuing tile the bundle's own record. -/
structure WritesMem (fe : Bool) (ps : Pieces) (s t : State) : Prop where
  rest : t = { s with tiles := t.tiles, agenda := t.agenda }
  tile : ∀ p, t.tile p = { s.tile p with
    sram := (t.tile p).sram, full := (t.tile p).full, poison := (t.tile p).poison, bun := (t.tile p).bun,
    sys := { (s.tile p).sys with vflags := (t.tile p).sys.vflags } }
  others : ∀ p, p ≠ s.cur → (t.tile p).bun = (s.tile p).bun ∧ (t.tile p).sys = (s.tile p).sys
  bytes : ∀ p, (t.tile p).sram = putPieces ps p (s.tile p).sram
  kept : ∀ p a, (∀ e ∈ ps, e.1 = p → a < e.2.1 ∨ e.2.1 + e.2.2.length ≤ a) →
    Mem.byte (t.tile p).sram a = Mem.byte (s.tile p).sram a
  full : ∀ p k, NSet.mem (t.tile p).full k =
    (NSet.mem (s.tile p).full k || (fe && decide (k ∈ pieceSectors (piecesOf ps p))))
  poison : ∀ p k, NSet.mem (t.tile p).poison k =
    (NSet.mem (s.tile p).poison k && !(decide (k ∈ pieceSectors (piecesOf ps p)) && covers (piecesOf ps p) k))

/-! ## Instructions by the register they write -/

/-- `i` completes with `v` in g[d] and changes nothing else; g0 stays zero (R20). -/
def SetsG (i : Instr) (s : State) (d : Nat) (v : W64) : Prop :=
  Completes i s fun t => rg t d = (if d = 0 then 0 else v) ∧ OnlyG d s t

/-- `i` completes with `v` in p[d] and changes nothing else; p0 stays true (R20). -/
def SetsP (i : Instr) (s : State) (d : Nat) (v : Bool) : Prop :=
  Completes i s fun t => rp t d = (d == 0 || v) ∧ OnlyP d s t

/-- `i` completes with `v` in q[d] and changes nothing else; q0 stays all ones (R20). -/
def SetsQ (i : Instr) (s : State) (d : Nat) (v : BitVec 16) : Prop :=
  Completes i s fun t => rq t d = (if d = 0 then 0xFFFF else v) ∧ OnlyQ d s t

/-- `i` completes with `f` of a lane in every lane of v[d] that q selects, the other lanes kept (R45), and changes nothing else. -/
def SetsV (i : Instr) (s : State) (q d : Nat) (f : Nat → W32) : Prop :=
  Completes i s fun t => (∀ l, l < 16 → vl t d l = if lane s q l then f l else vl s d l) ∧ OnlyV d s t

/-- `i` completes with `v` loaded into g[d]. -/
def Loads (i : Instr) (s : State) (d : Nat) (v : W64) : Prop :=
  Completes i s fun t => rg t d = (if d = 0 then 0 else v) ∧ OnlyGB d s t

/-- `i` completes as a taken branch to `dest` (R84). -/
def Branches (i : Instr) (s : State) (dest : Nat) (link : Bool) : Prop :=
  Completes i s fun t => t.t.bun.next = some dest ∧ t.t.bun.taken = true ∧
    (link = true → rg t 1 = BitVec.ofNat 64 (bundleNext s)) ∧ OnlyNext link s t

/-- The IEEE flags that the selected lanes raise reach VFLAGS, or, in a yoked block, wait for its commit (R111, R141, R320). -/
def FlagsRaised (s t : State) (fl : BitVec 5) : Prop :=
  t.t.sys.vflags = if s.t.bun.blk.isSome then s.t.sys.vflags else s.t.sys.vflags ||| fl

/-- The OR of the flags of the lanes that q selects (R141). -/
def laneFlags (s : State) (q : Nat) (f : Nat → BitVec 5) : BitVec 5 :=
  (List.range 16).foldl (fun r l => if lane s q l then r ||| f l else r) 0

/-- `i` completes with lane `l` of v[D] holding the number that `f` gives, in every lane that Q selects; the other lanes and all else keep
their values, and the flags of the selected lanes are ORed into VFLAGS (R141). -/
def VLanes (i : Instr) (s : State) (x : V) (f : Nat → Nat × BitVec 5) : Prop :=
  Completes i s fun t =>
    (∀ l, l < 16 → vl t x.d l = if lane s x.q l then BitVec.ofNat 32 (f l).1 else vl s x.d l) ∧
    FlagsRaised s t (laneFlags s x.q fun l => (f l).2) ∧ OnlyVF x.d s t

/-- As VLanes, element by element (R141): element `k` of each selected lane is `op` of the elements of v[A], v[B] and v[D]. -/
def VElems (i : Instr) (s : State) (x : V) (op : Nat → Nat → Nat → Nat × BitVec 5) : Prop :=
  let w := elemW x.t
  let el (n l k : Nat) : Nat := elemOf w (rv s n l).toNat k
  let r (l k : Nat) : Nat × BitVec 5 := op (el x.a l k) (el x.b l k) (el x.d l k)
  Completes i s fun t =>
    (∀ l, l < 16 → if lane s x.q l then ∀ k, k < 32 / w → elemOf w (vl t x.d l).toNat k = (r l k).1 % 2 ^ w
      else vl t x.d l = vl s x.d l) ∧
    FlagsRaised s t (laneFlags s x.q fun l => (List.range (32 / w)).foldl (fun f k => f ||| (r l k).2) 0) ∧ OnlyVF x.d s t

/-- No check of a list fails. -/
abbrev Pass (l : List (Bool × TrapInfo)) : Prop := l.all (fun e => !e.1) = true

/-- The checks of a scalar load at `a` pass (R126, R127, R114, R124). -/
abbrev LoadOk (s : State) (a : Int) (size : Nat) (word : Bool) : Prop :=
  Pass (scalarChecks s a size word false false ++ [scalarPoison s a size word true])

/-- The checks of a scalar store at `a` pass (R126, R127, R114, R115, R124). -/
abbrev StoreOk (s : State) (a : Int) (size : Nat) (word : Bool) : Prop :=
  Pass (scalarChecks s a size word true false ++ [scalarPoison s a size word false])

/-! ## Traps -/

/-- Tile `p` has taken a trap (R226, R227): FAULTC and FAULTA hold the cause and the addresses, the held sends are gone, the record is held,
the context's pager has the fault record, the tile is at its task boundary, and its registers and memory are as they were. -/
structure TrapTaken (p : Nat) (ti : TrapInfo) (skid baddr : Nat) (blk asy : Bool) (s t : State) : Prop where
  faultc : (t.tile p).sys.faultc = BitVec.ofNat 64
    (ti.sub * 2 ^ 32 + skid * 2 ^ 16 + (s.tile p).task.run.slot * 2 ^ 10 + b2n blk * 2 ^ 9 + b2n (asy || ti.cause == cYoke || ti.cause == cEccLocal) * 2 ^ 8 + ti.cause)
  faulta : (t.tile p).sys.faulta = BitVec.ofNat 64 (ti.daddr % 2 ^ 32 * 2 ^ 32 + baddr % 2 ^ 15)
  sys : (t.tile p).sys = { (s.tile p).sys with faultc := (t.tile p).sys.faultc, faulta := (t.tile p).sys.faulta }
  held : (FMap.get {} (t.tile p).task.recs (s.tile p).task.run.idx).hold = true
  idle : (FMap.get {} (t.tile p).task.recs (s.tile p).task.run.idx).run = false
  sends : (t.tile p).net.heldq = []
  life : (t.tile p).life = if (s.tile p).dbg.stepping then .stopped else boundaryLife (s.tile p)
  regs : (t.tile p).regs = (s.tile p).regs
  mem : (t.tile p).sram = (s.tile p).sram ∧ (t.tile p).full = (s.tile p).full ∧ (t.tile p).poison = (s.tile p).poison
  pager : (t.ctx (s.tile p).sys.cid).inbox = (s.ctx (s.tile p).sys.cid).inbox ++ [(s.placeOf p,
    [(t.tile p).sys.faultc.toNat, (t.tile p).sys.faulta.toNat, (s.tile p).sys.actw.toNat,
     s.placeOf p + (b2n (s.tile p).task.run.exposed + 2 * b2n (s.tile p).task.run.nr) * 2 ^ 32,
     s.gtime, (s.tile p).sys.imgid.toNat, (s.tile p).task.run.idx, 0])]
  others : ∀ q, q ≠ p → t.tile q = s.tile q
  device : t.fab.hbm = s.fab.hbm ∧ t.fab.host = s.fab.host ∧ t.fab.net = s.fab.net ∧ t.now = s.now ∧ t.clk = s.clk

/-- A bundle of one syllable outside yoked execution: its traps are taken at once. -/
abbrev Alone (s : State) : Prop := s.t.bun.coll = false ∧ s.t.bun.blk = none ∧ s.t.yk.st = .single

/-- `i` completes by taking the trap `ti` of its syllable. -/
def Traps (i : Instr) (s : State) (ti : TrapInfo) : Prop :=
  Completes i s fun t => TrapTaken s.cur { ti with sub := ti.sub + s.t.bun.pos } 0 s.t.bun.addr false false s t

/-! ## Messages -/

/-- Only g[d] and the messaging state of the issuing tile have changed. -/
structure OnlyGNet (d : Nat) (s t : State) : Prop where
  rest : SameRest s t
  tile : t.t = { s.t with regs := { s.t.regs with g := t.t.regs.g }, net := t.t.net }
  regs : ∀ n, n ≠ d → rg t n = rg s n

/-- One decrement by an event whose counter field has CE = 1, with the message it speaks of (R183, R217). -/
def counted (cntf : Nat) (info : Option MsgInfo) (k : Task) : Task :=
  if bit cntf 7 then (decTask (cntf % 64) { k with ctrs := FMap.put k.ctrs (cntf % 64) { FMap.get {} k.ctrs (cntf % 64) with info := info } }).1
  else k

/-- `i` posts a receive (R187 rule 2, R203): -1 without a free entry; else the handle of the first free entry in g[d], the entry taking the
receive. Without a compatible waiting message it stands Posted and nothing else changes; a waiting eager message is taken from its cells, and one of
no bytes completes the receive at once (R195); a waiting rendezvous is granted with a CTS, and with no byte to accept ended with a DACK. -/
def Posts (i : Instr) (s : State) (d bw ew mask : Nat) (fe : Bool) : Prop :=
  (freeRecvs s.t = [] → SetsG i s d (BitVec.allOnes 64)) ∧
  ∀ k l, freeRecvs s.t = k :: l →
    let gen := ((FMap.get ({} : Recv) s.t.net.recvs k).gen + 1) % 256
    let r : Recv := { bw := bw, ew := ew, mask := mask, fe := fe, state := 0, gen := gen, seq := s.t.net.rseq }
    let h : W64 := if d = 0 then 0 else BitVec.ofNat 64 (k + gen * 256)
    (matchUnexp s.t ew mask = none → Completes i s fun t => OnlyGNet d s t ∧ rg t d = h ∧ FMap.get {} t.t.net.recvs k = r ∧
      t.t.net = { s.t.net with recvs := t.t.net.recvs, rseq := s.t.net.rseq + 1, rorder := s.t.net.rorder.filter (· != k) } ∧
      ∀ k', k' ≠ k → FMap.get {} t.t.net.recvs k' = FMap.get ({} : Recv) s.t.net.recvs k') ∧
    (∀ j u, matchUnexp s.t ew mask = some (j, u) → u.state = 1 → u.length = 0 → Completes i s fun t => rg t d = h ∧
      FMap.get {} t.t.net.recvs k = { r with ew := u.ew, src := u.src, transit := u.transit, sdesc := u.sdesc, ctl := u.ctl, state := 4 } ∧
      t.t.net.unexp = FMap.drop s.t.net.unexp j ∧ t.t.sram = s.t.sram ∧
      t.t.task = counted (bwCntf bw) (some { src := u.src, transit := u.transit, tag := ewTag u.ew, grp := ewGrp u.ew, done := s.gtime }) s.t.task) ∧
    (∀ j u, matchUnexp s.t ew mask = some (j, u) → u.state = 1 → u.length ≠ 0 → Completes i s fun t => OnlyGNet d s t ∧ rg t d = h ∧
      FMap.get {} t.t.net.recvs k = { r with ew := u.ew, length := u.length, src := u.src, transit := u.transit, sdesc := u.sdesc, ctl := u.ctl, state := 1 } ∧
      FMap.get {} t.t.net.unexp j = { u with state := 3, taker := k } ∧ t.t.net.cells = s.t.net.cells) ∧
    (∀ j u, matchUnexp s.t ew mask = some (j, u) → u.state = 2 → Nat.min u.length (bwLen bw) ≠ 0 → Completes i s fun t => rg t d = h ∧
      FMap.get {} t.t.net.recvs k = { r with ew := u.ew, length := u.length, src := u.src, transit := u.transit, sdesc := u.sdesc, ctl := u.ctl, state := 2 } ∧
      t.t.net.unexp = FMap.drop s.t.net.unexp j ∧ t.t.sram = s.t.sram ∧ t.t.task = s.t.task ∧
      ∃ c, t.fab.net = s.fab.net ++ [c] ∧ c.kind = .cts ∧ c.dst = u.src ∧ c.sdesc = u.sdesc ∧ c.acc = Nat.min u.length (bwLen bw) ∧
        c.handle = k + gen * 256) ∧
    (∀ j u, matchUnexp s.t ew mask = some (j, u) → u.state = 2 → Nat.min u.length (bwLen bw) = 0 → Completes i s fun t => rg t d = h ∧
      (FMap.get {} t.t.net.recvs k).state = (if 0 < u.length then 5 else 4) ∧ t.t.net.unexp = FMap.drop s.t.net.unexp j ∧ t.t.sram = s.t.sram ∧
      ∃ c c', t.fab.net = s.fab.net ++ [c, c'] ∧ c.kind = .cts ∧ c.acc = 0 ∧ c.dst = u.src ∧ c.sdesc = u.sdesc ∧ c'.kind = .dack ∧ c'.acc = 0 ∧
        c'.dst = u.src ∧ c'.sdesc = u.sdesc)

/-- `i` makes the send `y` (R202): p[d] false without a free descriptor; else true, the descriptor made and held with the task's sends, or
released, at this GTIME, where the task is Exposed (with `now` it becomes so first) and no open fence holds it (R285, R290). A release settles the
releases and the resolutions that are due with it (R244). -/
def MakesSend (i : Instr) (s : State) (d : Nat) (y : Send) (now : Bool) : Prop :=
  (freeSend s.t = none → SetsP i s d false) ∧
  ∀ k, freeSend s.t = some k →
    let e := now || s.t.task.run.exposed
    let out := e && !fenceHolds s.t s.t.mreq.seq && !bfenceHolds s.t s.t.mreq.seq
    Completes i s fun t => t = { s with tiles := t.tiles, fab := { s.fab with rankCache := t.fab.rankCache } } ∧ (e = false → t.fab = s.fab) ∧
      (∀ q, q ≠ s.cur → t.tile q = s.tile q) ∧ rp t d = true ∧ (∀ n, n < 8 → n ≠ d → rp t n = rp s n) ∧
      t.t = { s.t with regs := { s.t.regs with p := t.t.regs.p }, net := t.t.net, comm := t.t.comm,
                       task := { s.t.task with run := { s.t.task.run with exposed := e } } } ∧
      ((e = true → ∀ h ∈ s.t.net.outq, ∃ n, h = .send n) → t.t.comm = s.t.comm) ∧
      (let z := FMap.get ({} : Send) t.t.net.sends k
       z = { y with seq := s.t.net.sseq, state := if out then 2 else 1, iss := s.t.mreq.seq, rtime := if out then s.gtime else y.rtime,
                    res := z.res, dest := z.dest } ∧ (out = false → z.res = y.res ∧ z.dest = y.dest)) ∧
      (∀ k', k' ≠ k → (e = true → Held.send k' ∉ s.t.net.outq) → FMap.get {} t.t.net.sends k' = FMap.get ({} : Send) s.t.net.sends k') ∧
      t.t.net = { s.t.net with sends := t.t.net.sends, sseq := s.t.net.sseq + 1,
                               heldq := if e then s.t.net.heldq else s.t.net.heldq ++ [.send k],
                               outq := if e then s.t.net.outq ++ [.send k] else s.t.net.outq }

/-- The message at position `n` has arrived at tile `p` (R208): it has left the network, its channel sequence is taken, and nothing else of
the tile has changed but what `f` names of its messaging state, its task unit and its memory. -/
structure Arrived (n p : Nat) (s t : State) : Prop where
  tile : t.tile p = { s.tile p with net := (t.tile p).net, task := (t.tile p).task, wait := (t.tile p).wait,
                                    sram := (t.tile p).sram, full := (t.tile p).full, poison := (t.tile p).poison }
  others : ∀ q, q ≠ p → t.tile q = s.tile q
  rest : t = { s with tiles := t.tiles, fab := { s.fab with net := t.fab.net }, agenda := t.agenda, choices := t.choices }
  left : ∃ l, t.fab.net = dropAt s.fab.net n ++ l

/-- Memory of tile `p` as it was. -/
abbrev KeepsMem (p : Nat) (s t : State) : Prop :=
  (t.tile p).sram = (s.tile p).sram ∧ (t.tile p).full = (s.tile p).full ∧ (t.tile p).poison = (s.tile p).poison

/-! ## Requests -/

/-- A request stands in slot `k` (R277): its record, and one packet for each span, at the stations' door behind every earlier packet. -/
structure Issued (k : Nat) (base : Pkt) (cntf : Nat) (spans : List Span) (s t : State) : Prop where
  req : FMap.get {} t.t.mreq.reqs k = { kind := base.kind, seq := s.t.mreq.seq, ord := base.ord, cntf := cntf, spans := spans, left := spans.length,
                                          asn := s.t.task.asn, actw := s.t.sys.actw, desc := base.desc : Req }
  others : ∀ k', k' ≠ k → FMap.get {} t.t.mreq.reqs k' = FMap.get ({} : Req) s.t.mreq.reqs k'
  mreq : t.t.mreq = { s.t.mreq with reqs := t.t.mreq.reqs, seq := s.t.mreq.seq + 1 }
  pkts : t.fab = { s.fab with pkts := s.fab.pkts ++ ((List.range spans.length).zip spans).map fun e =>
    { base with place := s.placeOf s.cur, slot := k, seq := s.t.mreq.seq, idx := e.1, cid := s.t.sys.cid,
                va := e.2.va, off := e.2.off, len := e.2.len, pieces := e.2.pieces } }
  tiles : ∀ p, p ≠ s.cur → t.tile p = s.tile p

/-- `i` issues a request without waiting for it (R277): p[d] false without a free slot, else true and the request issued in the lowest. -/
def Accepts (i : Instr) (s : State) (d : Nat) (base : Pkt) (cntf : Nat) (spans : List Span) : Prop :=
  (freeReq s.t = none → SetsP i s d false) ∧
  ∀ k, freeReq s.t = some k → Completes i s fun t => Issued k base cntf spans s t ∧ rp t d = true ∧ (∀ n, n < 8 → n ≠ d → rp t n = rp s n) ∧
    t.t = { s.t with regs := { s.t.regs with p := t.t.regs.p }, mreq := t.t.mreq }

/-- `i` issues a request and waits for its answer, which it then puts into g[d] (R284, R291); `w` is its wait for a slot's answer, 64 for a
free slot. -/
def Fetches (i : Instr) (s : State) (d : Nat) (w : Nat → Wait) (base : Pkt) (span : Span) : Prop :=
  (∀ v, wokenVal s = some v → SetsG i s d (BitVec.ofNat 64 v)) ∧
  (wokenVal s = none → freeReq s.t = none → exec i s = .next (stall (w 64) s)) ∧
  ∀ k, wokenVal s = none → freeReq s.t = some k → Completes i s fun t => Issued k base 0 [span] s t ∧
    t.t = { s.t with mreq := t.t.mreq, wait := s.t.wait ++ [(s.t.bun.pos, w k)] }

/-- The last answer of the request in slot `k` of tile `p` has arrived and the request is over (R280): the packet is gone, the slot free. -/
structure RequestOver (n p k : Nat) (s t : State) : Prop where
  pkts : t.fab = { s.fab with pkts := dropAt s.fab.pkts n }
  reqs : (t.tile p).mreq.reqs = FMap.drop (s.tile p).mreq.reqs k
  regs : (t.tile p).regs = (s.tile p).regs
  others : ∀ q, q ≠ p → t.tile q = s.tile q

/-! ## Packets of the pump house -/

/-- The packets of `h` with packet `p`'s work ended, with a status and a reason (R363, R365). -/
def endedPkts (p : HPkt) (status reason : Nat) (h : Pump) : List HPkt :=
  h.pkts.map fun o => if o.id = p.id then { o with st := .done, status := status, reason := reason, effects := o.effects || status == 0 } else o

/-- `i` ends packet `p` with a status, and nothing else changes. -/
def Ends (i : Instr) (s : State) (p : HPkt) (status reason : Nat) : Prop :=
  Completes i s fun t => t = { s with pump := { s.pump with pkts := endedPkts p status reason s.pump } }

/-- `i` ends packet `p` well, with the effects that led from `s` to `s'`. -/
def EndsAs (i : Instr) (s s' : State) (p : HPkt) : Prop :=
  Completes i s fun t => t = { s' with pump := { s'.pump with pkts := endedPkts p 0 0 s'.pump } }

/-! ## Links -/

/-- Only port `q` of the Welim ports has changed, and nothing else of the device. -/
def OnlyPort (q : Nat) (s t : State) : Prop := t = { s with ports := t.ports } ∧ ∀ r, r ≠ q → welim t r = welim s r

/-! ## Mailbox requests -/

/-- A request has been answered (R421), its effect having led to `s`: BELL is DONE with the status, the token and the results, and no request
stands; the other mailboxes and all else are as in `s`, but for the interrupt that says so (R413). What the request words then read,
`Obligations.MailboxRules` says. -/
structure Answered (m : Mbx) (status : Nat) (results : List Nat) (s t : State) : Prop where
  box : mailboxOf t m.func =
    { mailboxOf s m.func with bell := 2, status := status, tok := m.tok, results := results, req := none, words := (mailboxOf t m.func).words }
  others : ∀ f, f ≠ m.func → mailboxOf t f = mailboxOf s f
  rest : t = { s with svc := { s.svc with mailboxes := t.svc.mailboxes, msixPending := t.svc.msixPending, msixSent := t.svc.msixSent } }

/-- A request stands in its mailbox with BELL at BUSY, unanswered. -/
structure Waiting (m : Mbx) (s t : State) : Prop where
  box : mailboxOf t m.func = { mailboxOf s m.func with bell := 1, req := some m, words := (mailboxOf t m.func).words }
  others : ∀ f, f ≠ m.func → mailboxOf t f = mailboxOf s f

/-- A request that is served for the first time: the device is Ready, the mailbox not BUSY, its length and zero fields right. -/
abbrev Fresh (m : Mbx) (s : State) : Prop := s.svc.boot = .ready ∧ m.func < 64 ∧ (mailboxOf s m.func).bell ≠ 1 ∧ wordsGood m = true

/-- A request that waits in its mailbox and is served again. -/
abbrev Again (m : Mbx) (s : State) : Prop :=
  s.svc.boot = .ready ∧ m.func < 64 ∧ (mailboxOf s m.func).bell = 1 ∧ (mailboxOf s m.func).req = some m

/-- `i` is answered with a status and nothing else happens. -/
def Refused (i : Instr) (m : Mbx) (s : State) (status : Nat) : Prop := Completes i s (Answered m status [] s)

/-! ## Steps of the engines -/

/-- Where some wait of tile `p` passes a test, `i` completes by ending the waits that pass it; with none left the thread goes on at once
(R43), and nothing else changes. -/
def Wakes (i : Instr) (s : State) (p : Nat) (f : Wait → Bool) : Prop :=
  ((s.tile p).wait.any fun e => f e.2) = true →
    Completes i s fun u =>
      u.tile p = { s.tile p with wait := (s.tile p).wait.filter fun e => !f e.2 } ∧ (∀ q, q ≠ p → u.tile q = s.tile q) ∧
      u = { s with tiles := u.tiles, agenda := (if (s.tile p).wait.all fun e => f e.2 then [.thread p] else []) ++ s.agenda }

/-- The head of tile `p`'s matrix queue is `m`, an operation of `ops`, and the unit runs. -/
def HeadIs (s : State) (p : Nat) (ops : List Nat) (m : MCmd) : Prop :=
  (s.tile p).mx.queue.head? = some m ∧ m.op ∈ ops ∧ (engLive (s.tile p) = true ∨ (s.tile p).mx.started = true)

/-- The head command of tile `p` has left the queue, completed (R167); the other accumulators, the other registers and every other tile are
as before. -/
structure Completed (p c : Nat) (s u : State) : Prop where
  queue : (u.tile p).mx.queue = (s.tile p).mx.queue.drop 1
  count : (u.tile p).mx.done = (s.tile p).mx.done + 1
  accs : ∀ k, (k < 1024 * c ∨ 1024 * c + 1024 ≤ k) → FMap.get 0 (u.tile p).regs.acc k = FMap.get 0 (s.tile p).regs.acc k
  status : ∀ k, k ≠ c → FMap.get 0 (u.tile p).regs.accst k = FMap.get 0 (s.tile p).regs.accst k
  regs : (u.tile p).regs = { (s.tile p).regs with acc := (u.tile p).regs.acc, accst := (u.tile p).regs.accst }
  sys : (u.tile p).sys = (s.tile p).sys
  others : ∀ q, q ≠ p → u.tile q = s.tile q

/-! ## Memory's form -/

/-- Every memory of the device has its canonical form: the tiles' SRAM, what saved contexts hold of it, device memory, the host's, the memory
behind the UE ports and the module flash. -/
def MemOk (s : State) : Prop :=
  (∀ p, Memory.wf (s.tile p).sram = true) ∧ (∀ c a, Memory.wf (FMap.get ({} : Tile) (s.ctx c).saved a).sram = true) ∧
  Memory.wf s.fab.hbm = true ∧ Memory.wf s.fab.host = true ∧ Memory.wf s.fab.ue = true ∧ Memory.wf s.svc.flash = true

/-! ## Arithmetic at the width W selects (R73) -/

/-- The width in bits. -/
def wid (m : Nat) : Nat := if m = 1 then 32 else 64

/-- A g operand at the width, unsigned. -/
def opU (m : Nat) (a : W64) : Nat := a.toNat % 2 ^ wid m

/-- A g operand at the width, signed. -/
def opS (m : Nat) (a : W64) : Int := sext a.toNat (wid m)

/-- A result kept modulo 2^width and sign-extended to 64 bits. -/
def resW (m : Nat) (x : Int) : W64 := BitVec.ofInt 64 (sext (wrapN (wid m) x) (wid m))

end Sys2Proof.Machine
end

