-- ==== Sys2Proof/Certificates/Slice0/Obligations.lean ====
section
/-!
DEFINITION. Sys2Proof/Certificates/Slice0/Obligations.lean: the statements for the provers, each from the rules its docstring names.
-/

open Sys2Proof Sys2Proof.Machine


/-! ## Scalar instructions -/

/-- R74, R73: the two-operand forms. Each result is the one the table of R74 gives, at the width W selects, sign-extended; shift amounts
are taken modulo the width. Nothing but g[D] changes. The W forms of AND to ORN are no instructions (R49).
R75, R76: the compare forms and the predicate forms. A compare writes only its predicate register; MOVP writes g[D]. -/
def Obligations.AluAndCompareResults : Prop :=
  (∀ (s : State) (x : R), GuardOn x.g x.n s → maskedG s x.d = false →
     let k := wid x.m
     let a := opU x.m (rg s x.a)
     let b := opU x.m (rg s x.b)
     let sa := opS x.m (rg s x.a)
     let sb := opS x.m (rg s x.b)
     SetsG (.add x) s x.d (resW x.m (a + b)) ∧
     SetsG (.sub x) s x.d (resW x.m (sa - sb)) ∧
     (x.m = 0 → SetsG (.and x) s x.d (resW 0 (Nat.land a b)) ∧ SetsG (.or x) s x.d (resW 0 (Nat.lor a b)) ∧
       SetsG (.xor x) s x.d (resW 0 (Nat.xor a b)) ∧
       SetsG (.andn x) s x.d (resW 0 (Nat.land a (2 ^ 64 - 1 - b : Nat))) ∧
       SetsG (.orn x) s x.d (resW 0 (Nat.lor a (2 ^ 64 - 1 - b : Nat)))) ∧
     SetsG (.sll x) s x.d (resW x.m (a * 2 ^ (b % k) : Nat)) ∧
     SetsG (.srl x) s x.d (resW x.m (a / 2 ^ (b % k) : Nat)) ∧
     SetsG (.sra x) s x.d (resW x.m (sa / 2 ^ (b % k))) ∧
     SetsG (.ror x) s x.d (resW x.m (a / 2 ^ (b % k) + a * 2 ^ (k - b % k) : Nat)) ∧
     SetsG (.min x) s x.d (resW x.m (if sa < sb then sa else sb)) ∧
     SetsG (.max x) s x.d (resW x.m (if sa < sb then sb else sa)) ∧
     SetsG (.minn x) s x.d (resW x.m (if a < b then a else b)) ∧
     SetsG (.maxn x) s x.d (resW x.m (if a < b then b else a))) ∧
  (∀ (s : State) (x : R), GuardOn x.g x.n s →
     let a := opU x.m (rg s x.a)
     let b := opU x.m (rg s x.b)
     let sa := opS x.m (rg s x.a)
     let sb := opS x.m (rg s x.b)
     (x.d < 8 →
       SetsP (.ceq x) s x.d (decide (a = b)) ∧ SetsP (.cne x) s x.d (decide (a ≠ b)) ∧
       SetsP (.clt x) s x.d (decide (sa < sb)) ∧ SetsP (.cle x) s x.d (decide (sa ≤ sb)) ∧
       SetsP (.cltn x) s x.d (decide (a < b)) ∧ SetsP (.clen x) s x.d (decide (a ≤ b)) ∧
       SetsP (.pand x) s x.d (rp s x.a && rp s x.b) ∧ SetsP (.por x) s x.d (rp s x.a || rp s x.b) ∧
       SetsP (.pxor x) s x.d (Bool.xor (rp s x.a) (rp s x.b)) ∧ SetsP (.pandn x) s x.d (rp s x.a && !rp s x.b) ∧
       SetsP (.pmovg x) s x.d (decide ((rg s x.a).toNat ≠ 0))) ∧
     (maskedG s x.d = false → SetsG (.movp x) s x.d (if rp s x.a then 1 else 0)))

/-- R77: EXT, EXTS and INS, bit by bit, for the field of `l` bits at `pos` that g[B] describes, clipped at bit 63.
R81, R82: products and quotients at the width W selects, with the fixed results of the edge cases.
R83: the bit-counting forms, by the bits of the operand. -/
def Obligations.FieldMultiplyCountResults : Prop :=
  (∀ (s : State) (x : R), GuardOn x.g x.n s → maskedG s x.d = false →
     let d := (rg s x.b).toNat
     let pos := d % 64
     let len := d / 256 % 128
     let l := if pos + len > 64 then 64 - pos else len
     let a := rg s x.a
     (∃ v : W64, SetsG (.ext x) s x.d v ∧ ∀ i, i < 64 → v.getLsbD i = (decide (i < l) && a.getLsbD (pos + i))) ∧
     (∃ v : W64, SetsG (.exts x) s x.d v ∧
       ∀ i, i < 64 → v.getLsbD i = (decide (0 < l) && a.getLsbD (pos + if i < l then i else l - 1))) ∧
     (∃ v : W64, SetsG (.ins x) s x.d v ∧
       ∀ i, i < 64 → v.getLsbD i = if pos ≤ i ∧ i < pos + l then a.getLsbD (i - pos) else (rg s x.d).getLsbD i)) ∧
  (∀ (s : State) (x : R), GuardOn x.g x.n s → maskedG s x.d = false →
     let k := wid x.m
     let a := opU x.m (rg s x.a)
     let b := opU x.m (rg s x.b)
     let sa := opS x.m (rg s x.a)
     let sb := opS x.m (rg s x.b)
     let d := opU x.m (rg s x.d)
     SetsG (.mul x) s x.d (resW x.m (a * b : Nat)) ∧
     SetsG (.mulh x) s x.d (resW x.m (sa * sb / 2 ^ k)) ∧
     SetsG (.mulhn x) s x.d (resW x.m (a * b / 2 ^ k : Nat)) ∧
     SetsG (.madd x) s x.d (resW x.m (d + a * b : Nat)) ∧
     SetsG (.msub x) s x.d (resW x.m ((d : Int) - (a * b : Nat))) ∧
     SetsG (.div x) s x.d (resW x.m (if sb = 0 then -1 else if sa = -(2 ^ (k - 1)) ∧ sb = -1 then sa else Int.tdiv sa sb)) ∧
     SetsG (.divn x) s x.d (resW x.m (if b = 0 then -1 else (a / b : Nat))) ∧
     SetsG (.rem x) s x.d (resW x.m (if sb = 0 then sa else if sa = -(2 ^ (k - 1)) ∧ sb = -1 then 0 else Int.tmod sa sb)) ∧
     SetsG (.remn x) s x.d (resW x.m (if b = 0 then a else (a % b : Nat)))) ∧
  (∀ (s : State) (x : R), GuardOn x.g x.n s → maskedG s x.d = false →
     let a := rg s x.a
     (∃ n, n ≤ 64 ∧ SetsG (.clz x) s x.d (BitVec.ofNat 64 n) ∧ (∀ i, 64 - n ≤ i → a.getLsbD i = false) ∧
       (n < 64 → a.getLsbD (63 - n) = true)) ∧
     (∃ n, n ≤ 64 ∧ SetsG (.ctz x) s x.d (BitVec.ofNat 64 n) ∧ (∀ i, i < n → a.getLsbD i = false) ∧ (n < 64 → a.getLsbD n = true)) ∧
     SetsG (.popc x) s x.d (BitVec.ofNat 64 (((List.range 64).filter fun i => a.getLsbD i).length)) ∧
     (∃ v : W64, SetsG (.brev x) s x.d v ∧ ∀ i, i < 64 → v.getLsbD i = a.getLsbD (63 - i)) ∧
     (∃ v : W64, SetsG (.bswap x) s x.d v ∧ ∀ i j, i < 8 → j < 8 → v.getLsbD (8 * i + j) = a.getLsbD (8 * (7 - i) + j)))

/-- R78: the short immediate forms, against the sign-extended immediate; shift amounts are 0 to 63.
R78: MOVI writes its sign-extended 14-bit immediate.
R79: the long forms have the effect of the short forms, with SignExtend(IMM32, 32) in place of the immediate; MOVHI.L writes the upper
half only. -/
def Obligations.ImmediateResults : Prop :=
  (∀ (s : State) (x : I), GuardOn x.g x.n s → -256 ≤ x.imm → x.imm < 256 →
     let a := (rg s x.a).toNat
     let sa := (rg s x.a).toInt
     let c : Nat := if x.imm < 0 then (x.imm + 2 ^ 64).toNat else x.imm.toNat
     (maskedG s x.d = false →
       SetsG (.addi x) s x.d (BitVec.ofNat 64 (a + c)) ∧
       SetsG (.andi x) s x.d (BitVec.ofNat 64 (Nat.land a c)) ∧
       SetsG (.ori x) s x.d (BitVec.ofNat 64 (Nat.lor a c)) ∧
       SetsG (.xori x) s x.d (BitVec.ofNat 64 (Nat.xor a c)) ∧
       SetsG (.addwi x) s x.d (resW 1 (sa + x.imm)) ∧
       (0 ≤ x.imm → x.imm < 64 →
         SetsG (.slli x) s x.d (BitVec.ofNat 64 (a * 2 ^ c)) ∧ SetsG (.srli x) s x.d (BitVec.ofNat 64 (a / 2 ^ c)) ∧
         SetsG (.srai x) s x.d (BitVec.ofInt 64 (sa / 2 ^ c)))) ∧
     (x.d < 8 →
       SetsP (.ceqi x) s x.d (decide (a = c)) ∧ SetsP (.cnei x) s x.d (decide (a ≠ c)) ∧
       SetsP (.clti x) s x.d (decide (sa < x.imm)) ∧ SetsP (.clei x) s x.d (decide (sa ≤ x.imm)) ∧
       SetsP (.cltni x) s x.d (decide (a < c)) ∧ SetsP (.cleni x) s x.d (decide (a ≤ c)))) ∧
  (∀ (s : State) (x : M), GuardOn x.g x.n s → maskedG s x.d = false → -8192 ≤ x.imm → x.imm < 8192 →
     SetsG (.movi x) s x.d (BitVec.ofInt 64 x.imm)) ∧
  (∀ (s : State) (x : L), GuardOn x.g x.n s → x.imm < 2 ^ 32 →
     let a := (rg s x.a).toNat
     let sa := (rg s x.a).toInt
     let z : Int := if x.imm < 2 ^ 31 then (x.imm : Int) else (x.imm : Int) - 2 ^ 32
     let c : Nat := if x.imm < 2 ^ 31 then x.imm else x.imm + (2 ^ 64 - 2 ^ 32)
     (maskedG s x.d = false →
       SetsG (.addiL x) s x.d (BitVec.ofNat 64 (a + c)) ∧
       SetsG (.andiL x) s x.d (BitVec.ofNat 64 (Nat.land a c)) ∧
       SetsG (.oriL x) s x.d (BitVec.ofNat 64 (Nat.lor a c)) ∧
       SetsG (.xoriL x) s x.d (BitVec.ofNat 64 (Nat.xor a c)) ∧
       SetsG (.addwiL x) s x.d (resW 1 (sa + z)) ∧
       SetsG (.moviL x) s x.d (BitVec.ofInt 64 z) ∧
       SetsG (.movhiL x) s x.d (BitVec.ofNat 64 (x.imm * 2 ^ 32 + (rg s x.d).toNat % 2 ^ 32)) ∧
       (x.imm < 64 →
         SetsG (.slliL x) s x.d (BitVec.ofNat 64 (a * 2 ^ c)) ∧ SetsG (.srliL x) s x.d (BitVec.ofNat 64 (a / 2 ^ c)) ∧
         SetsG (.sraiL x) s x.d (BitVec.ofInt 64 (sa / 2 ^ c)))) ∧
     (x.d < 8 →
       SetsP (.ceqiL x) s x.d (decide (a = c)) ∧ SetsP (.cneiL x) s x.d (decide (a ≠ c)) ∧
       SetsP (.cltiL x) s x.d (decide (sa < z)) ∧ SetsP (.cleiL x) s x.d (decide (sa ≤ z)) ∧
       SetsP (.cltniL x) s x.d (decide (a < c)) ∧ SetsP (.cleniL x) s x.d (decide (a ≤ c))))

/-! ## Branches and the loop -/

/-- R84: the branch forms. A taken branch goes to its target, which is read before the link is written; CALL and CALLR put BA + LEN into
g1; a target above word 0x7FFF traps LOCAL_RANGE with t[31:0] in DADDR; BZ and BNZ that are not taken do nothing. -/
def Obligations.BranchResults : Prop :=
  ∀ s : State,
    (∀ x : Br, GuardOn x.g x.n s →
      let t := (s.t.bun.addr : Int) + x.off
      let bad := Host.Outcome.next (raise (tr cLocalRange (wrapN 32 t)) s)
      (0 ≤ t → t ≤ 0x7FFF → Branches (.br x) s t.toNat false ∧ (maskedG s 1 = false → Branches (.call x) s t.toNat true)) ∧
      (t < 0 ∨ 0x7FFF < t → exec (.br x) s = bad ∧ exec (.call x) s = bad)) ∧
    (∀ x : Bg, GuardOn x.g x.n s →
      let t := (s.t.bun.addr : Int) + x.off
      (rg s x.a = 0 → exec (.bnz x) s = .next s) ∧ (rg s x.a ≠ 0 → exec (.bz x) s = .next s) ∧
      (0 ≤ t → t ≤ 0x7FFF →
        (rg s x.a = 0 → Branches (.bz x) s t.toNat false) ∧ (rg s x.a ≠ 0 → Branches (.bnz x) s t.toNat false)) ∧
      (t < 0 ∨ 0x7FFF < t →
        let bad := Host.Outcome.next (raise (tr cLocalRange (wrapN 32 t)) s)
        (rg s x.a = 0 → exec (.bz x) s = bad) ∧ (rg s x.a ≠ 0 → exec (.bnz x) s = bad)) ∧
      ((rg s x.a).toNat ≤ 0x7FFF →
        Branches (.brr x) s (rg s x.a).toNat false ∧ (maskedG s 1 = false → Branches (.callr x) s (rg s x.a).toNat true)) ∧
      ((rg s 1).toNat ≤ 0x7FFF → Branches (.ret x) s (rg s 1).toNat false) ∧
      (0x7FFF < (rg s x.a).toNat →
        let bad := Host.Outcome.next (raise (tr cLocalRange ((rg s x.a).toNat % 2 ^ 32)) s)
        exec (.brr x) s = bad ∧ exec (.callr x) s = bad) ∧
      (0x7FFF < (rg s 1).toNat → exec (.ret x) s = .next (raise (tr cLocalRange ((rg s 1).toNat % 2 ^ 32)) s))) ∧
    (∀ x : Br, ¬GuardOn x.g x.n s → exec (.br x) s = .next s ∧ exec (.call x) s = .next s) ∧
    (∀ x : Bg, ¬GuardOn x.g x.n s → exec (.bz x) s = .next s ∧ exec (.bnz x) s = .next s ∧ exec (.brr x) s = .next s ∧
      exec (.callr x) s = .next s ∧ exec (.ret x) s = .next s)

/-- R87: LOOP sets LSTART to BA + LEN, LEND to e and LCOUNT to the count; with count 0 the bundle after the one at e follows. A last
bundle before the body traps ILLEGAL_OP whatever the guard.
Model's choices: log 98.
R88, R43: the end of a bundle that has completed. The thread goes on at the branch target or after the bundle; at LEND with an active
loop and no branch taken, LCOUNT falls by one and, while it is not 0, the loop starts again. -/
def Obligations.LoopResults : Prop :=
  (∀ (s : State) (x : Bg),
     let e := (s.t.bun.addr : Int) + x.off
     (e < (s.t.bun.addr + s.t.bun.len : Nat) → exec (.loop x) s = .next (raise (tr cIllegalOp) s)) ∧
     ((s.t.bun.addr + s.t.bun.len : Nat) ≤ e → GuardOn x.g x.n s → s.t.bun.blk ≠ none →
       exec (.loop x) s = .next (raise (yokeTrap 4) s)) ∧
     ((s.t.bun.addr + s.t.bun.len : Nat) ≤ e → e ≤ 0x7FFF → GuardOn x.g x.n s → s.t.bun.blk = none →
       (rg s x.a = 0 → fetchBad s.t e.toNat = false) →
       Completes (.loop x) s fun t =>
         t.t.sys = { s.t.sys with lstart := BitVec.ofNat 64 (s.t.bun.addr + s.t.bun.len), lend := BitVec.ofNat 64 e.toNat,
                                  lcount := rg s x.a } ∧
         t.t.bun = { s.t.bun with next := if rg s x.a = 0 then some (e.toNat + bundleLen s.t e.toNat) else s.t.bun.next } ∧
         OnlySys s t)) ∧
  (∀ s : State, s.t.bun.allot = none → s.t.bun.fin = none → s.t.dbg.stepping = false →
     let b := s.t.bun
     let after := b.next.getD (b.addr + b.len)
     let y := s.t.sys
     (y.lcount ≠ 0 → b.addr = y.lend.toNat → b.taken = false →
       (finish s).t.sys = { y with lcount := y.lcount - 1 } ∧
       (finish s).t.pc = (if y.lcount = 1 then after else y.lstart.toNat)) ∧
     ((y.lcount = 0 ∨ b.addr ≠ y.lend.toNat ∨ b.taken = true) → (finish s).t.sys = y ∧ (finish s).t.pc = after) ∧
     (finish s).t.regs = s.t.regs ∧ (finish s).t.sram = s.t.sram ∧ (finish s).t.life = s.t.life ∧
     ∀ p, p ≠ s.cur → (finish s).tile p = s.tile p)

/-! ## Local memory -/

/-- R129, R46: the scalar loads, short forms with the offset scaled by the access size and long forms with SignExtend(IMM32, 32). The
extended number that the access finds goes to g[D]; nothing else changes. Where a check fails, or poison is met, the first of the failing causes
by R65 is raised and nothing is loaded (R124, R126, R127).
Model's choices: logs 4, 12, 23, 88.
R129, R123: the scalar stores outside a yoked block. To SRAM or the yoke window exactly the bytes at the address are written, FULL with
an FE window; to the control space the word goes to the table it names, and no byte changes. Where a check fails, or the scale byte is poisoned,
the first of the failing causes by R65 is raised and nothing is stored (R115, R124, R126, R127).
R129, R23, R26, R124: what a RAW access in the SRAM windows is. It is admitted exactly where it lies in the window's 2 MiB, is aligned
to its size and, for a load, meets no poisoned sector; it reads the bytes at TA[20:0], least significant first, and a store puts the low
bytes of the register there. -/
def Obligations.ScalarMemoryResults : Prop :=
  (∀ s : State,
     let trap (i : Instr) (a : Int) (size : Nat) (word : Bool) : Prop :=
       ∀ y, firstTrap (scalarChecks s a size word false false ++ [scalarPoison s a size word true]) = some y → exec i s = .next (raise y s)
     (∀ x : I, GuardOn x.g x.n s →
       let a (k : Int) : Int := (rg s x.a).toNat + x.imm * k
       trap (.ldb x) (a 1) 1 false ∧ trap (.ldbn x) (a 1) 1 false ∧ trap (.ldh x) (a 2) 2 false ∧ trap (.ldhn x) (a 2) 2 false ∧
       trap (.ldw x) (a 4) 4 true ∧ trap (.ldwn x) (a 4) 4 true ∧ trap (.ldd x) (a 8) 8 false) ∧
     (∀ x : L, GuardOn x.g x.n s →
       let a : Int := (rg s x.a).toNat + sext x.imm 32
       trap (.ldbL x) a 1 false ∧ trap (.ldbnL x) a 1 false ∧ trap (.ldhL x) a 2 false ∧ trap (.ldhnL x) a 2 false ∧
       trap (.ldwL x) a 4 true ∧ trap (.ldwnL x) a 4 true ∧ trap (.lddL x) a 8 false) ∧
     (∀ x : I, GuardOn x.g x.n s → maskedG s x.d = false →
       let a (k : Int) : Int := (rg s x.a).toNat + x.imm * k
       (LoadOk s (a 1) 1 false →
         Loads (.ldb x) s x.d (sxN 8 (scalarRead s (a 1) 1 false)) ∧ Loads (.ldbn x) s x.d (zx (scalarRead s (a 1) 1 false))) ∧
       (LoadOk s (a 2) 2 false →
         Loads (.ldh x) s x.d (sxN 16 (scalarRead s (a 2) 2 false)) ∧ Loads (.ldhn x) s x.d (zx (scalarRead s (a 2) 2 false))) ∧
       (LoadOk s (a 4) 4 true →
         Loads (.ldw x) s x.d (sxN 32 (scalarRead s (a 4) 4 true)) ∧ Loads (.ldwn x) s x.d (zx (scalarRead s (a 4) 4 true))) ∧
       (LoadOk s (a 8) 8 false → Loads (.ldd x) s x.d (zx (scalarRead s (a 8) 8 false)))) ∧
     (∀ x : L, GuardOn x.g x.n s → maskedG s x.d = false →
       let a : Int := (rg s x.a).toNat + sext x.imm 32
       (LoadOk s a 1 false →
         Loads (.ldbL x) s x.d (sxN 8 (scalarRead s a 1 false)) ∧ Loads (.ldbnL x) s x.d (zx (scalarRead s a 1 false))) ∧
       (LoadOk s a 2 false →
         Loads (.ldhL x) s x.d (sxN 16 (scalarRead s a 2 false)) ∧ Loads (.ldhnL x) s x.d (zx (scalarRead s a 2 false))) ∧
       (LoadOk s a 4 true →
         Loads (.ldwL x) s x.d (sxN 32 (scalarRead s a 4 true)) ∧ Loads (.ldwnL x) s x.d (zx (scalarRead s a 4 true))) ∧
       (LoadOk s a 8 false → Loads (.lddL x) s x.d (zx (scalarRead s a 8 false))))) ∧
  (∀ s : State, s.t.bun.blk = none →
     let trap (i : Instr) (a : Int) (size : Nat) (word : Bool) : Prop :=
       ∀ y, firstTrap (scalarChecks s a size word true false ++ [scalarPoison s a size word false]) = some y → exec i s = .next (raise y s)
     let st (i : Instr) (a : Int) (v : W64) (size : Nat) (word : Bool) : Prop :=
       let l := locOf s a.toNat
       StoreOk s a size word →
         if bits a.toNat 31 28 = 1 then
           Completes i s fun t => t.t = ctlWrite { s.t with bun := t.t.bun } (bits a.toNat 27 0) v.toNat ∧ SameRest s t
         else Completes i s fun t =>
           WritesMem (wFe (winFor s a)) [(l.1, l.2, (storeData s a v.toNat size word).1)] s t ∧
           t.t.sys.vflags = s.t.sys.vflags ||| (storeData s a v.toNat size word).2
     (∀ x : I, GuardOn x.g x.n s →
       let a (k : Int) : Int := (rg s x.a).toNat + x.imm * k
       trap (.stb x) (a 1) 1 false ∧ trap (.sth x) (a 2) 2 false ∧ trap (.stw x) (a 4) 4 true ∧ trap (.std x) (a 8) 8 false ∧
       st (.stb x) (a 1) (rg s x.d) 1 false ∧ st (.sth x) (a 2) (rg s x.d) 2 false ∧ st (.stw x) (a 4) (rg s x.d) 4 true ∧
       st (.std x) (a 8) (rg s x.d) 8 false) ∧
     (∀ x : L, GuardOn x.g x.n s →
       let a : Int := (rg s x.a).toNat + sext x.imm 32
       trap (.stbL x) a 1 false ∧ trap (.sthL x) a 2 false ∧ trap (.stwL x) a 4 true ∧ trap (.stdL x) a 8 false ∧
       st (.stbL x) a (rg s x.d) 1 false ∧ st (.sthL x) a (rg s x.d) 2 false ∧ st (.stwL x) a (rg s x.d) 4 true ∧
       st (.stdL x) a (rg s x.d) 8 false)) ∧
  (∀ (s : State) (a : Int) (size : Nat) (word : Bool), 0 ≤ a → a < 2 ^ 32 → (size = 1 ∨ size = 2 ∨ size = 4 ∨ size = 8) →
     bits a.toNat 31 28 = 0 → wFmt (wdOf s.t (bits a.toNat 27 24)) = 0 →
     let o := bits a.toNat 20 0
     (LoadOk s a size word ↔
       bits a.toNat 23 21 = 0 ∧ o + size ≤ 0x200000 ∧ a.toNat % size = 0 ∧ poisonedLoc s s.cur o size = false) ∧
     (s.t.bun.pre = none → s.t.bun.blk = none → poisonedLoc s s.cur o size = s.t.poisoned o size) ∧
     (StoreOk s a size word ↔ bits a.toNat 23 21 = 0 ∧ o + size ≤ 0x200000 ∧ a.toNat % size = 0) ∧
     locOf s a.toNat = (s.cur, o) ∧
     (s.t.bun.blk = none → scalarRead s a size word = leNat (Mem.bytes s.t.sram o size)) ∧
     ∀ v, storeData s a v size word = (natLe size v, 0))

/-- R130, R131: the Full-bit instructions outside a yoked block. LDF and LDFC load once the sector is Full, and until then the bundle waits
with nothing done; LDFC then clears the bit; STF stores and sets it; FCLR and FSET change the bit of the sector alone.
Model's choices: log 16. -/
def Obligations.FullBitResults : Prop :=
  ∀ s : State, s.t.bun.blk = none →
    let full (p k : Nat) (v : Bool) (t : State) : Prop :=
      ∀ p' k', NSet.mem (t.tile p').full k' = if p' = p ∧ k' = k then v else NSet.mem (s.tile p').full k'
    let ldf (i : Instr) (d : Nat) (a : Int) (clr : Bool) : Prop :=
      let k := bits a.toNat 20 0 / 32
      Pass (scalarChecks s a 8 false false true) → bits a.toNat 31 28 = 0 →
        (fullLoc s s.cur k = false → Completes i s fun t => t.t = { s.t with bun := t.t.bun, wait := s.t.wait ++ [(s.t.bun.pos, .full [k])] } ∧
          SameRest s t) ∧
        (fullLoc s s.cur k = true → poisonedLoc s s.cur (bits a.toNat 20 0) 8 = false → maskedG s d = false →
          Completes i s fun t =>
            rg t d = (if d = 0 then 0 else BitVec.ofNat 64 (Mem.le s.t.sram (bits a.toNat 20 0) 8)) ∧ (∀ n, n ≠ d → rg t n = rg s n) ∧
            (if clr then full s.cur k false t else ∀ p, (t.tile p).full = (s.tile p).full) ∧ SameMem s t ∧ SameRestW s t ∧
            t.t = { s.t with regs := { s.t.regs with g := t.t.regs.g }, full := t.t.full, bun := t.t.bun })
    let stf (i : Instr) (v : W64) (a : Int) : Prop :=
      Pass (scalarChecks s a 8 false true true) → bits a.toNat 31 28 = 0 →
        Completes i s fun t => WritesMem true [(s.cur, bits a.toNat 20 0, natLe 8 v.toNat)] s t ∧ t.t.sys = s.t.sys
    let fb (i : Instr) (a : Int) (v : Bool) : Prop :=
      Pass (fullBitChecks s a) → bits a.toNat 31 28 = 0 →
        Completes i s fun t => full s.cur (bits a.toNat 20 0 / 32) v t ∧ SameMem s t ∧ SameRest s t ∧
          t.t = { s.t with full := t.t.full, bun := t.t.bun }
    (∀ x : I, GuardOn x.g x.n s →
      let a : Int := (rg s x.a).toNat + x.imm * 8
      let b : Int := (rg s x.a).toNat + x.imm * 32
      ldf (.ldf x) x.d a false ∧ ldf (.ldfc x) x.d a true ∧ stf (.stf x) (rg s x.d) a ∧ fb (.fclr x) b false ∧ fb (.fset x) b true) ∧
    (∀ x : L, GuardOn x.g x.n s →
      let a : Int := (rg s x.a).toNat + sext x.imm 32
      ldf (.ldfL x) x.d a false ∧ ldf (.ldfcL x) x.d a true ∧ stf (.stfL x) (rg s x.d) a ∧ fb (.fclrL x) a false ∧ fb (.fsetL x) a true)

/-- R137: the local atomics outside a yoked block. g[D] gets the old value, sign-extended in the W forms; the new value stands in memory,
and no other byte changes; LACAS stores only where the old value equals g[D]. -/
def Obligations.LocalAtomicResults : Prop :=
  ∀ (s : State) (x : R), GuardOn x.g x.n s → s.t.bun.blk = none → x.m < 2 → maskedG s x.d = false →
    let ta := (rg s x.a).toNat
    let o := bits ta 20 0
    let n := if x.m = 1 then 4 else 8
    ta < 2 ^ 32 → bits ta 31 28 = 0 → bits ta 23 21 = 0 → wFmt (wdOf s.t (bits ta 27 24)) = 0 → o + n ≤ 0x200000 → ta % n = 0 →
    poisonedLoc s s.cur o n = false →
    let raw := Mem.le s.t.sram o n
    let old := opU x.m (BitVec.ofNat 64 raw)
    let b := opU x.m (rg s x.b)
    let sold := opS x.m (BitVec.ofNat 64 raw)
    let sb := opS x.m (rg s x.b)
    let res (i : Instr) (new : Option Nat) : Prop :=
      Completes i s fun t =>
        rg t x.d = (if x.d = 0 then 0 else resW x.m raw) ∧ (∀ k, k ≠ x.d → rg t k = rg s k) ∧
        (match new with
          | some v => Mem.le t.t.sram o n = v % 2 ^ (8 * n)
          | none => ∀ a, Mem.byte t.t.sram a = Mem.byte s.t.sram a) ∧
        (∀ a, a < o ∨ o + n ≤ a → Mem.byte t.t.sram a = Mem.byte s.t.sram a) ∧
        (∀ p, p ≠ s.cur → t.tile p = s.tile p) ∧
        t.t = { s.t with regs := { s.t.regs with g := t.t.regs.g }, sram := t.t.sram, poison := t.t.poison, bun := t.t.bun }
    res (.laadd x) (some (old + b)) ∧ res (.laand x) (some (Nat.land old b)) ∧ res (.laor x) (some (Nat.lor old b)) ∧
    res (.laxor x) (some (Nat.xor old b)) ∧ res (.lamin x) (some (if sb < sold then b else old)) ∧
    res (.lamax x) (some (if sold < sb then b else old)) ∧ res (.laminn x) (some (if b < old then b else old)) ∧
    res (.lamaxn x) (some (if old < b then b else old)) ∧ res (.laswap x) (some b) ∧
    res (.lacas x) (if old = opU x.m (rg s x.d) then some b else none)

/-! ## The vector unit -/

/-- R147, R148, R149, R150: the integer forms, element by element: the exact integer result kept modulo 2^w, clamped in VADDS and VSUBS;
shift amounts modulo w; no flags. -/
def Obligations.VectorIntegerResults : Prop :=
  ∀ (s : State) (x : V), x.t < 8 → isF x.t = false → maskedV s x.d = false →
    let w := elemW x.t
    let z (v : Nat) : Int := elemI x.t v
    let set (i : Instr) (f : Nat → Nat → Nat → Int) : Prop := VElems i s x fun a b d => (wrapN w (f a b d), 0)
    let lo : Int := if isSignedT x.t then -(2 ^ (w - 1)) else 0
    let hi : Int := if isSignedT x.t then 2 ^ (w - 1) - 1 else 2 ^ w - 1
    let clamp (v : Int) : Int := if v < lo then lo else if hi < v then hi else v
    set (.vadd x) (fun a b _ => z a + z b) ∧ set (.vsub x) (fun a b _ => z a - z b) ∧ set (.vmul x) (fun a b _ => z a * z b) ∧
    set (.vfma x) (fun a b d => z d + z a * z b) ∧ set (.vfms x) (fun a b d => z d - z a * z b) ∧
    set (.vmin x) (fun a b _ => if z a < z b then z a else z b) ∧ set (.vmax x) (fun a b _ => if z a < z b then z b else z a) ∧
    set (.vabs x) (fun a _ _ => (z a).natAbs) ∧ set (.vneg x) (fun a _ _ => -z a) ∧
    set (.vsll x) (fun a b _ => (a * 2 ^ (b % w) : Nat)) ∧ set (.vsrl x) (fun a b _ => (a / 2 ^ (b % w) : Nat)) ∧
    set (.vsra x) (fun a b _ => sext a w / 2 ^ (b % w)) ∧
    set (.vadds x) (fun a b _ => clamp (z a + z b)) ∧ set (.vsubs x) (fun a b _ => clamp (z a - z b)) ∧
    set (.vmulh x) (fun a b _ => z a * z b / 2 ^ w)

/-- R145, R148, R150, R153 to R157: the float forms, element by element, each rounded once under FRM (VEXP2 and VLOG2 by their own
algorithms; what they and the quotient and the root give, the next statement says); VFMA and VFMS round the exact sum d ± a·b once; VROUND takes its
mode from B.
Model's choices: log 25.
R153, R154, R156, R157: what the float functions of VDIV, VSQRT, VRSQ, VEXP2 and VLOG2 give. The special operands of R154's table and of the
two algorithms; an exact quotient or root that the format holds; else the truncated quotient or root with more bits than the format has, its
remainder told by a last bit, rounded once; VEXP2 of an integer and VLOG2 of a power of two exactly; the constants E and rc of the algorithms;
R156's example.
R109, R145: rounding in the float formats. A number that the format holds is delivered exactly and raises nothing, under every mode;
every NaN is delivered as the canonical one. -/
def Obligations.VectorFloatResults : Prop :=
  (∀ (s : State) (x : V), isF x.t = true → maskedV s x.d = false →
     let f := fmtOf x.t
     let m := frmOf s
     VElems (.vadd x) s x (fun a b _ => f.finish m (match f.unpack a, f.unpack b with
       | u, v => let r := FV.sum m [u, v]; (r.1, r.2 || u.isSig || v.isSig))) ∧
     VElems (.vsub x) s x (fun a b _ => fpAdd f m (f.unpack a) (f.unpack b).neg) ∧
     VElems (.vmul x) s x (fun a b _ => fpMul f m (f.unpack a) (f.unpack b)) ∧
     VElems (.vfma x) s x (fun a b d => fpDot f m (f.unpack d) [(f.unpack a, f.unpack b)]) ∧
     VElems (.vfms x) s x (fun a b d => fpDot f m (f.unpack d) [((f.unpack a).neg, f.unpack b)]) ∧
     VElems (.vmin x) s x (fun a b _ => fpMinMax f false a b) ∧ VElems (.vmax x) s x (fun a b _ => fpMinMax f true a b) ∧
     VElems (.vabs x) s x (fun a _ _ => if (f.unpack a).isNan then (f.nanPat, 0) else (a % f.sign, 0)) ∧
     VElems (.vneg x) s x (fun a _ _ => if (f.unpack a).isNan then (f.nanPat, 0) else ((a + f.sign) % (2 * f.sign), 0)) ∧
     VElems (.vdiv x) s x (fun a b _ => fpDiv f m (f.unpack a) (f.unpack b)) ∧
     VElems (.vsqrt x) s x (fun a _ _ => fpSqrt f m (f.unpack a)) ∧
     VElems (.vrcp x) s x (fun a _ _ => fpDiv f m (.fin false 1 0) (f.unpack a)) ∧
     VElems (.vrsq x) s x (fun a _ _ => fpRsq f m (f.unpack a)) ∧
     VElems (.vexp2 x) s x (fun a _ _ => fpExp2 f (f.unpack a)) ∧ VElems (.vlog2 x) s x (fun a _ _ => fpLog2 f (f.unpack a)) ∧
     VElems (.vround x) s x (fun a _ _ => fpRoundInt f (x.b % 4) (f.unpack a)) ∧
     VElems (.vscale x) s x (fun a b _ => f.finish m ((f.unpack a).scale (sext b (elemW x.t)), (f.unpack a).isSig)) ∧
     VElems (.vclass x) s x (fun a _ _ => (fpClass f a, 0))) ∧
  ((∀ (f : Fmt) (mode : Nat), (f = f32 ∨ f = f16 ∨ f = bf16) → mode < 4 →
     let nan : Nat × BitVec 5 := (f.nanPat, fNV)
     let sg (n : Bool) : Nat := if n then f.sign else 0
     (∀ (x y : Bool) (m k : Nat) (e d : Int),
       fpDiv f mode (.fin x 0 e) (.fin y 0 d) = nan ∧ fpDiv f mode (.inf x) (.inf y) = nan ∧
       (m ≠ 0 → fpDiv f mode (.fin x m e) (.fin y 0 d) = (sg (x != y) + f.infPat, fDZ)) ∧
       fpDiv f mode (.fin x m e) (.inf y) = (sg (x != y), 0) ∧ fpDiv f mode (.inf x) (.fin y k d) = (sg (x != y) + f.infPat, 0) ∧
       (k ≠ 0 → fpDiv f mode (.fin x 0 e) (.fin y k d) = (sg (x != y), 0)) ∧
       (m ≠ 0 → k ≠ 0 → ∃ j q r : Nat, m * 2 ^ j = q * k + r ∧ r < k ∧ 2 ^ (f.m + 2) ≤ q ∧
         fpDiv f mode (.fin x m e) (.fin y k d) = f.round mode (x != y) (2 * q + if r = 0 then 0 else 1) (e - d - j - 1))) ∧
     (∀ (x : Bool) (m : Nat) (e : Int),
       fpSqrt f mode (.fin x 0 e) = (sg x, 0) ∧ fpSqrt f mode (.inf false) = (f.infPat, 0) ∧ fpSqrt f mode (.inf true) = nan ∧
       (m ≠ 0 → fpSqrt f mode (.fin true m e) = nan ∧ ∃ j q r : Nat, ∃ h : Int, 2 * h = e - j ∧ m * 2 ^ j = q * q + r ∧ r ≤ 2 * q ∧
         2 ^ (f.m + 2) ≤ q ∧ fpSqrt f mode (.fin false m e) = f.round mode false (2 * q + if r = 0 then 0 else 1) (h - 1)) ∧
       fpRsq f mode (.fin x 0 e) = (sg x + f.infPat, fDZ) ∧ fpRsq f mode (.inf false) = (0, 0) ∧ fpRsq f mode (.inf true) = nan ∧
       (m ≠ 0 → fpRsq f mode (.fin true m e) = nan)) ∧
     (∀ (s : Bool) (v : FV), fpDiv f mode (.nan s) v = (f.nanPat, if s || v.isSig then fNV else 0) ∧
       fpDiv f mode v (.nan s) = (f.nanPat, if s || v.isSig then fNV else 0) ∧
       fpSqrt f mode (.nan s) = (f.nanPat, if s then fNV else 0) ∧ fpRsq f mode (.nan s) = (f.nanPat, if s then fNV else 0) ∧
       fpExp2 f (.nan s) = (f.nanPat, if s then fNV else 0) ∧ fpLog2 f (.nan s) = (f.nanPat, if s then fNV else 0)) ∧
     (∀ (n : Bool) (w k m : Nat) (d e : Int) (y : Bool), f.unpack w = .fin n m e → w < 2 ^ (f.m + f.e + 1) → m ≠ 0 →
       (k ≠ 0 → fpDiv f mode (.fin (n != y) (m * k) (e + d)) (.fin y k d) = (w, 0)) ∧
       (n = false → fpSqrt f mode (.fin false (m * m) (2 * e)) = (w, 0))) ∧
     fpExp2 f (.inf false) = (f.infPat, 0) ∧ fpExp2 f (.inf true) = (0, 0) ∧
     (∀ k : Int, fpExp2 f (.fin (decide (k < 0)) k.natAbs 0) = f.round 0 false (2 ^ 30) (k - 30) ∧
       (fpLog2 f (.fin false 1 k)).1 = (f.round 0 (decide (k < 0)) (k.natAbs * 2 ^ 32) (-32)).1 ∧ (fpLog2 f (.fin false 1 k)).2 &&& fNX = 0) ∧
     fpLog2 f (.inf false) = (f.infPat, 0) ∧ fpLog2 f (.inf true) = nan ∧
     (∀ (x : Bool) (m : Nat) (e : Int), fpLog2 f (.fin x 0 e) = (f.sign + f.infPat, fDZ) ∧ (m ≠ 0 → fpLog2 f (.fin true m e) = nan))) ∧
   (∀ j, j < 64 → (2 * expE.getD j 0 - 1) ^ 64 < 2 ^ (64 * 31 + j) ∧ 2 ^ (64 * 31 + j) < (2 * expE.getD j 0 + 1) ^ 64 ∧
     (2 * logRc j - 1) * (64 + j) ≤ 2 ^ 39 ∧ 2 ^ 39 < (2 * logRc j + 1) * (64 + j)) ∧
   fpExp2 f32 (f32.unpack 0x3F000000) = (0x3FB504F3, fNX)) ∧
  (∀ (f : Fmt) (mode w : Nat), (f = f32 ∨ f = f16 ∨ f = bf16) → mode < 4 → w < 2 ^ (f.m + f.e + 1) →
     (∀ (n : Bool) (m : Nat) (e : Int), f.unpack w = .fin n m e → m ≠ 0 → f.round mode n m e = (w, 0)) ∧
     (∀ n, f.unpack w = .inf n → f.deliver mode (.inf n) = (w, 0)) ∧
     (∀ g, f.unpack w = .nan g → (f.finish mode (f.unpack w, g)).1 = f.nanPat))

/-- R148, R151, R152, R161, R162: the forms that work lane by lane. Bitwise forms, copies, permutations and splats; the dot products;
VMULW's two registers; VINS, VCOMPR and VSEL, which write lanes whatever Q; VEXT and VIOTA. -/
def Obligations.VectorLaneResults : Prop :=
  ∀ (s : State) (x : V), maskedV s x.d = false →
    let a (l : Nat) := rv s x.a l
    let b (l : Nat) := rv s x.b l
    let el (n v k : Nat) : Int := elemI x.t (elemOf n v k)
    VLanes (.vand x) s x (fun l => (Nat.land (a l).toNat (b l).toNat, 0)) ∧
    VLanes (.vor x) s x (fun l => (Nat.lor (a l).toNat (b l).toNat, 0)) ∧
    VLanes (.vxor x) s x (fun l => (Nat.xor (a l).toNat (b l).toNat, 0)) ∧
    VLanes (.vandn x) s x (fun l => (Nat.land (a l).toNat (2 ^ 32 - 1 - (b l).toNat), 0)) ∧
    VLanes (.vcopy x) s x (fun l => ((a l).toNat, 0)) ∧
    VLanes (.vperm x) s x (fun l => ((rv s x.a ((b l).toNat % 16)).toNat, 0)) ∧
    VLanes (.vdot4 x) s x (fun l => (wrapN 32 ((rv s x.d l).toNat + el 8 (a l).toNat 0 * el 8 (b l).toNat 0
      + el 8 (a l).toNat 1 * el 8 (b l).toNat 1 + el 8 (a l).toNat 2 * el 8 (b l).toNat 2 + el 8 (a l).toNat 3 * el 8 (b l).toNat 3), 0)) ∧
    VLanes (.vdot2 x) s x (fun l =>
      let f := fmtOf x.t
      let u (v : W32) (k : Nat) := f.unpack (elemOf 16 v.toNat k)
      fpDot f32 (frmOf s) (f32.unpack (rv s x.d l).toNat) [(u (a l) 0, u (b l) 0), (u (a l) 1, u (b l) 1)]) ∧
    VElems (.vsplat x) s x (fun _ _ _ => ((rg s x.a).toNat, 0)) ∧
    VLanes (.viota x) s x (fun l => ((rg s x.a).toNat + ((List.range l).filter fun j => lane s x.q j).length, 0)) ∧
    VLanes (.vcvt x) s x (fun l => cvtLane x.t (x.b % 8) (frmOf s) (a l).toNat) ∧
    (Completes (.vins x) s fun t => OnlyV x.d s t ∧
      ∀ l, l < 16 → vl t x.d l = if l = (rg s x.b).toNat % 16 then lo32 (rg s x.a) else vl s x.d l) ∧
    (Completes (.vsel x) s fun t => OnlyV x.d s t ∧ ∀ l, l < 16 → vl t x.d l = if lane s x.q l then a l else b l) ∧
    (Completes (.vcompr x) s fun t => OnlyV x.d s t ∧
      (∀ l, l < 16 → lane s x.q l = true → vl t x.d ((List.range l).filter fun j => lane s x.q j).length = a l) ∧
      ∀ l, l < 16 → ((List.range 16).filter fun j => lane s x.q j).length ≤ l → vl t x.d l = 0) ∧
    (maskedG s x.d = false → SetsG (.vext x) s x.d
      (if x.t = 3 then resW 1 (rv s x.a ((rg s x.b).toNat % 16)).toNat else BitVec.ofNat 64 (rv s x.a ((rg s x.b).toNat % 16)).toNat)) ∧
    (maskedV s (x.d + 1) = false → x.d % 2 = 0 → x.t = 3 ∨ x.t = 4 ∨ x.t = 6 →
      Completes (.vmulw x) s fun t =>
        t.t = { s.t with regs := { s.t.regs with v := t.t.regs.v } } ∧ SameRest s t ∧ SameMem s t ∧
        (∀ n l, l < 16 → n ≠ x.d → n ≠ x.d + 1 → vl t n l = vl s n l) ∧
        ∀ l, l < 16 → if lane s x.q l then
            (if x.t = 4 then (vl t x.d l).toInt = sext (a l).toNat 16 * sext (b l).toNat 16 ∧
                (vl t (x.d + 1) l).toInt = sext ((a l).toNat / 2 ^ 16) 16 * sext ((b l).toNat / 2 ^ 16) 16
              else (vl t x.d l).toNat + 2 ^ 32 * (vl t (x.d + 1) l).toNat = wrapN 64 (elemI x.t (a l).toNat * elemI x.t (b l).toNat))
          else vl t x.d l = vl s x.d l ∧ vl t (x.d + 1) l = vl s (x.d + 1) l)

/-- R158: the reductions. Lane 0 gets the root of the pairwise tree over the selected lanes, the other lanes zero. For 32-bit integers the
root is the sum modulo 2^32, the largest or the smallest of the selected lanes; with no lane selected it is the identity.
R120, R121: codes in registers. VENC puts the code of a lane into one byte or nibble of v[D] and keeps the others, VDEC decodes one;
VENC traps TABLE where the table fails its test, whatever the mask; VBSCL gives the group's scale or the scaled lane.
Model's choices: log 91. -/
def Obligations.ReductionAndCodeResults : Prop :=
  (∀ (s : State) (x : V), maskedV s x.d = false →
     let root (op : Nat → Nat → Nat × BitVec 5) (ident : Nat) : Nat × BitVec 5 :=
       ((treeLevel op (treeLevel op (treeLevel op (treeLevel op ((List.range 16).map (redLeaf x op s)))))).headD none).getD (ident, 0)
     let red (i : Instr) (r : Nat × BitVec 5) : Prop :=
       Completes i s fun t => (∀ l, l < 16 → vl t x.d l = if l = 0 then BitVec.ofNat 32 r.1 else 0) ∧
         FlagsRaised s t r.2 ∧ OnlyVF x.d s t
     (isF x.t = true →
       red (.vrsum x) (root (fun a b => fpAdd f32 (frmOf s) (f32.unpack a) (f32.unpack b)) 0) ∧
       red (.vrmax x) (root (fpMinMax f32 true) 0xFF800000) ∧ red (.vrmin x) (root (fpMinMax f32 false) 0x7F800000)) ∧
     (x.t = 3 ∨ x.t = 6 →
       let sel := (List.range 16).filter fun l => lane s x.q l
       let z (v : W32) : Int := elemI x.t v.toNat
       red (.vrsum x) ((sel.foldl (fun n l => n + (rv s x.a l).toNat) 0) % 2 ^ 32, 0) ∧
       (∃ v : W32, red (.vrmax x) (v.toNat, 0) ∧ (∀ l ∈ sel, z (rv s x.a l) ≤ z v) ∧
         if sel = [] then v = (if x.t = 3 then 0x80000000 else 0) else ∃ l ∈ sel, v = rv s x.a l) ∧
       (∃ v : W32, red (.vrmin x) (v.toNat, 0) ∧ (∀ l ∈ sel, z v ≤ z (rv s x.a l)) ∧
         if sel = [] then v = (if x.t = 3 then 0x7FFFFFFF else 0xFFFFFFFF) else ∃ l ∈ sel, v = rv s x.a l))) ∧
  (∀ (s : State) (x : V), maskedV s x.d = false →
     let y := preSys s.t
     let n := x.b % 4
     let enc (i : Instr) (w k : Nat) (nib : Bool) : Prop :=
       (tableOk y n nib = false → exec i s = .next (raise (tr cTable) s)) ∧
       (tableOk y n nib = true → Completes i s fun t =>
         let r (l : Nat) := encodeCode y n (f32.unpack (rv s x.a l).toNat) (frmOf s % 2) (bit (frmOf s) 1)
         (∀ l, l < 16 → if lane s x.q l then
             elemOf w (vl t x.d l).toNat k = (r l).1 % 2 ^ w ∧
             ∀ j, j < 32 / w → j ≠ k → elemOf w (vl t x.d l).toNat j = elemOf w (rv s x.d l).toNat j
           else vl t x.d l = vl s x.d l) ∧
         FlagsRaised s t (laneFlags s x.q fun l => (r l).2) ∧ OnlyVF x.d s t)
     enc (.venc8 x) 8 (x.b / 4 % 4) false ∧ enc (.venc4 x) 4 (x.b / 4 % 8) true ∧
     VLanes (.vdec8 x) s x (fun l => (codeLane y n (elemOf 8 (rv s x.a l).toNat (x.b / 4 % 4)), 0)) ∧
     VLanes (.vdec4 x) s x (fun l => (codeLane y n (elemOf 4 (rv s x.a l).toNat (x.b / 4 % 8)), 0)) ∧
     VLanes (.vbscl x) s x (fun l =>
       let g := blockScale (dtsEmax (dtsOf y n)) ((List.range 4).map fun j => f32.unpack (rv s x.a (l / 4 * 4 + j)).toNat)
       let v := f32.unpack (rv s x.a l).toNat
       if bit x.b 4 then (g, 0) else f32.finish 0 (v.scale (127 - (g : Int)), v.isSig)))

/-- R159, R160: the vector compares and the mask forms. Bit l of q[D] is Q's bit l AND the relation on lane l; a NaN is unequal to
everything and makes VCLT and VCLE raise NV; the N forms compare unsigned. -/
def Obligations.MaskResults : Prop :=
  ∀ (s : State) (x : V),
    let cmp (i : Instr) (rel : Nat → Bool) (fl : Nat → BitVec 5) : Prop :=
      Completes i s fun t =>
        (x.d ≠ 0 → ∀ l, l < 16 → (rq t x.d).getLsbD l = (lane s x.q l && rel l)) ∧ (x.d = 0 → rq t 0 = 0xFFFF) ∧
        (∀ n, n < 8 → n ≠ x.d → rq t n = rq s n) ∧ FlagsRaised s t (laneFlags s x.q fl) ∧
        t.t = { s.t with regs := { s.t.regs with q := t.t.regs.q }, sys := { s.t.sys with vflags := t.t.sys.vflags },
                         bun := { s.t.bun with raised := t.t.bun.raised } } ∧ SameRest s t ∧ SameMem s t
    let u (l : Nat) := f32.unpack (rv s x.a l).toNat
    let v (l : Nat) := f32.unpack (rv s x.b l).toNat
    let nan (l : Nat) : Bool := (u l).isNan || (v l).isNan
    let sig (l : Nat) : BitVec 5 := if (u l).isSig || (v l).isSig then fNV else 0
    let any (l : Nat) : BitVec 5 := if nan l then fNV else 0
    let a (l : Nat) := elemI x.t (rv s x.a l).toNat
    let b (l : Nat) := elemI x.t (rv s x.b l).toNat
    let au (l : Nat) := (rv s x.a l).toNat
    let bu (l : Nat) := (rv s x.b l).toNat
    (x.d < 8 →
      (x.t = 0 →
        cmp (.vceq x) (fun l => !nan l && (u l).cmp (v l) == 0) sig ∧ cmp (.vcne x) (fun l => nan l || (u l).cmp (v l) != 0) sig ∧
        cmp (.vclt x) (fun l => !nan l && decide ((u l).cmp (v l) < 0)) any ∧
        cmp (.vcle x) (fun l => !nan l && decide ((u l).cmp (v l) ≤ 0)) any) ∧
      (x.t = 3 ∨ x.t = 6 →
        cmp (.vceq x) (fun l => decide (a l = b l)) (fun _ => 0) ∧ cmp (.vcne x) (fun l => decide (a l ≠ b l)) (fun _ => 0) ∧
        cmp (.vclt x) (fun l => decide (a l < b l)) (fun _ => 0) ∧ cmp (.vcle x) (fun l => decide (a l ≤ b l)) (fun _ => 0)) ∧
      cmp (.vcltn x) (fun l => decide (au l < bu l)) (fun _ => 0) ∧ cmp (.vclen x) (fun l => decide (au l ≤ bu l)) (fun _ => 0) ∧
      SetsQ (.qand x) s x.d (rq s x.a &&& rq s x.b) ∧ SetsQ (.qor x) s x.d (rq s x.a ||| rq s x.b) ∧
      SetsQ (.qxor x) s x.d (rq s x.a ^^^ rq s x.b) ∧ SetsQ (.qandn x) s x.d (rq s x.a &&& ~~~ rq s x.b) ∧
      SetsQ (.qmovg x) s x.d (BitVec.ofNat 16 (rg s x.a).toNat)) ∧
    (maskedG s x.d = false →
      SetsG (.gmovq x) s x.d (BitVec.ofNat 64 (rq s x.a).toNat) ∧
      SetsG (.qpopc x) s x.d (BitVec.ofNat 64 ((List.range 16).filter fun l => (rq s x.a).getLsbD l).length))

/-! ## Vector memory -/

/-- R132, R134, R135, R128: the vector loads. Each lane that Q selects gets the widened element at its address, through the window of the
base; the other lanes and all else are kept. VLDF waits until the sectors of its data are Full, and until then does nothing.
Where a check of a selected lane fails, or poison is met, the first of the failing causes by R65 is raised and no lane is loaded; VLDF looks for
poison once its sectors are Full (R131).
Model's choices: logs 13, 17, 23, 88, 109.
R132, R114: a RAW vector load in SRAM outside a yoked block reads lane k from the four bytes at base + 4k, and a strided one from the
four bytes at base + k·stride. -/
def Obligations.VectorLoadResults : Prop :=
  (∀ (s : State) (x : V), maskedV s x.d = false →
     let trap (i : Instr) (l : List (Bool × TrapInfo)) : Prop := ∀ y, firstTrap l = some y → exec i s = .next (raise y s)
     let ld (i : Instr) (base : Int) (l : List El) (win full bc : Bool) : Prop :=
       let w := winFor s base
       (full = false → trap i (vecChecks s w base l win false true bc)) ∧
       (Pass (vecChecks s w base l win full true bc) →
         Completes i s fun t => OnlyVB x.d s t ∧ ∀ k, k < 16 →
           vl t x.d k = match l.find? fun e => e.lane == k with | some e => elLane s w e | none => vl s x.d k)
     let sum : Int := (rg s x.a).toNat + (rg s x.b).toNat
     let base : Int := (rg s x.a).toNat
     let stride : Int := (rg s x.b).toInt
     let w (b : Int) := winFor s b
     ld (.vld x) sum (elsSeq s x.q (w sum) sum) false false false ∧
     ld (.vldb x) sum (elsBcast s x.q sum) false false true ∧
     ld (.vlds x) base (elsStride s x.q (w base) base stride) false false false ∧
     ld (.vldx x) base (elsIndex s x.q base x.b) (fmtScaled (wFmt (w base))) false true ∧
     (let l := elsSeq s x.q (w sum) sum
      let secs := (l.flatMap fun e => sectorsOf (bits e.a.toNat 20 0) (elLen (w sum))).eraseDups
      trap (.vldf x) (vecChecks s (w sum) sum l false true false false) ∧
      (Pass (vecChecks s (w sum) sum l false true false false) →
       (secs.all (fullLoc s s.cur) = true →
         ld (.vldf x) sum l false true false ∧ trap (.vldf x) (vecChecks s (w sum) sum l false true true false)) ∧
       (secs.all (fullLoc s s.cur) = false → Completes (.vldf x) s fun t =>
         t.t = { s.t with bun := t.t.bun, wait := s.t.wait ++ [(s.t.bun.pos, .full secs)] } ∧ SameRest s t)))) ∧
  (∀ (s : State) (x : V), s.t.bun.blk = none →
     let go (i : Instr) (base : Int) (adr : Nat → Int) : Prop :=
       0 ≤ base → base < 2 ^ 32 → bits base.toNat 31 28 = 0 → bits base.toNat 23 21 = 0 → wFmt (wdOf s.t (bits base.toNat 27 24)) = 0 →
       (∀ k, k < 16 → lane s x.q k = true → 0 ≤ adr k ∧ (adr k).toNat / 2 ^ 21 = base.toNat / 2 ^ 21 ∧ (adr k).toNat % 4 = 0 ∧
         poisonedLoc s s.cur (bits (adr k).toNat 20 0) 4 = false) →
       Completes i s fun t => OnlyVB x.d s t ∧ ∀ k, k < 16 →
         vl t x.d k = if lane s x.q k then BitVec.ofNat 32 (Mem.le s.t.sram (bits (adr k).toNat 20 0) 4) else vl s x.d k
     let sum : Int := (rg s x.a).toNat + (rg s x.b).toNat
     go (.vld x) sum (fun k => sum + 4 * (k : Int)) ∧
     go (.vlds x) (rg s x.a).toNat (fun k => (rg s x.a).toNat + (k : Int) * (rg s x.b).toInt) ∧
     go (.vldx x) (rg s x.a).toNat (fun k => (rg s x.a).toNat + (rv s x.b k).toInt) ∧
     go (.vldb x) sum (fun _ => sum))

/-- R132 to R136, R115, R123, R128: the vector stores outside a yoked block. Exactly the pieces of the selected lanes, groups or rows are written,
in ascending order, FULL with an FE window; in a scaled format the groups' scale bytes follow; a window whose table fails its test traps
TABLE whatever the mask, and the first failing cause of the selected lanes is raised.
Model's choices: logs 93, 108, 109.
R136, R138, R139: VLDT loads element j of each selected row k into lane k of v[D + j]. VSPL puts v[D] into the place of its slot and lists
it; in a yoked block an SRAM place is written at the block's commit (R323), and a place that a queued command still uses is waited for (R98).
VFIL gives it back, and a slot that this activation has not spilled gives values that nothing constrains (log 5).
Model's choices: logs 5, 13, 93. -/
def Obligations.VectorStoreAndSpillResults : Prop :=
  (∀ (s : State) (x : V), s.t.bun.blk = none →
     let st (i : Instr) (base : Int) (sel l : List El) (win : Bool) : Prop :=
       let w := winFor s base
       let raws := l.map fun e => (e, (laneRaw s w x.d e).1)
       let fl := l.foldl (fun f e => f ||| (laneRaw s w x.d e).2) 0
       let scales : Pieces := (l.filter fun e => e.lane % 4 == 0).map fun e =>
         (s.cur, scaleOff w (bits e.a.toNat 20 0), natLe 1 (groupScale s w x.d (e.lane / 4)))
       (Pass (tableCheck s w base :: vecChecks s w base sel win false false false) →
         Completes i s fun t => t.t.sys.vflags = s.t.sys.vflags ||| fl ∧
           if fmtScaled (wFmt w) then ∃ m, WritesMem (wFe w) (elPieces s w raws) s m ∧ WritesMem false scales m t
           else WritesMem (wFe w) (elPieces s w raws) s t) ∧
       (∀ y, firstTrap (tableCheck s w base :: vecChecks s w base sel win false false false) = some y → exec i s = .next (raise y s))
     let sum : Int := (rg s x.a).toNat + (rg s x.b).toNat
     let base : Int := (rg s x.a).toNat
     let stride : Int := (rg s x.b).toInt
     let sc (b : Int) := fmtScaled (wFmt (winFor s b))
     st (.vst x) sum (elsSeq s x.q (winFor s sum) sum) (if sc sum then wholeGroups (elsSeqAll (winFor s sum) sum) (lane s x.q) else elsSeq s x.q (winFor s sum) sum) false ∧
     st (.vsts x) base (elsStride s x.q (winFor s base) base stride) (if sc base then wholeGroups (elsStrideAll (winFor s base) base stride) (lane s x.q)
       else elsStride s x.q (winFor s base) base stride) false ∧
     st (.vstx x) base (elsIndex s x.q base x.b) (elsIndex s x.q base x.b) (sc base) ∧
     (∀ y, firstTrap (tableCheck s (winFor s base) base :: rowChecks s x false) = some y → exec (.vstt x) s = .next (raise y s)) ∧
     (Pass (tableCheck s (winFor s base) base :: rowChecks s x false) → Completes (.vstt x) s fun t =>
       t.t.sys = s.t.sys ∧
       WritesMem (wFe (winFor s base)) (((List.range 16).filter fun k => lane s x.q k).map fun (k : Nat) =>
         let o := locOf s (base + (k : Int) * stride).toNat
         (o.1, o.2, (List.range 16).flatMap fun j => natLe 4 (rv s (x.d + j) k).toNat)) s t)) ∧
  (∀ (s : State) (x : V),
     ((∀ j, j < 16 → maskedV s (x.d + j) = false) → Pass (rowChecks s x true) →
       Completes (.vldt x) s fun t =>
         (∀ j k, j < 16 → k < 16 → vl t (x.d + j) k =
           if lane s x.q k then
             let o := locOf s (((rg s x.a).toNat : Int) + (k : Int) * (rg s x.b).toInt).toNat
             BitVec.ofNat 32 (leNat (readLoc s o.1 (o.2 + 4 * j) 4))
           else vl s (x.d + j) k) ∧
         (∀ n k, k < 16 → (n < x.d ∨ x.d + 16 ≤ n) → vl t n k = vl s n k) ∧
         t.t = { s.t with regs := { s.t.regs with v := t.t.regs.v }, bun := t.t.bun } ∧ SameRestW s t ∧ SameMem s t) ∧
     ((rg s x.a).toNat ≤ 255 →
       let slot := (rg s x.a).toNat
       let old := FMap.get 0 s.t.spill slot
       let e := if spValid old then old else spFree s.t
       (spKind e = 1 → (∃ m ∈ s.t.mx.queue, m.c = spAcc e) → exec (.vspl x) s = .next (stall (.mwait (some (spAcc e))) s)) ∧
       ((spKind e = 1 → ∀ m ∈ s.t.mx.queue, m.c ≠ spAcc e) → (s.t.bun.blk = none ∨ spKind e ≠ 0) → Completes (.vspl x) s fun t =>
         FMap.get 0 t.t.spill slot = e ∧ spRead t.t slot e = vBytes s x.d ∧ SameRestW s t ∧
         t.t = { spWrite { s.t with spill := t.t.spill } slot e (vBytes s x.d) with bun := t.t.bun }) ∧
       (∀ b, s.t.bun.blk = some b → spKind e = 0 → Completes (.vspl x) s fun t =>
         FMap.get 0 t.t.spill slot = e ∧ t.t = { s.t with spill := t.t.spill, bun := t.t.bun } ∧ SameRest s t ∧
         ∃ b', t.t.bun.blk = some b' ∧ b'.effs = b.effs ++ [.write s.cur [(spOff s.t slot, vBytes s x.d)] false]) ∧
       let was := FMap.get 0 (preTile s.t).spill slot
       (maskedV s x.d = false → spValid was = true → (spKind was = 0 → poisonedLoc s s.cur (spOff s.t slot) 64 = false) →
         Completes (.vfil x) s fun t => OnlyVB x.d s t ∧
           let d := if spKind was = 0 then readLoc s s.cur (spOff s.t slot) 64 else spRead (preTile s.t) slot was
           ∀ k, k < 16 → vl t x.d k = BitVec.ofNat 32 (leNat ((d.drop (4 * k)).take 4))) ∧
       (maskedV s x.d = false → spValid was = false →
         Completes (.vfil x) s fun t => t.free = s.free + 1 ∧
           ∀ k, k < 16 → vl t x.d k = Config.lane (16 * s.free + k))) ∧
     (255 < (rg s x.a).toNat →
       exec (.vspl x) s = .next (raise (tr cLocalRange (rg s x.a).toNat) s) ∧
       exec (.vfil x) s = .next (raise (tr cLocalRange (rg s x.a).toNat) s)))

/-! ## Traps -/

/-- R65, R66, R42: a trap of a bundle of one syllable is taken at once, with the syllable's position in SUB (an asynchronous ECC_LOCAL that a syllable's fetch meets has none, R87); in a bundle of several the better
of the two is kept, and nothing of the tile's registers, memory or tasks changes until the bundle closes.
Model's choices: logs 15, 16, 107.
R65, R66: of several precise causes of a syllable the first of the list in R65 is raised: it has the least rank of all whose condition
holds, and with none there is no trap.
R65: the order of the causes, as their list gives it. -/
def Obligations.RaisingATrap : Prop :=
  (∀ (s : State) (ti : TrapInfo),
     let ti' := if ti.cause = 0x0B then ti else { ti with sub := ti.sub + s.t.bun.pos }
     (s.t.bun.coll = false → s.t.bun.blk = none → raise ti s = takeTrapAt s.cur ti' 0 s.t.bun.addr false false s) ∧
     (s.t.bun.coll = true →
       (raise ti s).t = { s.t with bun := { s.t.bun with trap := (raise ti s).t.bun.trap } } ∧ SameRest s (raise ti s) ∧
       match s.t.bun.trap with
       | none => (raise ti s).t.bun.trap = some (s.t.bun.pos, ti')
       | some (pos, o) => (raise ti s).t.bun.trap =
           if rank ti.cause < rank o.cause ∨ (rank ti.cause = rank o.cause ∧ s.t.bun.pos < pos) then some (s.t.bun.pos, ti')
           else some (pos, o))) ∧
  (∀ l : List (Bool × TrapInfo),
     (firstTrap l = none ↔ ∀ e ∈ l, e.1 = false) ∧
     ∀ x, firstTrap l = some x → (true, x) ∈ l ∧ ∀ e ∈ l, e.1 = true → rank x.cause ≤ rank e.2.cause) ∧
  (List.Pairwise (fun a b => rank a < rank b)
     [cIllegalBundle, cIllegalOp, cIllegalReg, cPriv, cWindow, cLocalRange, cAlign, cBank, cTable, cPoison, cBundleMem, cTenant, cGroup,
      cTrapi, cBkpt, cYoke])

/-- R226, R227, R30: taking a trap on a tile that is in no yoke: FAULTC, FAULTA, the record held, the held sends discarded, the fault record
sent to the pager, the tile at its task boundary; nothing else of the device's memory or of another tile changes.
Model's choices: logs 22, 106.
R91, R92: TRAP raises TRAPI with its code in SUB[25:16], BKPT raises BKPT. -/
def Obligations.TakingATrap : Prop :=
  (∀ (s : State) (p : Nat) (ti : TrapInfo) (skid baddr : Nat) (blk asy : Bool), (s.tile p).yk.st = .single →
     TrapTaken p ti skid baddr blk asy s (takeTrapAt p ti skid baddr blk asy s)) ∧
  (∀ (s : State) (x : R),
     (GuardOn x.g x.n s → Alone s → Traps (.trap x) s { cause := 0x0D, sub := (x.a * 32 + x.b) * 2 ^ 16 } ∧ Traps (.bkpt x) s { cause := 0x0E }) ∧
     (¬GuardOn x.g x.n s → exec (.trap x) s = .next s ∧ exec (.bkpt x) s = .next s))

/-! ## System registers -/

/-- R89, R28: MFS puts the value that an assigned register had before the bundle into g[D] (in a yoked block FRM and the windows have the
values that its earlier bundles gave them, R90); an unassigned number traps ILLEGAL_OP whatever
the guard, and a register that only firmware reads traps PRIV in a user task.
Model's choices: logs 9, 11, 27, 112.
R28, R86, R90, R104, R113, R163, R430: what MFS finds in the registers that hold what was last written to them. -/
def Obligations.MfsResults : Prop :=
  (∀ (s : State) (x : R),
     let n := x.a * 32 + x.b
     (sysAssigned n = false → exec (.mfs x) s = .next (raise (tr cIllegalOp) s)) ∧
     (GuardOn x.g x.n s → sysAssigned n = true → sysReadPriv n = true → s.t.sys.fw = false →
       exec (.mfs x) s = .next (raise (tr cPriv) s)) ∧
     (GuardOn x.g x.n s → maskedG s x.d = false → sysAssigned n = true → (sysReadPriv n = false ∨ s.t.sys.fw = true) →
       SetsG (.mfs x) s x.d (sysRead s s.cur (mfsSys s.t) n))) ∧
  (∀ (s : State) (p : Nat) (y : Sys),
     let r (n : Nat) := sysRead s p y n
     (r 0).toNat = s.placeOf p % 2 ^ 64 ∧ (r 1).toNat = y.cid % 4096 + (if y.fw then 4096 else 0) ∧ r 2 = y.imgid ∧ r 4 = y.actw ∧
     (r 6).toNat = s.gtime ∧ r 8 = BitVec.ofNat 64 y.frm.toNat ∧ r 9 = BitVec.ofNat 64 y.vflags.toNat ∧
     (∀ k, k < 16 → r (0x10 + k) = FMap.get 0 y.wd k) ∧ (∀ k, k < 4 → r (0x20 + k) = FMap.get 0 y.dts k) ∧
     r 0x30 = y.trbase ∧ r 0x31 = y.trsize ∧ r 0x32 = y.eagermax ∧ r 0x33 = y.spbase ∧ r 0x34 = y.stktop ∧
     r 0x40 = y.lstart ∧ r 0x41 = y.lend ∧ r 0x42 = y.lcount ∧ r 0x50 = y.kdim ∧ r 0x51 = y.msa ∧ r 0x52 = y.msb ∧ r 0x53 = y.msd ∧
     (∀ k, k < 4 → r (0x60 + k) = FMap.get 0 y.wpa k ∧ r (0x64 + k) = FMap.get 0 y.wpc k) ∧
     r 0x70 = y.faultc ∧ r 0x71 = y.faulta ∧ r 0xA0 = y.caps0 ∧ (∀ k, k < 256 → r (0x100 + k) = FMap.get 0 y.dacct k))

/-- R89, R28, R29: MTS writes an assigned register that the task may write with a value inside its limits; what MFS then finds is the value
(FRM keeps two bits, VFLAGS loses the bits written as 1, a read-only register keeps its value). A user task that writes another's
register traps PRIV, a value outside the limits ILLEGAL_OP, a bad window WINDOW.
Model's choices: logs 11, 26, 97.
R89, R32, R430: the writes whose access is not plain: a sticky flag, the capability cursor, a watchpoint's HIT bit. -/
def Obligations.MtsResults : Prop :=
  (∀ (s : State) (x : R), GuardOn x.g x.n s →
     let n := x.a * 32 + x.b
     let v := rg s x.d
     let lim := sysLimit s.t n v
     let priv := sysWritePriv n && !s.t.sys.fw
     let win := decide (0x11 ≤ n) && decide (n < 0x20) && !wdOk v.toNat
     (sysAssigned n = true → lim = false → priv = false → win = false →
       Completes (.mts x) s fun t =>
         t.t = { s.t with sys := t.t.sys } ∧ SameRest s t ∧ SameMem s t ∧
         (n = 8 → t.t.sys = { s.t.sys with frm := BitVec.ofNat 2 v.toNat }) ∧
         (n = 9 → s.t.bun.raised = 0 → t.t.sys = { s.t.sys with vflags := s.t.sys.vflags &&& ~~~ BitVec.ofNat 5 v.toNat }) ∧
         (0x11 ≤ n → n < 0x20 → FMap.get 0 t.t.sys.wd (n - 0x10) = v) ∧
         (n = 0x30 → t.t.sys = { s.t.sys with trbase := v }) ∧ (n = 0x31 → t.t.sys = { s.t.sys with trsize := v }) ∧
         (n = 0x32 → t.t.sys = { s.t.sys with eagermax := v }) ∧ (n = 0x33 → t.t.sys = { s.t.sys with spbase := v }) ∧
         (n = 0x34 → t.t.sys = { s.t.sys with stktop := v }) ∧ (n = 0x40 → t.t.sys = { s.t.sys with lstart := v }) ∧
         (n = 0x41 → t.t.sys = { s.t.sys with lend := v }) ∧ (n = 0x42 → t.t.sys = { s.t.sys with lcount := v }) ∧
         (n = 0x50 → t.t.sys = { s.t.sys with kdim := v }) ∧ (n = 0x51 → t.t.sys = { s.t.sys with msa := v }) ∧
         (n = 0x52 → t.t.sys = { s.t.sys with msb := v }) ∧ (n = 0x53 → t.t.sys = { s.t.sys with msd := v }) ∧
         (n = 0xA0 → t.t.sys = { s.t.sys with caps0 := v }) ∧
         (n = 0x70 → t.t.sys = { s.t.sys with faultc := v }) ∧
         (n = 0x71 → t.t.sys = { s.t.sys with faulta := v &&& 0xFFFFFFFF00007FFF }) ∧
         (∀ k, k < 4 → n = 0x60 + k → t.t.sys = { s.t.sys with wpa := t.t.sys.wpa } ∧
           (FMap.get 0 t.t.sys.wpa k).toNat = v.toNat % 2 ^ 21 ∧ ∀ j, j ≠ k → FMap.get 0 t.t.sys.wpa j = FMap.get 0 s.t.sys.wpa j) ∧
         (∀ k, k < 4 → n = 0x64 + k → t.t.sys = { s.t.sys with wpc := t.t.sys.wpc } ∧
           (∀ j, j ≠ k → FMap.get 0 t.t.sys.wpc j = FMap.get 0 s.t.sys.wpc j) ∧
           let old := (FMap.get 0 s.t.sys.wpc k).toNat
           let new := (FMap.get 0 t.t.sys.wpc k).toNat
           bits new 4 0 = bits v.toNat 4 0 ∧ bits new 12 8 = bits v.toNat 12 8 ∧ bit new 16 = bit v.toNat 16 ∧
           bit new 17 = (bit old 17 && !bit v.toNat 17) ∧ bits new 7 5 = 0 ∧ bits new 15 13 = 0 ∧ bits new 63 18 = 0) ∧
         (n < 8 ∨ n = 0x10 ∨ (0x20 ≤ n ∧ n < 0x24) ∨ n = 0x80 ∨ (0xA1 ≤ n ∧ n < 0xB0) ∨ 0x100 ≤ n → t.t.sys = s.t.sys)) ∧
     (sysAssigned n = true → lim = true → exec (.mts x) s = .next (raise (tr cIllegalOp) s)) ∧
     (sysAssigned n = true → lim = false → priv = true → win = false → exec (.mts x) s = .next (raise (tr cPriv) s)) ∧
     (sysAssigned n = true → lim = false → priv = false → win = true → exec (.mts x) s = .next (raise (tr cWindow) s))) ∧
  (∀ s : State,
     (∀ mask, s.t.bun.raised = 0 → Completes (.vflagsClear mask) s fun t =>
       t.t = { s.t with sys := { s.t.sys with vflags := s.t.sys.vflags &&& ~~~ BitVec.ofNat 5 mask } } ∧ SameRest s t) ∧
     (∀ val, val % 8 = 0 → val < 2 ^ 16 → Completes (.caps0Write val) s fun t =>
       t.t = { s.t with sys := { s.t.sys with caps0 := BitVec.ofNat 64 val } } ∧ SameRest s t) ∧
     (∀ val, val < 2 ^ 64 → (val % 8 ≠ 0 ∨ 2 ^ 16 ≤ val) → exec (.caps0Write val) s = .next (raise (tr cIllegalOp) s)) ∧
     (∀ k val, k < 4 → val < 2 ^ 64 → bits val 12 8 ≤ 21 → Completes (.wpcHitClear k val) s fun t =>
       t.t = { s.t with sys := { s.t.sys with wpc := t.t.sys.wpc } } ∧ SameRest s t ∧
       let old := (FMap.get 0 s.t.sys.wpc k).toNat
       let new := (FMap.get 0 t.t.sys.wpc k).toNat
       (bit val 17 = true → bit new 17 = false) ∧ (bit val 17 = false → bit new 17 = bit old 17) ∧
       bits new 4 0 = bits val 4 0 ∧ bits new 12 8 = bits val 12 8 ∧ bit new 16 = bit val 16 ∧
       ∀ j, j ≠ k → FMap.get 0 t.t.sys.wpc j = FMap.get 0 s.t.sys.wpc j))

/-- R93, R94, R95 to R98, R117, R118: SLEEP gives the counters it has seen, or zero past its deadline, and else waits; AALLOT and VALLOT
change the allotment and give the old one; WDSET writes a window and gives the old descriptor; TLOAD loads and validates a table, whose
header it gives.
Model's choices: logs 24, 91, 97.
R118, R106: TLOAD's image: every code of the table reads the image's word (a 4-bit table only codes 0 to 15, the rest the NaN mark),
and the other tables stay. -/
def Obligations.AllotAndTableResults : Prop :=
  (∀ (s : State) (x : R), GuardOn x.g x.n s → maskedG s x.d = false →
     let a := (rg s x.a).toNat
     let b := (rg s x.b).toNat
     (∀ seen, wokenVal s = some seen → SetsG (.sleep x) s x.d (BitVec.ofNat 64 seen)) ∧
     (wokenVal s = none → a ≤ s.gtime → rg s x.a ≠ BitVec.allOnes 64 → SetsG (.sleep x) s x.d 0) ∧
     (wokenVal s = none → (s.gtime < a ∨ rg s x.a = BitVec.allOnes 64) →
       Completes (.sleep x) s fun t => t.t = { s.t with wait := s.t.wait ++ [(s.t.bun.pos, .sleep a b 0)] } ∧ SameRest s t) ∧
     (a ≤ 16 → Alone s → queueNames s.t (Nat.min a s.t.sys.aa) (Nat.max a s.t.sys.aa) = false →
       Completes (.aallot x) s fun t => rg t x.d = (if x.d = 0 then 0 else BitVec.ofNat 64 s.t.sys.aa) ∧ t.t.sys.aa = a ∧
         SameRest s t ∧ ∀ k, k ≠ x.d → rg t k = rg s k) ∧
     (a ≤ 16 → Alone s → queueNames s.t (Nat.min a s.t.sys.aa) (Nat.max a s.t.sys.aa) = true →
       Completes (.aallot x) s fun t =>
         t.t = { s.t with wait := s.t.wait ++ [(s.t.bun.pos, .allot (Nat.min a s.t.sys.aa) (Nat.max a s.t.sys.aa))] } ∧ SameRest s t) ∧
     ((a = 8 ∨ a = 16 ∨ a = 24 ∨ a = 32) → Alone s →
       Completes (.vallot x) s fun t => rg t x.d = (if x.d = 0 then 0 else BitVec.ofNat 64 s.t.sys.va) ∧ t.t.sys.va = a ∧
         SameRest s t ∧ ∀ k, k ≠ x.d → rg t k = rg s k) ∧
     (s.t.bun.blk ≠ none → exec (.aallot x) s = .next (raise (yokeTrap 4) s) ∧ exec (.vallot x) s = .next (raise (yokeTrap 4) s)) ∧
     (16 < a → s.t.bun.blk = none → exec (.aallot x) s = .next (raise (tr cIllegalOp) s)) ∧
     (a ≠ 8 → a ≠ 16 → a ≠ 24 → a ≠ 32 → s.t.bun.blk = none → exec (.vallot x) s = .next (raise (tr cIllegalOp) s)) ∧
     (0 < b → b < 16 → wdOk a = true →
       Completes (.wdset x) s fun t =>
         rg t x.d = (if x.d = 0 then 0 else FMap.get 0 s.t.sys.wd b) ∧ (∀ k, k ≠ x.d → rg t k = rg s k) ∧
         t.t = { s.t with regs := { s.t.regs with g := t.t.regs.g }, sys := { s.t.sys with wd := t.t.sys.wd } } ∧ SameRest s t ∧
         ∀ k, FMap.get 0 t.t.sys.wd k = if k = b then rg s x.a else FMap.get 0 s.t.sys.wd k) ∧
     ((b = 0 ∨ 15 < b ∨ wdOk a = false) → exec (.wdset x) s = .next (raise (tr cWindow) s)) ∧
     (let n := b % 4
      let len := if bit b 2 then 64 else 1024
      let o := bits a 20 0
      tloadBad b = false → Pass (win0Checks s (rg s x.a) len 4 true) → queueTable s.t n = false →
       Completes (.tload x) s fun t =>
         let y := loadTable s.t.sys b fun c => Mem.le (preSram s.t) (o + 4 * c) 4
         rg t x.d = (if x.d = 0 then 0 else FMap.get 0 t.t.sys.dts n) ∧ (∀ k, k ≠ x.d → rg t k = rg s k) ∧
         t.t = { s.t with regs := { s.t.regs with g := t.t.regs.g }, sys := { s.t.sys with tbl := y.tbl, dts := y.dts } } ∧
         SameRestW s t ∧ SameMem s t) ∧
     (tloadBad b = false → Pass (win0Checks s (rg s x.a) (if bit b 2 then 64 else 1024) 4 true) → queueTable s.t (b % 4) = true →
       Completes (.tload x) s fun t =>
         t.t = { s.t with wait := s.t.wait ++ [(s.t.bun.pos, .tload (b % 4))] } ∧ SameRest s t)) ∧
  (∀ (y : Sys) (gb : Nat) (img : Nat → Nat), tloadBad gb = false →
     let z := loadTable y gb img
     (∀ c, c < 256 → tblEntry z (gb % 4) c = if bit gb 2 = true ∧ 16 ≤ c then 0x80000000 else img c % 2 ^ 32) ∧
     (∀ t c, t ≠ gb % 4 → t < 4 → c < 256 → tblEntry z t c = tblEntry y t c) ∧
     (∀ t, t ≠ gb % 4 → FMap.get 0 z.dts t = FMap.get 0 y.dts t))

/-! ## Tasks -/

/-- R232 to R235, R237: the task instructions. TBIND binds a slot to the three words at its address, which it reads as a load does,
and gives the old word 0; TUNBIND unbinds
it; TARM sets a counter and clears the flags named; TKICK is one decrement; TSPAWN makes a record and gives 0, 1 without a free record, 2 for
an unbound slot; TSTAT reads. A slot or counter above 63 traps ILLEGAL_OP.
Model's choices: logs 12, 97, 110.
R224, R236, R218: the end of an activation. TEND frees the running record, with records for PENDING slots then made; TYIELD turns it into a
queued record with cause 2 and the continuation entry; both release the held sends, as far as no fence holds them, count their bundle for a loop (R88), stop the watchdog's count (R225) and leave the
tile at its task boundary. TCOMMIT
releases them and makes the task Exposed.
Model's choices: log 106.
R217, R218: one decrement of counter `i`. A counter above 1 falls by one; at 0 it stays and OVERRUN is set; at 1 there is a zero event: a
bound slot with AR reloads, and then either OVERRUN is set where an event already waits, or the slot's record is made with cause 0, or the
event waits in PENDING where the slot is unbound or no record is free. -/
def Obligations.TaskInstructionResults : Prop :=
  (∀ (s : State) (x : R), GuardOn x.g x.n s → maskedG s x.d = false →
     let a := rg s x.a
     let i := a.toNat
     let k := s.t.task
     let d := FMap.get {} k.slots i
     let o := bits (rg s x.b).toNat 20 0
     let w (j : Nat) : Nat := Mem.le (preSram s.t) (o + 8 * j) 8
     let img : Slot := ⟨true, bit (w 0) 49, bit (w 0) 48, bits (w 0) 47 32, bits (w 0) 17 16, bits (w 0) 14 0, bits (w 1) 15 0, BitVec.ofNat 64 (w 2)⟩
     (i < 64 → Pass (win0Checks s (rg s x.b) 24 8 true) → imageOk k (w 0) (w 1) = true →
       Completes (.tbind x) s fun t => (∃ u, OnlyGTask x.d s u ∧ t = { u with agenda := t.agenda }) ∧ rg t x.d = (if x.d = 0 then 0 else BitVec.ofNat 64 (slotWord0 d)) ∧
         FMap.get {} t.t.task.slots i = img ∧
         ∀ j, j ≠ i → FMap.get {} t.t.task.slots j = FMap.get {} k.slots j) ∧
     (i < 64 → Completes (.tunbind x) s fun t => OnlyGTask x.d s t ∧
       rg t x.d = (if x.d = 0 then 0 else BitVec.ofNat 64 (slotWord0 d)) ∧
       FMap.get {} t.t.task.slots i = { d with bound := false } ∧ (∀ j, j ≠ i → FMap.get {} t.t.task.slots j = FMap.get {} k.slots j) ∧
       t.t.task = { k with slots := t.t.task.slots }) ∧
     (i < 1024 → bits i 7 6 = 0 → (rg s x.b).toNat < 65536 →
       let c := FMap.get {} k.ctrs (i % 64)
       Completes (.tarm x) s fun t => OnlyGTask x.d s t ∧ rg t x.d = (if x.d = 0 then 0 else BitVec.ofNat 64 (ctrWord c)) ∧
         t.t.task = { k with ctrs := t.t.task.ctrs } ∧
         FMap.get {} t.t.task.ctrs (i % 64) = { c with count := (rg s x.b).toNat, overrun := c.overrun && !bit i 8, pending := c.pending && !bit i 9 } ∧
         ∀ j, j ≠ i % 64 → FMap.get {} t.t.task.ctrs j = FMap.get {} k.ctrs j) ∧
     (i < 64 → Completes (.tkick x) s fun t =>
       t.t.task = (decTask i { k with ctrs := FMap.put k.ctrs i { FMap.get {} k.ctrs i with info := none } }).1 ∧
       t.t = { s.t with task := t.t.task, wait := t.t.wait } ∧ t = { s with tiles := t.tiles, choices := t.choices } ∧
       ∀ p, p ≠ s.cur → t.tile p = s.tile p) ∧
     (i < 64 → d.bound = false → SetsG (.tspawn x) s x.d 2) ∧
     (i < 64 → d.bound = true → freeKey k.recs 128 = none → SetsG (.tspawn x) s x.d 1) ∧
     (∀ r, i < 64 → d.bound = true → freeKey k.recs 128 = some r →
       Completes (.tspawn x) s fun t => OnlyGTask x.d s t ∧ rg t x.d = 0 ∧
         FMap.get {} t.t.task.recs r =
           { seq := k.seq, entry := d.entry, cause := 1, prio := d.prio, slot := i, info := (FMap.get {} k.ctrs i).info : Rec } ∧
         t.t.task = { k with recs := t.t.task.recs, seq := k.seq + 1 }) ∧
     (x.b < 4 → (if x.b < 2 then i < 64 else i = 0) → SetsG (.tstat x) s x.d (BitVec.ofNat 64 (tstatWord s.t x.b i))) ∧
     (64 ≤ i →
       let bad := Host.Outcome.next (raise (tr cIllegalOp) s)
       exec (.tunbind x) s = bad ∧ exec (.tkick x) s = bad ∧ exec (.tspawn x) s = bad)) ∧
  (∀ (s : State) (x : R), GuardOn x.g x.n s →
     let k := s.t.task
     let out (t : State) : Prop := t.t.net.heldq = [] ∧ t.t.net.outq = s.t.net.outq ++ s.t.net.heldq.map (stamped s.t.mreq.seq)
     let ranOut : Run := { k.run with used := ranCycles s s.t, start := s.clk }
     let done (t : State) : Prop :=
       t.t.life = (if s.t.dbg.stepping then .stopped else boundaryLife s.t) ∧ out t ∧
       t.t.regs = s.t.regs ∧ t.t.sram = s.t.sram ∧ t.t.sys = { (loopEnd s.t.bun s.t.sys).2 with dacct := t.t.sys.dacct } ∧
       (∀ p, p ≠ s.cur → t.tile p = s.tile p) ∧ t.cur = s.cur ∧ t.fab.hbm = s.fab.hbm ∧ t.ctxs = s.ctxs
     (Alone s → Completes (.tend x) s fun t => done t ∧
       t.t.task = { drainPending { k with recs := FMap.drop k.recs k.run.idx } with run := ranOut }) ∧
     (Alone s → (rg s x.a).toNat ≤ 0x7FFF → Completes (.tyield x) s fun t => done t ∧
       t.t.task = { k with recs := t.t.task.recs, seq := k.seq + 1, run := ranOut } ∧
       (∀ r, r ≠ k.run.idx → FMap.get {} t.t.task.recs r = FMap.get {} k.recs r) ∧
       FMap.get {} t.t.task.recs k.run.idx = { FMap.get {} k.recs k.run.idx with
         run := false, cause := 2, entry := (rg s x.a).toNat, seq := k.seq, acct := false, restarts := 0 }) ∧
     (0x7FFF < (rg s x.a).toNat → s.t.bun.blk = none →
       exec (.tyield x) s = .next (raise (tr cLocalRange ((rg s x.a).toNat % 2 ^ 32)) s)) ∧
     (s.t.bun.blk ≠ none → exec (.tyield x) s = .next (raise (yokeTrap 4) s)) ∧
     (Completes (.tcommit x) s fun t => out t ∧ t.t.task = { k with run := { k.run with exposed := true } } ∧
       t.t.regs = s.t.regs ∧ t.t.sram = s.t.sram ∧ t.t.sys = s.t.sys ∧
       t = { s with tiles := t.tiles, fab := { s.fab with rankCache := t.fab.rankCache } } ∧ ∀ p, p ≠ s.cur → t.tile p = s.tile p)) ∧
  (∀ (k : Task) (i : Nat),
     let c := FMap.get {} k.ctrs i
     let d := FMap.get {} k.slots i
     let k' := (decTask i k).1
     let c' := FMap.get {} k'.ctrs i
     (2 ≤ c.count → k' = { k with ctrs := k'.ctrs } ∧ c' = { c with count := c.count - 1 } ∧ (decTask i k).2 = false) ∧
     (c.count = 0 → k' = { k with ctrs := k'.ctrs } ∧ c' = { c with overrun := true } ∧ (decTask i k).2 = false) ∧
     (c.count = 1 → (decTask i k).2 = true ∧ c'.count = (if d.bound && d.ar then d.reload else 0) ∧
       (c.pending = true → c'.pending = true ∧ c'.overrun = true ∧ c'.pinfo = c.pinfo ∧ k'.recs = k.recs) ∧
       (c.pending = false → c'.overrun = c.overrun ∧
         (d.bound = false → c'.pending = true ∧ c'.pinfo = c.info ∧ k'.recs = k.recs) ∧
         (d.bound = true → freeKey k.recs 128 = none → c'.pending = true ∧ c'.pinfo = c.info ∧ k'.recs = k.recs) ∧
         (∀ r, d.bound = true → freeKey k.recs 128 = some r → c'.pending = false ∧ k'.seq = k.seq + 1 ∧
           FMap.get {} k'.recs r = { seq := k.seq, entry := d.entry, cause := 0, prio := d.prio, slot := i, info := c.info, acct := true } ∧
           ∀ r', r' ≠ r → FMap.get {} k'.recs r' = FMap.get {} k.recs r'))) ∧
     (∀ j, j ≠ i → FMap.get {} k'.ctrs j = FMap.get {} k.ctrs j) ∧ k'.slots = k.slots)

/-- R221, R222, R223: dispatch on an Idle tile. The record chosen is of the highest level and the oldest of it (the oldest of all when DC
is 7); its task starts at its entry with g2 the stack top, g3 the argument, g4 ACTW and every other g register zero, the loop registers
zero; v, q and the allotted accumulators keep their values, the others too unless a slot was parked in one (R165); its first bundle issues
6 cycles later, and the watchdog counts from it (R225).
Model's choices: logs 5, 106.
R221: the choice. The chosen record is one of those offered, and no other is of a higher level, or of the same level and older; with DC
at 7 none is older. -/
def Obligations.DispatchStartsTask : Prop :=
  (∀ (s : State) (p r : Nat) (e : Rec), canDispatch (s.tile p) = true →
     chooseRec (s.tile p).task.dc (s.tile p).task.seq ((s.tile p).task.recs.filter fun e => !e.2.hold && !e.2.run) = some (r, e) →
     Completes (.taskDispatch p) s fun t =>
       let u := t.tile p
       let k := (s.tile p).task
       let d := FMap.get {} k.slots e.slot
       let asn := (k.asn + 1) % 2 ^ 32
       let g (n : Nat) : W64 := if n = 0 then 0 else FMap.get 0 u.regs.g n
       u.life = .running ∧ u.pc = e.entry ∧ g 2 = (s.tile p).sys.stktop ∧ g 3 = d.arg ∧ g 4 = u.sys.actw ∧
       (∀ n, n ≠ 2 → n ≠ 3 → n ≠ 4 → g n = 0) ∧ (∀ n, NSet.mem u.regs.p n = false) ∧
       u.regs.v = (s.tile p).regs.v ∧ u.regs.q = (s.tile p).regs.q ∧
       (accParked (s.tile p) = false → u.regs.acc = (s.tile p).regs.acc) ∧
       (∀ k, k < 1024 * (s.tile p).sys.aa → FMap.get 0 u.regs.acc k = FMap.get 0 (s.tile p).regs.acc k) ∧
       u.sys.actw = BitVec.ofNat 64 (asn * 2 ^ 32 + e.cause % 256 * 256 + e.prio % 4 * 64 + e.slot % 64) ∧
       u.sys.lstart = 0 ∧ u.sys.lend = 0 ∧ u.sys.lcount = 0 ∧ u.spill = [] ∧
       u.task.asn = asn ∧ u.task.dc = (k.dc + 1) % 8 ∧ u.task.run.slot = e.slot ∧ u.task.run.budget = d.budget ∧
       u.task.run.start = s.clk + 6 ∧ u.task.run.fresh = true ∧ u.task.run.used = 0 ∧ t.agenda = s.agenda ∧
       (FMap.get {} u.task.recs r).run = true ∧ u.sram = (s.tile p).sram ∧ (∀ q, q ≠ p → t.tile q = s.tile q) ∧ t.fab = s.fab) ∧
  (∀ (dc seq : Nat) (l : List (Nat × Rec)),
     (chooseRec dc seq l = none ↔ l = []) ∧
     ∀ b, chooseRec dc seq l = some b → b ∈ l ∧ ∀ a ∈ l,
       let age (r : Rec) : Nat := seq - r.seq
       if dc = 7 then age a.2 ≤ age b.2 else a.2.prio < b.2.prio ∨ (a.2.prio = b.2.prio ∧ age a.2 ≤ age b.2))

/-- R25, R27, R33 to R35, R225, R228, R379: the other steps of the tile's life: gating and ungating, the end of reset, an unrecoverable
fault (a member's leader takes its YOKE trap first, R314), the budget's watchdog, the pager's two answers and a fault record that a port keeps from it (R17), and the errors of the tile's memories.
Model's choices: logs 5, 6, 20, 106. -/
def Obligations.TileLifeEvents : Prop :=
  ∀ (s : State) (p : Nat),
    let t := s.tile p
    (t.life = .off → s.svc.boot = .ready → Completes (.tileUngate p) s fun u => (u.tile p).life = .reset ∧ (u.tile p).full = [] ∧ (u.tile p).poison = [] ∧
      (u.tile p).task = {} ∧ u.free = s.free + 0x20000 + 2 ^ 21 ∧ ∀ q, q ≠ p → u.tile q = s.tile q) ∧
    (t.life = .reset → s.svc.boot = .ready → Completes (.tileResetComplete p) s fun u => (u.tile p).life = .idle ∧ (∀ a, Mem.byte (u.tile p).sram a = 0) ∧
      (u.tile p).full = [] ∧ (u.tile p).poison = [] ∧ (u.tile p).regs = {} ∧ (u.tile p).task.slots = [] ∧ (u.tile p).task.recs = [] ∧ ∀ q, q ≠ p → u.tile q = s.tile q) ∧
    (s.svc.boot ≠ .ready → Completes (.tileUngate p) s fun u => u = s) ∧
    (mayGate t = false → t.life ≠ .off → t.pend.gate = false →
      Completes (.gateRequest p) s fun u => u.tile p = { t with pend := { t.pend with gate := true, gateSince := s.now } } ∧ u.fab = s.fab) ∧
    (mayGate t = true → FMap.get [] s.fab.trace (p / 16) = [] →
      Completes (.gateRequest p) s fun u => u.tile p = { life := .off } ∧ u.fab = s.fab) ∧
    (mayGate t = true → t.pend.gate = true → FMap.get [] s.fab.trace (p / 16) = [] →
      Completes (.forcedGate p) s fun u => u.tile p = { life := .off } ∧ u.fab = s.fab) ∧
    (mayGate t = true → FMap.get [] s.fab.trace (p / 16) ≠ [] → t.pend.gate = false →
      Completes (.gateRequest p) s fun u => (u.tile p).pend.gate = true ∧ (u.tile p).life = t.life) ∧
    (mayGate t = true → t.pend.gate = true → t.pend.gateSince + 20000 ≤ s.now →
      Completes (.forcedGate p) s fun u => u.tile p = { life := .off } ∧ FMap.get [] u.fab.trace (p / 16) = [] ∧
        FMap.get 0 u.fab.traceLost (p / 16) = (FMap.get [] s.fab.trace (p / 16)).length + FMap.get 0 s.fab.traceLost (p / 16)) ∧
    (t.life ≠ .off → t.life ≠ .faulted → Completes (.tileUnrecoverableFault p) s fun u =>
      (u.tile p).life = .faulted ∧ (u.tile p).resident = false ∧
      (t.yk.idx = 0 → t.yk.st = .single → u.agenda = (if t.place.isSome then [.ctxFault t.sys.cid] else []) ++ s.agenda) ∧
      (t.yk.idx ≠ 0 → t.place.isSome = true →
        let l := s.physOf t.sys.cid (s.placeOf p - t.yk.idx)
        u.agenda = (if t.yk.st = .yoked ∧ t.sys.cid = (s.tile l).sys.cid ∧ s.placeOf p / 16 = s.placeOf l / 16 ∧ t.yk.leader = s.placeOf l % 16 ∧ p ≠ l then [.memberFault l t.yk.idx, .thread l] else [])
          ++ .ctxFault t.sys.cid :: s.agenda)) ∧
    (t.life = .running → t.task.run.budget * 1024 ≤ ranCycles s t → (∀ x ∈ t.async, x.cause ≠ cBudget) →
      Completes (.budgetExpiry p) s fun u => (u.tile p).async = t.async ++ [{ cause := 0x0C }] ∧ (u.tile p).regs = t.regs) ∧
    (t.life = .running → Completes (.eccLocal p) s fun u => ∃ k, k < 65536 ∧ NSet.mem (u.tile p).poison k = true ∧
      (u.tile p).async = t.async ++ [{ cause := 0x0B, daddr := 32 * k }] ∧ (u.tile p).sram = t.sram) ∧
    (t.life = .running → Completes (.imemEccError p) s fun u => ∃ k, k < 0x8000 ∧
      NSet.mem (u.tile p).imemBad k = true ∧ (u.tile p).imem = t.imem) ∧
    (t.imemBad ≠ [] → (t.task.recs.any fun e => e.2.hold && e.2.imem) = true →
      ((t.imemBad.map fun e => e.1).all (repairable s t) = false → Completes (.imemRepair p) s fun u =>
        u.agenda = .ctxFault t.sys.cid :: s.agenda ∧
        (u.tile p).task = drainPending { t.task with recs := t.task.recs.filter fun e => !(e.2.hold && e.2.imem) }) ∧
      ((t.imemBad.map fun e => e.1).all (repairable s t) = true → Completes (.imemRepair p) s fun u =>
        u.agenda = s.agenda ∧ (u.tile p).task = t.task ∧ (∀ w, NSet.mem t.imemBad w = true → NSet.mem (u.tile p).imemBad w = false))) ∧
    (∀ r a w e, pagerEntry s p r a = some w → heldRec t r a = some e → t.resident = true →
      (mayRestart s t e = true → pagerStop s p = none → Completes (.pagerRestart p r a) s fun u =>
        FMap.get {} (u.tile p).task.recs r = { e with hold := false, cause := 3, restarts := e.restarts + 1 } ∧
        pagerEntry u p r a = none) ∧
      (mayRestart s t e = false → debugCause e.trapc = false → e.trapc ≠ cEccLocal → pagerStop s p = none → Completes (.pagerKill p r a) s fun u =>
        (u.tile p).task = drainPending { t.task with recs := FMap.drop t.task.recs r } ∧ pagerEntry u p r a = none ∧
        .ctxFault t.sys.cid ∈ u.agenda)) ∧
    (∀ r a w q, pagerEntry s p r a = some w → pagerStop s p = some q → Completes (.pagerKill p r a) s fun u =>
      u.tile p = t ∧ pagerEntry u p r a = none ∧ FMap.get 0 u.fab.isolation q = FMap.get 0 s.fab.isolation q + 1) ∧
    (∀ a w, pagerEntry s p 0xFFFFFFFF a = some w → heldRec t 0xFFFFFFFF a = none → pagerStop s p = none → Completes (.pagerKill p 0xFFFFFFFF a) s fun u =>
      .ctxFault t.sys.cid ∈ u.agenda ∧ pagerEntry u p 0xFFFFFFFF a = none ∧ u.tile p = s.tile p)

/-! ## The matrix unit -/

/-- R167, R172, R173, R175, R176, R178, R179: a matrix command whose checks pass enters the queue with everything it captured at issue, or its
bundle waits while 16 commands are held; nothing else changes.
Model's choices: logs 12, 18, 82, 113.
R172, R23, R46: what MMA checks, for a product with K ≠ 0 through windows of one family: both operands in the SRAM windows and inside SRAM,
their rows aligned, each operand in one bank group, the two in different ones, and the scale bytes of neither in the other's group.
Model's choices: log 113. -/
def Obligations.MatrixIssueResults : Prop :=
  (∀ (s : State) (x : X), GuardOn x.g x.n s →
     let y := preSys s.t
     let base : MCmd :=
       { c := x.c, a := bits (rg s x.a).toNat 20 0, b := bits (rg s x.b).toNat 20 0, wa := wdOf s.t (bits (rg s x.a).toNat 27 24),
         wb := wdOf s.t (bits (rg s x.b).toNat 27 24), kdim := y.kdim.toNat, msa := y.msa.toNat, msb := y.msb.toNat, msd := y.msd.toNat,
         job := s.t.mx.job, jn := s.t.mx.jn }
     let put (i : Instr) (m : MCmd) : Prop :=
       (s.t.mx.queue.length < 16 → Completes i s fun t =>
         t.t = { s.t with mx := { s.t.mx with queue := s.t.mx.queue ++ [m] } } ∧ SameRest s t) ∧
       (16 ≤ s.t.mx.queue.length → Completes i s fun t =>
         t.t = { s.t with wait := s.t.wait ++ [(s.t.bun.pos, .mqueue)] } ∧ SameRest s t)
     let mma (i : Instr) (op v3 : Nat) : Prop := Pass (mmaChecks s v3 x) → put i { base with op := op, v3 := v3 }
     let raw (i : Instr) (op v3 : Nat) : Prop := Pass (rawChecks s (v3 == 1) x) → put i { base with op := op, v3 := v3 }
     mma (.mma x) 1 0 ∧ mma (.mmat x) 1 1 ∧ mma (.mms x) 1 2 ∧ mma (.mmst x) 1 3 ∧
     mma (.mmaz x) 2 0 ∧ mma (.mmazt x) 2 1 ∧ mma (.mmsz x) 2 2 ∧ mma (.mmszt x) 2 3 ∧
     raw (.mldac x) 4 0 ∧ raw (.mldacf x) 4 1 ∧ raw (.mstac x) 5 0 ∧ raw (.mstacf x) 5 1 ∧
     put (.mzero x) { base with op := 3 } ∧ put (.mclrf x) { base with op := 11 } ∧
     (Pass (mdrnChecks s x) → put (.mdrn x) { base with op := 6, ce := bit (rg s x.b).toNat 7, cnt := (rg s x.b).toNat % 64 }) ∧
     ((rg s x.a).toNat < 2 ^ 38 →
       put (.mhad x) { base with op := 7, kdim := bits (rg s x.a).toNat 31 0, a := bits (rg s x.a).toNat 37 32 }) ∧
     (Pass (srcRowChecks s x) → put (.msclc x) { base with op := 8 } ∧ put (.maddr x) { base with op := 9 })) ∧
  (∀ (s : State) (v3 : Nat) (x : X),
     let y := preSys s.t
     let a := (rg s x.a).toNat
     let b := (rg s x.b).toNat
     let wa := wdOf s.t (bits a 27 24)
     let wb := wdOf s.t (bits b 27 24)
     let ra := rowsA wa (bits a 20 0) y.kdim.toNat y.msa.toNat
     let rb := rowsB wb (bits b 20 0) y.kdim.toNat y.msb.toNat (bit v3 0)
     y.kdim.toNat ≠ 0 →
     (Pass (mmaChecks s v3 x) ↔
       a < 2 ^ 28 ∧ b < 2 ^ 28 ∧ wFmt wa ≠ 0 ∧ wFmt wa ≠ 9 ∧ wFmt wb ≠ 0 ∧ wFmt wb ≠ 9 ∧ fmtFloat (wFmt wa) = fmtFloat (wFmt wb) ∧
       bits a 23 21 = 0 ∧ bits b 23 21 = 0 ∧ ra.past = false ∧ rb.past = false ∧ ra.misaligned = false ∧ rb.misaligned = false ∧
       ra.spans = false ∧ rb.spans = false ∧ bankOf ra.o ≠ bankOf rb.o ∧ ra.scaleIn (bankOf rb.o) = false ∧
       rb.scaleIn (bankOf ra.o) = false))

/-- From R171, R179, R180, R181: the matrix instructions that queue nothing. MCFG and MCFG.L set MK, MSA, MSB (and MCFG also MSD) where the
fields are in range. MRDF gives the accumulator's status where no queued command uses it, with PD and PSN set where an element of it is bad; MRDF and MWAIT of an accumulator wait while one
does, and MWAIT of all waits while the queue holds a command; a wait with nothing to wait for does nothing. MTSTJ gives 0 while a queued
command has the job number, and else 1. MJOB gives the job's number and begins the next; with CE it closes the job, whose counter is
decremented at once where no command of it is open.
R93, R96, R118, R131, R167, R179, R180, R181: the ends of the thread's waits and of jobs. -/
def Obligations.MatrixControlResults : Prop :=
  (∀ (s : State) (x : X), GuardOn x.g x.n s →
     let a := (rg s x.a).toNat
     let b := (rg s x.b).toNat
     (bits a 31 13 = 0 → bits a 63 53 = 0 → bits b 31 21 = 0 → bits b 63 53 = 0 → bits a 12 0 ≤ 4096 → bits a 12 0 % 4 = 0 →
       Completes (.mcfg x) s fun t => SameRest s t ∧ SameMem s t ∧
         t.t = { s.t with sys := { s.t.sys with kdim := BitVec.ofNat 64 (bits a 12 0), msa := BitVec.ofNat 64 (bits a 52 32), msb := BitVec.ofNat 64 (bits b 20 0), msd := BitVec.ofNat 64 (bits b 52 32) } }) ∧
     (∀ z : L, GuardOn z.g z.n s → z.imm ≤ 4096 → z.imm % 4 = 0 → (rg s z.a).toNat < 2 ^ 21 → (rg s z.b).toNat < 2 ^ 21 →
       Completes (.mcfgL z) s fun t => SameRest s t ∧ SameMem s t ∧
         t.t = { s.t with sys := { s.t.sys with kdim := BitVec.ofNat 64 z.imm, msa := rg s z.a, msb := rg s z.b } }) ∧
     (maskedG s x.a = false → accBusy s.t x.c = false → (s.t.accBad.any fun e => e.1 / 1024 == x.c) = false →
       SetsG (.mrdf x) s x.a (BitVec.ofNat 64 (FMap.get 0 s.t.regs.accst x.c))) ∧
     (maskedG s x.a = false → accBusy s.t x.c = false → (s.t.accBad.any fun e => e.1 / 1024 == x.c) = true →
       Completes (.mrdf x) s fun t => SameRest s t ∧ SameMem s t ∧
         t.t = { s.t with regs := { s.t.regs with g := t.t.regs.g, accst := t.t.regs.accst } } ∧ (∀ n, n ≠ x.a → rg t n = rg s n) ∧
         (∀ k, k ≠ x.c → FMap.get 0 t.t.regs.accst k = FMap.get 0 s.t.regs.accst k) ∧
         let w := FMap.get 0 t.t.regs.accst x.c
         rg t x.a = (if x.a = 0 then 0 else BitVec.ofNat 64 w) ∧ bit w 15 = true ∧ Nat.land w accPsn = accPsn) ∧
     (accBusy s.t x.c = true →
       (Completes (.mrdf x) s fun t => t.t = { s.t with wait := s.t.wait ++ [(s.t.bun.pos, .mrdf x.c)] } ∧ SameRest s t) ∧
       Completes (.mwaitAc x) s fun t => t.t = { s.t with wait := s.t.wait ++ [(s.t.bun.pos, .mwait (some x.c))] } ∧ SameRest s t) ∧
     (accBusy s.t x.c = false → exec (.mwaitAc x) s = .next s) ∧ (s.t.mx.queue = [] → exec (.mwait x) s = .next s) ∧
     (s.t.mx.queue ≠ [] → Completes (.mwait x) s fun t =>
       t.t = { s.t with wait := s.t.wait ++ [(s.t.bun.pos, .mwait none)] } ∧ SameRest s t) ∧
     (maskedG s x.a = false → b < 256 → SetsG (.mtstj x) s x.a (if s.t.mx.queue.any fun m => m.job == b then 0 else 1)) ∧
     (maskedG s x.a = false → b < 256 → bit b 6 = false → (bit b 7 = false ∨ jobOpen s.t s.t.mx.jn = true) →
       Completes (.mjob x) s fun t => SameRest s t ∧ rg t x.a = (if x.a = 0 then 0 else BitVec.ofNat 64 s.t.mx.job) ∧
         (∀ n, n ≠ x.a → rg t n = rg s n) ∧ t.t.mx.job = (s.t.mx.job + 1) % 256 ∧ t.t.mx.jn = s.t.mx.jn + 1 ∧ t.t.mx.queue = s.t.mx.queue ∧
         t.t.mx.closed = s.t.mx.closed ++ (if bit b 7 then [(s.t.mx.jn, true, b % 64)] else []) ∧ t.t.task = s.t.task) ∧
     (maskedG s x.a = false → b < 256 → bit b 6 = false → bit b 7 = true → jobOpen s.t s.t.mx.jn = false →
       Completes (.mjob x) s fun t => rg t x.a = (if x.a = 0 then 0 else BitVec.ofNat 64 s.t.mx.job) ∧
         t.t.mx.job = (s.t.mx.job + 1) % 256 ∧ t.t.mx.jn = s.t.mx.jn + 1 ∧ t.t.mx.closed = s.t.mx.closed ∧
         t.t.task = (decTask (b % 64) { s.t.task with
           ctrs := FMap.put s.t.task.ctrs (b % 64) { FMap.get {} s.t.task.ctrs (b % 64) with info := none } }).1)) ∧
  (∀ (s : State) (p : Nat),
     let t := s.tile p
     Wakes (.mwaitRelease p) s p (fun w => match w with
       | .mwait none => t.mx.queue.isEmpty
       | .mwait (some c) => !accBusy t c
       | _ => false) ∧
     Wakes (.mrdfRelease p) s p (fun w => match w with | .mrdf c => !accBusy t c | _ => false) ∧
     Wakes (.matrixQueueStallEnd p) s p (fun w => match w with | .mqueue => decide (t.mx.queue.length < 16) | _ => false) ∧
     Wakes (.allotStallEnd p) s p (fun w => match w with | .allot lo hi => !queueNames t lo hi | _ => false) ∧
     Wakes (.tloadWaitEnd p) s p (fun w => match w with | .tload n => !queueTable t n | _ => false) ∧
     Wakes (.fullWaitWake p) s p (fun w => match w with | .full l => l.all (NSet.mem t.full) | _ => false) ∧
     (∀ pos dl mask seen, t.wait = [(pos, .sleep dl mask seen)] → (seen ≠ 0 ∨ (dl ≤ s.gtime ∧ dl ≠ 2 ^ 64 - 1)) →
       Completes (.sleepWake p) s fun u => (u.tile p).wait = [] ∧ (u.tile p).woken = t.woken ++ [(pos, seen)] ∧
         u.agenda = .thread p :: s.agenda) ∧
     (∀ k j, findIdx (fun j : Nat × Bool × Nat => !jobOpen t j.1) t.mx.closed 0 = some (k, j) →
       Completes (.jobComplete p) s fun u => (u.tile p).mx = { t.mx with closed := dropAt t.mx.closed k } ∧
         (u.tile p).task = if j.2.1 then (decTask j.2.2 { t.task with
           ctrs := FMap.put t.task.ctrs j.2.2 { FMap.get {} t.task.ctrs j.2.2 with info := none } }).1 else t.task))

/-- R167, R173, R175, R178, R179: the head command completes. A product gives each of the 1,024 elements by the chunks of four of R173; MZERO
clears; MLDAC loads the words in SRAM; the passes of R178 work element by element; MCLRF clears the sticky bits alone. SRAM is only read; what a
command has read of it before its completion it takes as it was then. A command that reads a bad element sets PD.
Model's choices: logs 18, 99, 100, 114.
R175, R176, R177, R123: the commands that store. MSTAC writes the 32 rows of the accumulator as words, with MSTACF's trailer; MDRN writes
the encoded rows and their scale bytes and then decrements its counter; the accumulator keeps its elements, and no other byte changes. Sectors
that the drain has written before it completes (R297) are not written again.
R173: the integer product. Where no chunk's running sum leaves the 32-bit range, the element is the old one plus or minus the exact sum of
the products, and nothing saturates. -/
def Obligations.MatrixCompletions : Prop :=
  (∀ (s : State) (p : Nat) (m : MCmd),
     let t := s.tile p
     let done (i : Instr) (f : Nat → Nat → Nat) (more : State → Prop) : Prop :=
       Completes i s fun u => Completed p m.c s u ∧ (u.tile p).sram = t.sram ∧
         (∀ a b, a < 32 → b < 32 → accAt (u.tile p) m.c a b = f a b % 2 ^ 32) ∧ more u
     let pd (u : State) : Bool := bit (FMap.get 0 (u.tile p).regs.accst m.c) 15
     let v := m.early.view t
     let stale := t.accBad.any fun e => e.1 / 1024 == m.c
     (HeadIs s p [1, 2] m →
       let bad := (rowsA m.wa m.a m.kdim m.msa).poisoned v || (rowsB m.wb m.b m.kdim m.msb (bit m.v3 0)).poisoned v
       done (.mmaComplete p) (fun a b => if m.kdim = 0 ∨ fmtFloat (wFmt m.wa) = true then (mmaFloat v m a b).1 else (mmaInt v m a b).1)
         fun u => (bad = true ∨ (m.op = 1 ∧ stale = true)) → pd u = true) ∧
     (HeadIs s p [3] m → done (.mzeroComplete p) (fun _ _ => 0) fun u => pd u = false) ∧
     (HeadIs s p [4] m → done (.mldacComplete p) (fun a b => Mem.le v.sram (m.a + a * m.msd + 4 * b) 4) fun _ => True) ∧
     (HeadIs s p [7] m → done (.mhadComplete p) (fun a b => (hadOut t m a b).1) fun u => stale = true → pd u = true) ∧
     (HeadIs s p [8] m →
       done (.msclcComplete p) (fun a b => (fpMul f32 0 (f32.unpack (accAt t m.c a b)) (f32.unpack (Mem.le v.sram (m.a + 4 * b) 4))).1)
         fun u => (v.poisoned m.a 128 = true ∨ stale = true) → pd u = true) ∧
     (HeadIs s p [9] m →
       done (.maddrComplete p) (fun a b => (fpAdd f32 0 (f32.unpack (accAt t m.c a b)) (f32.unpack (Mem.le v.sram (m.a + 4 * b) 4))).1)
         fun u => (v.poisoned m.a 128 = true ∨ stale = true) → pd u = true) ∧
     (HeadIs s p [11] m → done (.mclrfComplete p) (fun a b => accAt t m.c a b) fun u =>
       let w := FMap.get 0 t.regs.accst m.c
       let w' := FMap.get 0 (u.tile p).regs.accst m.c
       Nat.land w' 0x1F1F = 0 ∧ bit w' 15 = bit w 15)) ∧
  (∀ (s : State) (p : Nat) (m : MCmd),
     let t := s.tile p
     let put (l : List (Nat × List Byte)) (x : Mem) : Mem := l.foldl (fun x e => Mem.setBytes x e.1 e.2) x
     (HeadIs s p [5] m → Completes (.mstacComplete p) s fun u => Completed p m.c s u ∧ (u.tile p).regs = (seeAccBad m.c t).regs ∧
       let l := (List.range 32).map (fun i => (m.a + i * m.msd, (List.range 32).flatMap fun j => natLe 4 (accAt t m.c i j))) ++
         (if m.v3 = 1 then [(m.a + 32 * m.msd, natLe 8 (FMap.get 0 (seeAccBad m.c t).regs.accst m.c) ++ natLe 8 0)] else [])
       (m.wrote = [] → (u.tile p).sram = put l t.sram) ∧
       ∀ a, (∀ e ∈ l, a < e.1 ∨ e.1 + e.2.length ≤ a) → Mem.byte (u.tile p).sram a = Mem.byte t.sram a) ∧
     (HeadIs s p [6] m → Completes (.mdrnComplete p) s fun u => Completed p m.c s u ∧ (u.tile p).regs.acc = t.regs.acc ∧
       let r := drainRows m.wa m.a m.msd
       let data := (List.range 32).map fun i => (r.at i, packRow m.wa ((drainRow t m i).1.map (·.1)))
       let scales := ((List.range 32).filter fun i => !(drainRow t m i).2.isEmpty).map fun i =>
         ((r.scale i).1, (drainRow t m i).2.flatMap (natLe 1))
       (m.wrote = [] → (u.tile p).sram = put scales (put data t.sram)) ∧
       (∀ a, (∀ e ∈ data ++ scales, a < e.1 ∨ e.1 + e.2.length ≤ a) → Mem.byte (u.tile p).sram a = Mem.byte t.sram a) ∧
       (u.tile p).task = if m.ce then (decTask m.cnt { t.task with
         ctrs := FMap.put t.task.ctrs m.cnt { FMap.get {} t.task.ctrs m.cnt with info := none } }).1 else t.task)) ∧
  (∀ (t : Tile) (m : MCmd) (i j : Nat),
     let prod (k : Nat) : Int := elemInt t m.wa (m.a + i * m.msa) k * elemInt t m.wb (bPos m k j).1 (bPos m k j).2
     let part (n : Nat) : Int := (List.range (4 * n)).foldl (fun x k => x + prod k) 0
     let start : Int := if m.op = 2 then 0 else sext (accAt t m.c i j) 32
     let run (n : Nat) : Int := if bit m.v3 1 then start - part n else start + part n
     (∀ n, n ≤ m.kdim / 4 → -(2 ^ 31) ≤ run n ∧ run n < 2 ^ 31) →
       sext (mmaInt t m i j).1 32 = run (m.kdim / 4) ∧ (mmaInt t m i j).2 = false)

/-! ## Groups and messages -/

/-- R239, R244, R247: groups. GRANK gives the tile's rank or all ones where it is no member, GSIZE the size, GPLACE the place of a rank: by
arithmetic in an AFFINE group, from the rank cache in a LISTED one. An unbound group traps GROUP. The rank cache is filled from the list
sector that holds a missing rank, and the released sends that waited for it are resolved. The place of an AFFINE rank is, coordinate by coordinate, the base's and the digit times its stride.
Model's choices: log 30. -/
def Obligations.GroupResults : Prop :=
  (∀ (s : State) (x : R), GuardOn x.g x.n s → maskedG s x.d = false →
    let a := (rg s x.a).toNat
    let r := (rg s x.b).toNat
    let bound := decide (a ≤ 255) && NSet.mem s.t.comm.bound a
    (bound = false → exec (.grank x) s = .next (raise (tr 0x13) s) ∧ exec (.gsize x) s = .next (raise (tr 0x13) s) ∧
      exec (.gplace x) s = .next (raise (tr 0x13) s)) ∧
    (bound = true → memberOf s.t a = none → SetsG (.grank x) s x.d (BitVec.allOnes 64)) ∧
    (∀ k m, bound = true → memberOf s.t a = some (k, m) →
      SetsG (.grank x) s x.d (BitVec.ofNat 64 m.rank) ∧ SetsG (.gsize x) s x.d (BitVec.ofNat 64 m.desc.size) ∧
      (m.desc.size ≤ r → exec (.gplace x) s = .next (raise (tr 0x13) s)) ∧
      (r < m.desc.size → m.desc.kind = 1 → SetsG (.gplace x) s x.d (BitVec.ofNat 64 (affine m.desc.base m.desc.shape r).1)) ∧
      (∀ v, r < m.desc.size → m.desc.kind ≠ 1 → wokenVal s = some v → v < 2 ^ 32 → SetsG (.gplace x) s x.d (BitVec.ofNat 64 v)))) ∧
  (∀ base shape r : Nat, (affine base shape r).2 = true →
    let v := (affine base shape r).1
    let d (lo n : Nat) : Nat := r / 2 ^ lo % 2 ^ n
    let w0 := bits shape 2 0
    let w1 := bits shape 6 4
    let w2 := bits shape 9 8
    let w3 := bits shape 13 12
    v % 16 = base % 16 + d 0 w0 * bits shape 35 32 ∧ v / 16 % 8 = base / 16 % 8 + d w0 w1 * bits shape 38 36 ∧
    v / 128 % 4 = base / 128 % 4 + d (w0 + w1) w2 * bits shape 41 40 ∧ v / 512 % 4 = base / 512 % 4 + d (w0 + w1 + w2) w3 * bits shape 45 44 ∧
    v / 2048 = base / 2048 % 2 ^ 20 + d (w0 + w1 + w2 + w3) (bits shape 20 16) * bits shape 63 48) ∧
  (∀ (s : State) (p g r k : Nat) (m : Member) (d : List Byte), memberOf (s.tile p) g = some (k, m) → m.desc.kind = 2 → r < m.desc.size →
    m.desc.listva % 4 = 0 → resolve s p g r = none → wantsRank s p g r = true →
    vread s (s.tile p).sys.cid ((m.desc.listva + 4 * r) / 32 * 32) 32 true false false = .ok d →
    Completes (.rankCacheFill p g r) s fun t =>
      resolve t p g r = some (leNat ((d.drop ((m.desc.listva + 4 * r) % 32)).take 4)) ∧
      t = { s with tiles := t.tiles, fab := { s.fab with rankCache := t.fab.rankCache } } ∧ (∀ q, q ≠ p → t.tile q = s.tile q) ∧
      t.tile p = { s.tile p with net := { (s.tile p).net with sends := (t.tile p).net.sends } }) ∧
  (∀ (s : State) (p pos g r v : Nat), (s.tile p).wait = [(pos, .gplace g r)] → resolve s p g r = some v →
    Completes (.gplaceResolved p) s fun t => (t.tile p).wait = [] ∧ (t.tile p).woken = (s.tile p).woken ++ [(pos, v)] ∧
      t.agenda = .thread p :: s.agenda ∧ ∀ q, q ≠ p → t.tile q = s.tile q)

/-- From R201 to R207, the N-M instructions. RECV, RECVM and RECVM.FE post a receive; PROBE and PROBEM give the waiting message that matches, or
say that none does; RCANCEL cancels a posted receive (0) and answers 1 or 2 in the other states; RTEST gives the state word, RWAIT too once
the receive is over. SEND, SENDE, CSEND and SENDV make a send; CSEND outside firmware traps PRIV; a bad group or rank of a send traps GROUP.
XCHG posts and sends, or gives -1 or -2 without room; SQUERY gives a word of the network's state, its word 3 clearing the counts it gives.
Model's choices: logs 12, 31, 110. -/
def Obligations.MessageResults : Prop :=
  (∀ (s : State) (x : R), GuardOn x.g x.n s → maskedG s x.d = false → maskedG s x.a = false →
    let bw := (rg s x.a).toNat
    let ew := (rg s x.b).toNat
    let any := bit x.m 0
    let mask := if bit x.m 1 then 0 else 0xFFFFFFFF
    let ok := Pass (bwChecks bw)
    (ok → ewBad s.t ew true any = false → Posts (.recv x) s x.d bw (postEw ew any) mask (bit x.m 2)) ∧
    (ewBad s.t ew true any = false → matchUnexp s.t (postEw ew any) mask = none → x.a ≠ x.d → Completes (.probe x) s fun t =>
      rg t x.a = 0 ∧ rg t x.d = (if x.d = 0 then 0 else BitVec.allOnes 64) ∧ (∀ n, n ≠ x.a → n ≠ x.d → rg t n = rg s n) ∧
      t.t = { s.t with regs := { s.t.regs with g := t.t.regs.g } } ∧ SameRest s t) ∧
    (∀ k u, ewBad s.t ew true any = false → matchUnexp s.t (postEw ew any) mask = some (k, u) → x.a ≠ x.d → Completes (.probe x) s fun t =>
      rg t x.a = (if x.a = 0 then 0 else BitVec.ofNat 64 (u.length % 2 ^ 24 + (if u.state = 2 then 2 ^ 24 else 0))) ∧
      rg t x.d = (if x.d = 0 then 0 else BitVec.ofNat 64 u.ew) ∧ (∀ n, n ≠ x.a → n ≠ x.d → rg t n = rg s n) ∧
      t.t = { s.t with regs := { s.t.regs with g := t.t.regs.g } } ∧ SameRest s t) ∧
    (∀ k r, entryOf s.t bw = some (k, r) → r.state = 0 → Completes (.rcancel x) s fun t => OnlyGNet x.d s t ∧ rg t x.d = 0 ∧
      FMap.get {} t.t.net.recvs k = { FMap.get ({} : Recv) s.t.net.recvs k with state := 6 } ∧
      t.t.net = { s.t.net with recvs := t.t.net.recvs, rorder := s.t.net.rorder ++ [k] }) ∧
    (∀ k r, entryOf s.t bw = some (k, r) → 1 ≤ r.state → r.state ≤ 3 → SetsG (.rcancel x) s x.d 1) ∧
    (∀ k r, entryOf s.t bw = some (k, r) → 4 ≤ r.state → SetsG (.rcancel x) s x.d 2) ∧
    (entryOf s.t bw = none → SetsG (.rcancel x) s x.d 2 ∧ SetsG (.rtest x) s x.d (if x.b = 0 then 7 else 0) ∧
      SetsG (.rwait x) s x.d (if x.b = 0 then 7 else 0)) ∧
    (∀ k r, entryOf s.t bw = some (k, r) →
      let v : W64 := BitVec.ofNat 64 (if x.b = 0 then r.length % 2 ^ 24 * 256 + (if r.psn then 16 else 0) + r.state
        else if r.state = 0 ∨ r.state = 6 then 0 else r.ew)
      SetsG (.rtest x) s x.d v ∧ (4 ≤ r.state → SetsG (.rwait x) s x.d v)) ∧
    (x.d < 8 → ewBad s.t ew false false = false →
      (ok → MakesSend (.send x) s x.d (bufSend s.t bw ew (bit x.m 0) (bit x.m 1) false) false ∧
        MakesSend (.sende x) s x.d (bufSend s.t bw ew (bit x.m 0) (bit x.m 1) false) true ∧
        (s.t.sys.fw = true → MakesSend (.csend x) s x.d (bufSend s.t bw ew false false true) false)) ∧
      MakesSend (.sendv x) s x.d { bw := 64 * 2 ^ 32, ew := ew, vec := true, payload := vBytes s x.a } false) ∧
    (ewBad s.t ew false false = true → exec (.sendv x) s = .next (raise (tr 0x13) s)) ∧
    (ewBad s.t ew false false = true → ok → exec (.send x) s = .next (raise (tr 0x13) s) ∧ exec (.sende x) s = .next (raise (tr 0x13) s)) ∧
    (s.t.sys.fw = false → ok → ewBad s.t ew false false = false → exec (.csend x) s = .next (raise (tr 0x05) s)) ∧
    (let rbw := (rg s x.d).toNat
     ok → Pass (bwChecks rbw) → ewBad s.t ew false false = false →
      (freeRecvs s.t = [] → SetsG (.xchg x) s x.d (BitVec.ofInt 64 (-1))) ∧
      (freeRecvs s.t ≠ [] → freeSend s.t = none → SetsG (.xchg x) s x.d (BitVec.ofInt 64 (-2))) ∧
      (∀ k l e, freeRecvs s.t = k :: l → freeSend s.t = some e → matchUnexp s.t ew 0xFFFFFFFF = none → s.t.task.run.exposed = false →
        Completes (.xchg x) s fun t => OnlyGNet x.d s t ∧
          let gen := ((FMap.get ({} : Recv) s.t.net.recvs k).gen + 1) % 256
          rg t x.d = (if x.d = 0 then 0 else BitVec.ofNat 64 (k + gen * 256)) ∧
          FMap.get {} t.t.net.recvs k = { bw := rbw, ew := ew, mask := 0xFFFFFFFF, state := 0, gen := gen, seq := s.t.net.rseq : Recv } ∧
          FMap.get {} t.t.net.sends e = { bufSend s.t bw ew false false false with seq := s.t.net.sseq, state := 1, iss := s.t.mreq.seq } ∧
          t.t.net.heldq = s.t.net.heldq ++ [.send e])) ∧
    (x.b < 3 → SetsG (.squery x) s x.d (BitVec.ofNat 64 (squeryWord s.t x.b))) ∧
    (x.b = 3 → Completes (.squery x) s fun t => OnlyGNet x.d s t ∧
      rg t x.d = (if x.d = 0 then 0 else BitVec.ofNat 64 (s.t.net.trnack + s.t.net.rtrunc * 2 ^ 16 + s.t.net.strunc * 2 ^ 32)) ∧
      t.t.net = { s.t.net with trnack := 0, rtrunc := 0, strunc := 0 })) ∧
  (∀ (s : State) (x : L), GuardOn x.g x.n s → maskedG s x.d = false → maskedG s x.a = false →
    let bw := (rg s x.a).toNat
    let ew := (rg s x.b).toNat
    (Pass (bwChecks bw) → ewBad s.t ew true false = false →
      Posts (.recvm x) s x.d bw ew x.imm false ∧ Posts (.recvmFe x) s x.d bw ew x.imm true) ∧
    (ewBad s.t ew true false = false → matchUnexp s.t ew x.imm = none → x.a ≠ x.d → Completes (.probem x) s fun t =>
      rg t x.a = 0 ∧ rg t x.d = (if x.d = 0 then 0 else BitVec.allOnes 64) ∧ (∀ n, n ≠ x.a → n ≠ x.d → rg t n = rg s n) ∧
      t.t = { s.t with regs := { s.t.regs with g := t.t.regs.g } } ∧ SameRest s t) ∧
    (∀ k u, ewBad s.t ew true false = false → matchUnexp s.t ew x.imm = some (k, u) → x.a ≠ x.d → Completes (.probem x) s fun t =>
      rg t x.a = (if x.a = 0 then 0 else BitVec.ofNat 64 (u.length % 2 ^ 24 + (if u.state = 2 then 2 ^ 24 else 0))) ∧
      rg t x.d = (if x.d = 0 then 0 else BitVec.ofNat 64 u.ew) ∧ (∀ n, n ≠ x.a → n ≠ x.d → rg t n = rg s n) ∧
      t.t = { s.t with regs := { s.t.regs with g := t.t.regs.g } } ∧ SameRest s t))

/-- From R191 to R199, R205, R210, R382, R407, these steps of the network interface. EACK and DACK end their send and decrement its counter;
RACK marks it answered; CTS (of no bytes, or of at most 256) sets it sending and sends its DATA; POOLFULL defers it. An EAGER that matches a
receive is copied and acknowledged, one that matches none takes an entry and cells, one without room is answered POOLFULL; an RTS is
answered CTS or RACK likewise. DATA of one sector, not the last, is kept for its receive. A send whose turn it is leaves as EAGER or RTS; a
deferred one is resumed as RTS; a send over UE is deferred; a trough copy fills its buffer and frees its cells; RWAIT ends. A message or
reply for an absent tile is parked where there is room; else the overflow store grows, and past its limit, or with the reserve empty, the context
faults. A message of which some bytes have been written before its arrival (R297) ends its receive then; a send's source is read with the
sectors that were read early.
Model's choices: logs 31, 73, 85, 99, 110.
R187: of the compatible receives posted, and of the compatible messages waiting, the earliest is matched. -/
def Obligations.MessageEvents : Prop :=
  ((∀ (s : State) (n p : Nat) (m : Msg),
     let u := s.tile p
     let at_ (k : MKind) : Prop := arrival s n (· == k) = some (p, m)
     let x := FMap.get ({} : Send) u.net.sends m.sdesc
     let netless := dropAt s.fab.net n
     let ended (t : State) : Prop := Arrived n p s t ∧ KeepsMem p s t ∧ t.fab.net = netless ∧
       (t.tile p).net.sends = FMap.drop u.net.sends m.sdesc ∧
       (t.tile p).task = (if x.vec then u.task else counted (bwCntf x.bw) none u.task) ∧
       (t.tile p).net.strunc = if m.acc < m.len then Nat.min (u.net.strunc + 1) 0xFFFF else u.net.strunc
     let answer (k : MKind) (t : State) (acc : Nat) : Prop := ∃ c, t.fab.net = netless ++ [c] ∧ c.kind = k ∧ c.dst = m.src ∧ c.sdesc = m.sdesc ∧ c.acc = acc
     let fresh : Prop := m.wrote = [] ∧ m.resume = false ∧ m.replay = 0 ∧ FMap.get 0 u.net.refusal m.src = 0 ∧ u.net.overflow = 0
     (at_ .eack → x.state = 3 → Completes (.eackArrival n) s ended) ∧
     (at_ .dack → x.state = 4 → Completes (.dackArrival n) s ended) ∧
     (at_ .rack → x.state = 3 → Completes (.rackArrival n) s fun t => Arrived n p s t ∧ KeepsMem p s t ∧ t.fab.net = netless ∧
       (t.tile p).task = u.task ∧ (t.tile p).net.sends = FMap.put u.net.sends m.sdesc { x with answered := true }) ∧
     (at_ .cts → x.state = 3 → m.acc = 0 → Completes (.ctsArrival n) s fun t => Arrived n p s t ∧ KeepsMem p s t ∧ t.fab.net = netless ∧
       (t.tile p).task = u.task ∧
       FMap.get {} (t.tile p).net.sends m.sdesc = { x with state := 4, handle := m.handle, accepted := 0, sent := 0, answered := true }) ∧
     (at_ .cts → x.state = 3 → x.vec = false → 0 < m.acc → m.acc ≤ 256 → Completes (.ctsArrival n) s fun t => Arrived n p s t ∧ KeepsMem p s t ∧
       (∃ c, t.fab.net = netless ++ [c] ∧ c.kind = .data ∧ c.dst = x.dest ∧ c.handle = m.handle ∧ c.off = 0 ∧
         c.payload = Mem.bytes (x.early.view u).sram (bwOff x.bw) m.acc ∧ c.poison = (x.early.view u).poisoned (bwOff x.bw) m.acc) ∧
       FMap.get {} (t.tile p).net.sends m.sdesc =
         { x with state := 4, handle := m.handle, accepted := m.acc, sent := m.acc, answered := true }) ∧
     (at_ .poolFull → x.state = 3 → x.resume = false → Completes (.poolFullArrival n) s fun t => Arrived n p s t ∧ KeepsMem p s t ∧
       t.fab.net = netless ∧ FMap.get {} (t.tile p).net.sends m.sdesc = { x with state := 5, answered := true, rdv := true, early := {} } ∧
       NSet.mem (t.tile p).net.blocked x.dest = true) ∧
     (at_ .poolFull → x.state = 3 → x.resume = true → Completes (.poolFullArrival n) s fun t => Arrived n p s t ∧ KeepsMem p s t ∧
       t.fab.net = netless ∧ FMap.get {} (t.tile p).net.sends m.sdesc = { x with state := 5, answered := true, retry := s.gtime + 1000 }) ∧
     (∀ k r, at_ .eager → fresh → matchRecv u (msgEw m) = some (k, r) → Completes (.eagerArrival n) s fun t =>
       let d := m.payload.take (bwLen r.bw)
       Arrived n p s t ∧ answer .eack t (Nat.min m.len (bwLen r.bw)) ∧
       (t.tile p).sram = Mem.setBytes u.sram (bwOff r.bw) d ∧
       (∀ a, (a < bwOff r.bw ∨ bwOff r.bw + d.length ≤ a) → Mem.byte (t.tile p).sram a = Mem.byte u.sram a) ∧
       let e := FMap.get ({} : Recv) (t.tile p).net.recvs k
       e.state = (if bwLen r.bw < m.len then 5 else 4) ∧ e.length = m.len ∧ e.src = m.src ∧ e.ew = msgEw m) ∧
     (∀ j, at_ .eager → fresh → matchRecv u (msgEw m) = none → freeKey u.net.unexp 128 = some j → cellsFor m.len ≤ (freeCells u).length →
       Completes (.eagerArrival n) s fun t => Arrived n p s t ∧ answer .eack t m.len ∧
         let e := FMap.get ({} : Unexp) (t.tile p).net.unexp j
         e.ew = msgEw m ∧ e.length = m.len ∧ e.src = m.src ∧ e.state = 1 ∧ e.cells = (freeCells u).take (cellsFor m.len) ∧
         (∀ c ∈ e.cells, NSet.mem (t.tile p).net.cells c = true) ∧ (t.tile p).net.recvs = u.net.recvs ∧ (t.tile p).task = u.task) ∧
     (at_ .eager → m.wrote ≠ [] → Completes (.eagerArrival n) s fun t =>
       let k := m.handle % 256
       let r := FMap.get ({} : Recv) u.net.recvs k
       let d := m.payload.take (bwLen r.bw)
       Arrived n p s t ∧ t.fab.net = netless ∧ (FMap.get ({} : Recv) (t.tile p).net.recvs k).state = (if bwLen r.bw < r.length then 5 else 4) ∧
       ∀ a, (a < bwOff r.bw ∨ bwOff r.bw + d.length ≤ a) → Mem.byte (t.tile p).sram a = Mem.byte u.sram a) ∧
     (at_ .eager → m.wrote = [] → m.resume = false → m.replay = 0 → (FMap.get 0 u.net.refusal m.src ≠ 0 ∨ u.net.overflow ≠ 0 ∨ hasRoom u m = false) →
       Completes (.eagerArrival n) s fun t => Arrived n p s t ∧ KeepsMem p s t ∧ (t.tile p).net.recvs = u.net.recvs ∧
         (t.tile p).net.unexp = u.net.unexp ∧ (t.tile p).net.trnack = Nat.min (u.net.trnack + 1) 0xFFFF ∧ answer .poolFull t 0) ∧
     (∀ k r, at_ .rts → fresh → matchRecv u (msgEw m) = some (k, r) → Nat.min m.len (bwLen r.bw) ≠ 0 → Completes (.rtsArrival n) s fun t =>
       Arrived n p s t ∧ KeepsMem p s t ∧ (t.tile p).task = u.task ∧ answer .cts t (Nat.min m.len (bwLen r.bw)) ∧
       let e := FMap.get ({} : Recv) (t.tile p).net.recvs k
       e.state = 2 ∧ e.length = m.len ∧ e.src = m.src ∧ e.sdesc = m.sdesc ∧ e.ew = msgEw m) ∧
     (∀ j, at_ .rts → fresh → matchRecv u (msgEw m) = none → freeKey u.net.unexp 128 = some j → Completes (.rtsArrival n) s fun t =>
       Arrived n p s t ∧ KeepsMem p s t ∧ (t.tile p).task = u.task ∧ answer .rack t 0 ∧
       let e := FMap.get ({} : Unexp) (t.tile p).net.unexp j
       e.ew = msgEw m ∧ e.length = m.len ∧ e.src = m.src ∧ e.state = 2 ∧ e.cells = []) ∧
     (∀ k r sec, at_ .data → m.wrote = [] → r.src < 2 ^ 32 → entryOf u m.handle = some (k, r) → r.state = 2 → r.held = [] →
       sectorsOf (bwOff r.bw + m.off) m.payload.length = [sec] → blockPart 32 r sec = (m.off, m.payload.length) →
       m.off + m.payload.length ≤ bwLen r.bw → r.done + m.payload.length < Nat.min r.length (bwLen r.bw) →
       Completes (.dataArrival n) s fun t => Arrived n p s t ∧ t.fab.net = netless ∧ (t.tile p).task = u.task ∧
         (t.tile p).sram = Mem.setBytes u.sram (bwOff r.bw + m.off) m.payload ∧
         FMap.get {} (t.tile p).net.recvs k =
           { r with state := 3, held := [(m.off, m.payload, m.poison)], done := r.done + m.payload.length, psn := r.psn || m.poison })) ∧
   (∀ (s : State) (p k : Nat), sends (s.tile p) = true →
     let u := s.tile p
     let x := FMap.get ({} : Send) u.net.sends k
     let e := FMap.get ({} : Unexp) u.net.unexp k
     let sent (kind : MKind) (resume : Bool) (t : State) : Prop := ∃ c, t.fab.net = s.fab.net ++ [c] ∧ c.kind = kind ∧ c.dst = x.dest ∧
       c.src = s.placeOf p ∧ c.len = sendLen x ∧ c.sdesc = k ∧ c.tag = ewTag x.ew ∧ c.grp = ewGrp x.ew ∧ c.resume = resume ∧
       (kind = .eager → x.vec = false → c.payload = Mem.bytes (x.early.view u).sram (bwOff x.bw) (bwLen x.bw)) ∧
       (kind = .eager → x.vec = true → c.payload = x.payload.take 64)
     ((∀ h ∈ u.net.outq, ∀ d, h = .send d → (FMap.get ({} : Send) u.net.sends d).res = true) → x.state = 2 → u.net.outq.contains (.send k) = true →
       fenceHolds u x.iss = false → bfenceHolds u x.iss = false → NSet.mem u.net.blocked x.dest = false → sendBefore u k x.dest = false →
       Completes (.sendEmit p k) s fun t => sent (if x.rdv then .rts else .eager) false t ∧
         FMap.get {} (t.tile p).net.sends k = { x with state := 3, answered := false, refseq := u.net.eseq, early := if x.rdv then x.early else {} } ∧
         (t.tile p).net.outq = u.net.outq.filter (· != .send k) ∧ (t.tile p).sram = u.sram ∧ (t.tile p).regs = u.regs) ∧
     (x.state = 5 → x.resume = true → x.retry ≤ s.gtime → Completes (.resumeRetry p k) s fun t => sent .rts true t ∧
       FMap.get {} (t.tile p).net.sends k = { x with state := 3, answered := false, resume := true, rdv := true, retry := 0 } ∧
       (t.tile p).sram = u.sram ∧ (t.tile p).regs = u.regs) ∧
     (x.state = 3 → x.resume = false → ueRef x.dest = true → Completes (.ueDeferral p k) s fun t =>
       FMap.get {} (t.tile p).net.sends k = { x with state := 5, answered := true, rdv := true, early := {} } ∧
       NSet.mem (t.tile p).net.blocked x.dest = true ∧ t.fab = s.fab) ∧
     (e.state = 3 → Completes (.troughCopyDone p k) s fun t =>
       let r := FMap.get ({} : Recv) u.net.recvs e.taker
       let d := ((e.cells.flatMap fun c => Mem.bytes u.sram (u.sys.trbase.toNat + 256 * c) 256).take e.length).take (bwLen r.bw)
       (t.tile p).net.unexp = FMap.drop u.net.unexp k ∧ (∀ c ∈ e.cells, NSet.mem (t.tile p).net.cells c = false) ∧
       (e.wrote = [] → (t.tile p).sram = Mem.setBytes u.sram (bwOff r.bw) d) ∧
       (∀ a, (a < bwOff r.bw ∨ bwOff r.bw + d.length ≤ a) → Mem.byte (t.tile p).sram a = Mem.byte u.sram a) ∧
       (FMap.get ({} : Recv) (t.tile p).net.recvs e.taker).state = (if bwLen r.bw < r.length then 5 else 4))) ∧
   (∀ (s : State) (p : Nat), Wakes (.rwaitWake p) s p (fun w => match w with | .rwait h => recvOver (s.tile p) h | _ => false)) ∧
   (∀ (s : State) (n : Nat) (m : Parked), parkable s n = some m → parkRoom (s.ctx m.cid) m = true → Completes (.packetPark n) s fun t =>
     (n < s.fab.net.length → t.fab = { s.fab with net := dropAt s.fab.net n }) ∧
     (s.fab.net.length ≤ n → t.fab = { s.fab with pkts := dropAt s.fab.pkts (n - s.fab.net.length) }) ∧
     (t.ctx m.cid).parked = (s.ctx m.cid).parked ++ [m] ∧ t.tiles = s.tiles) ∧
   (∀ (s : State) (n : Nat) (m : Parked), parkable s n = some m → parkRoom (s.ctx m.cid) m = false →
     ((s.ctx m.cid).overflowUnits < (s.ctx m.cid).ovfsize → 0 < s.svc.units → Completes (.overflowStoreGrow m.cid) s fun t =>
       t.ctx m.cid = { s.ctx m.cid with overflowUnits := (s.ctx m.cid).overflowUnits + 1 } ∧ t.svc = { s.svc with units := s.svc.units - 1 } ∧
       t.fab = s.fab ∧ t.tiles = s.tiles) ∧
     (((s.ctx m.cid).ovfsize ≤ (s.ctx m.cid).overflowUnits ∨ s.svc.units = 0) → Completes (.overflowStoreGrow m.cid) s fun t =>
       (s.ctx m.cid).lostParked < (t.ctx m.cid).lostParked ∧ t.agenda = .ctxFault m.cid :: s.agenda ∧ t.tiles = s.tiles))) ∧
  (∀ (t : Tile) (ew mask : Nat),
     (matchRecv t ew = none ↔ ∀ e ∈ t.net.recvs, e.2.state = 0 → compatible ew e.2.ew e.2.mask = false) ∧
     (∀ b, matchRecv t ew = some b → b ∈ t.net.recvs ∧ b.2.state = 0 ∧ compatible ew b.2.ew b.2.mask = true ∧
       ∀ e ∈ t.net.recvs, e.2.state = 0 → compatible ew e.2.ew e.2.mask = true → ageOf t.net.rseq e.2.seq ≤ ageOf t.net.rseq b.2.seq) ∧
     (∀ b, matchUnexp t ew mask = some b → b ∈ t.net.unexp ∧ (b.2.state = 1 ∨ b.2.state = 2) ∧ compatible b.2.ew ew mask = true ∧
       ∀ e ∈ t.net.unexp, (e.2.state = 1 ∨ e.2.state = 2) → compatible e.2.ew ew mask = true → ageOf t.net.useq e.2.seq ≤ ageOf t.net.useq b.2.seq))

/-! ## Barriers and collectives -/

/-- R249 to R266: the barrier instructions. BARR makes an arrival (0), or gives 1 where one is outstanding and 2 after a cancel; BBIND binds a
word and writes it; BWAIT gives the barrier word once its generation or status differs, and waits otherwise; where the task holds the arrival,
BWAIT first releases the held sends and makes the task Exposed; BCANCEL sends a cancel up.
R253 to R258, R264: the steps of a barrier. An arrival counts at a switch; the last of a parity sends one arrival up, or from the root the
release to every member; a cancel clears the entries and releases with status 1; a release that the record's state takes (R266) takes it on by one
generation and writes the bound word with its sector Full. -/
def Obligations.BarrierResults : Prop :=
  (∀ (s : State) (x : R), GuardOn x.g x.n s → maskedG s x.d = false →
     let a := rg s x.a
     let b := (rg s x.b).toNat
     let k := barKeyOf s.t a
     let r := barRec s.t k
     let w : Nat := r.status * 2 ^ 32 + r.gen
     let put (v : W64) : W64 := if x.d = 0 then 0 else v
     (4096 ≤ a.toNat → exec (.barr x) s = .next (raise (tr 0x01) s) ∧ exec (.bwait x) s = .next (raise (tr 0x01) s) ∧
       exec (.bcancel x) s = .next (raise (tr 0x01) s)) ∧
     (a.toNat < 4096 → (groupBad s.t (barGrp a) = true ∨ groupNb s.t (barGrp a) ≤ barNum a) → exec (.barr x) s = .next (raise (tr 0x13) s) ∧
       exec (.bwait x) s = .next (raise (tr 0x13) s) ∧ exec (.bcancel x) s = .next (raise (tr 0x13) s)) ∧
     (Pass (barChecks s a) →
       (r.status ≠ 0 → SetsG (.barr x) s x.d 2 ∧ SetsG (.bcancel x) s x.d 1) ∧
       (r.status = 0 → r.arrived ≠ 0 → SetsG (.barr x) s x.d 1) ∧
       (r.status = 0 → r.arrived = 0 → Completes (.barr x) s fun t =>
         let e := s.t.task.run.exposed
         let out := e && !fenceHolds s.t s.t.mreq.seq && !bfenceHolds s.t s.t.mreq.seq
         rg t x.d = 0 ∧ (∀ n, n ≠ x.d → rg t n = rg s n) ∧ (∀ p, p ≠ s.cur → t.tile p = s.tile p) ∧
         t = { s with tiles := t.tiles, fab := { s.fab with rankCache := t.fab.rankCache } } ∧
         t.t = { s.t with regs := { s.t.regs with g := t.t.regs.g }, comm := { s.t.comm with bars := t.t.comm.bars, colls := t.t.comm.colls },
                          net := { s.t.net with sends := t.t.net.sends, heldq := if e then s.t.net.heldq else s.t.net.heldq ++ [.arrive k s.t.mreq.seq],
                                                outq := if e then s.t.net.outq ++ [.arrive k s.t.mreq.seq] else s.t.net.outq } } ∧
         barRec t.t k = { r with arrived := if out then 2 else 1 } ∧
         ((e = true → s.t.net.outq = []) → t.fab = s.fab ∧ t.t.net.sends = s.t.net.sends ∧ t.t.comm.colls = s.t.comm.colls ∧
           ∀ k', k' ≠ k → barRec t.t k' = barRec s.t k')) ∧
       (holdsArrival s.t k = true → Completes (.bwait x) s fun t => t.t.net.heldq = [] ∧
         t.t.net.outq = s.t.net.outq ++ s.t.net.heldq.map (stamped s.t.mreq.seq) ∧ t.t.task.run.exposed = true ∧ (∀ p, p ≠ s.cur → t.tile p = s.tile p) ∧
         (r.gen = b % 2 ^ 32 → r.status = 0 → t.t.wait = s.t.wait ++ [(s.t.bun.pos, .bwait k (b % 2 ^ 32))] ∧ t.t.regs = s.t.regs) ∧
         ((r.gen ≠ b % 2 ^ 32 ∨ r.status ≠ 0) → t.t.wait = s.t.wait ∧ rg t x.d = put (BitVec.ofNat 64 w) ∧ ∀ n, n ≠ x.d → rg t n = rg s n)) ∧
       (holdsArrival s.t k = false → (r.gen ≠ b % 2 ^ 32 ∨ r.status ≠ 0) → SetsG (.bwait x) s x.d (BitVec.ofNat 64 w)) ∧
       (holdsArrival s.t k = false → r.gen = b % 2 ^ 32 → r.status = 0 → exec (.bwait x) s = .next (stall (.bwait k (b % 2 ^ 32)) s)) ∧
       (r.status = 0 → Completes (.bcancel x) s fun t => rg t x.d = 0 ∧ (∀ n, n ≠ x.d → rg t n = rg s n) ∧
         t.t = { s.t with regs := { s.t.regs with g := t.t.regs.g }, task := { s.t.task with run := { s.t.task.run with exposed := true } } } ∧
         (∀ p, p ≠ s.cur → t.tile p = s.tile p) ∧
         ∃ c, t.fab = { s.fab with net := s.fab.net ++ [c] } ∧ c.kind = .cancel ∧ c.cid = s.t.sys.cid ∧ c.grp = barGrp a ∧ c.num = barNum a ∧
           c.sw = groupRoot s (ctxGroup s s.t.sys.cid (barGrp a))) ∧
       (Pass (bindChecks b) → Completes (.bbind x) s fun t => rg t x.d = put (BitVec.ofNat 64 w) ∧ (∀ n, n ≠ x.d → rg t n = rg s n) ∧
         barRec t.t k = { r with bind := if b = 0 then none else some (bits b 20 0, bits b 63 56) } ∧
         t.t.sram = (if b = 0 then s.t.sram else Mem.setBytes s.t.sram (bits b 20 0) (natLe 8 w)) ∧
         t.t.full = s.t.full ∧ t.t.task = s.t.task ∧ t.t.net = s.t.net ∧ SameRestW s t))) ∧
  ((∀ (s : State) (n : Nat) (m : Msg),
     let e := combEnt s m.cid m.grp m.num m.sw
     let g := ctxGroup s m.cid m.grp
     let netless := dropAt s.fab.net n
     let c := (if m.parity = 0 then e.c0 else e.c1) + 1
     let now (v : Nat) : CombEnt := if m.parity = 0 then { e with c0 := v } else { e with c1 := v }
     let toAll (t : State) (k : MKind) (st : Nat) : Prop := ∃ l, t.fab.net = netless ++ l ∧ (l.map fun o => o.dst) = groupPlaces g ∧
       ∀ o ∈ l, o.kind = k ∧ o.cid = m.cid ∧ o.grp = m.grp ∧ o.num = m.num ∧ o.status = st
     e.exp ≠ 0 → e.cancelled = false →
     (atSwitch s n (· == .arrive) = some m →
       (c ≠ e.exp → Completes (.barrierArriveAtSwitch n) s fun t => t.fab.net = netless ∧ combEnt t m.cid m.grp m.num m.sw = now c ∧
         t.tiles = s.tiles) ∧
       (c = e.exp → m.sw ≠ groupRoot s g → Completes (.barrierArriveAtSwitch n) s fun t => combEnt t m.cid m.grp m.num m.sw = now 0 ∧
         t.tiles = s.tiles ∧ ∃ o, t.fab.net = netless ++ [o] ∧ o.kind = .arrive ∧ o.num = m.num ∧ o.parity = m.parity ∧
           o.sw = swOf s (swLevel m.sw + 1) m.dst) ∧
       (c = e.exp → m.sw = groupRoot s g → Completes (.barrierArriveAtSwitch n) s fun t => combEnt t m.cid m.grp m.num m.sw = now 0 ∧
         t.tiles = s.tiles ∧ toAll t .release 0)) ∧
     (atSwitch s n (· == .cancel) = some m → Completes (.barrierCancelAtLca n) s fun t => t.tiles = s.tiles ∧ toAll t .release 1 ∧
       ∀ sw ∈ groupSwitches s g, combEnt t m.cid m.grp m.num sw =
         { combEnt s m.cid m.grp m.num sw with c0 := 0, c1 := 0, cancelled := sw == m.sw })) ∧
   (∀ (s : State) (n p slot : Nat) (m : Msg) (e : Member), arrival s n (· == .release) = some (p, m) →
     memberOf (s.tile p) m.grp = some (slot, e) → m.num < e.desc.nb →
     let k := barKey slot m.num
     let r := barRec (s.tile p) k
     let r' : BarRec := { r with gen := (r.gen + 1) % 2 ^ 32, status := m.status, arrived := 0 }
     (m.status ≠ 2 → (r.status ≠ 0 ∨ (m.status = 0 ∧ r.arrived ≠ 2)) → Completes (.barrierReleaseDelivery n) s fun t =>
       t.fab.net = dropAt s.fab.net n ∧ t.tiles = s.tiles) ∧
     ((m.status = 2 ∨ (r.status = 0 ∧ (m.status ≠ 0 ∨ r.arrived = 2))) → Completes (.barrierReleaseDelivery n) s fun t => t.fab.net = dropAt s.fab.net n ∧ barRec (t.tile p) k = r' ∧
       (∀ k', k' ≠ k → barRec (t.tile p) k' = barRec (s.tile p) k') ∧ (t.tile p).regs = (s.tile p).regs ∧ (∀ q, q ≠ p → t.tile q = s.tile q) ∧
       (r.bind = none → (t.tile p).sram = (s.tile p).sram ∧ (t.tile p).task = (s.tile p).task) ∧
       ∀ o c, r.bind = some (o, c) → (t.tile p).sram = Mem.setBytes (s.tile p).sram o (natLe 8 (m.status * 2 ^ 32 + r'.gen)) ∧
         NSet.mem (t.tile p).full (o / 32) = true ∧ (t.tile p).task = counted c none (s.tile p).task)) ∧
   (∀ (s : State) (p : Nat), Wakes (.bwaitRelease p) s p fun w => match w with
     | .bwait k gen => (barRec (s.tile p) k).gen != gen || (barRec (s.tile p) k).status != 0
     | _ => false))

/-- R332 to R339: the collective instructions: 0 with the record made from the descriptor, 1 where the identifier is in use, and REQ after a
field error. CSTART starts a schedule and makes the task Exposed. CABORT ends the member's own record as Aborted at once.
Model's choices: logs 31, 32. -/
def Obligations.CollectiveResults : Prop :=
  ∀ (s : State) (x : R) (slot : Nat) (e : Member), GuardOn x.g x.n s → maskedG s x.d = false →
    let a := rg s x.a
    let o := bits a.toNat 20 0
    let w (k : Nat) : Nat := descWord s o k
    let ex := s.t.task.run.exposed
    let C (i : Instr) (form : Nat) : Prop :=
      let k := collKey slot (bits (w 0) 29 24)
      memberOf s.t (bits (w 0) 23 16) = some (slot, e) → Pass (win0Checks s a 32 32 true) →
      (groupBad s.t (bits (w 0) 23 16) || !e.desc.coll || e.desc.ue || decide (e.desc.size ≤ bits (w 2) 19 0)) = false →
      (collBad form (w 0) (w 1) (w 2) (w 3) = true → Completes i s fun t => rg t x.d = 0 ∧ t.t.async = s.t.async ++ [{ cause := 0x15 }] ∧
        t.t.comm = s.t.comm ∧ t.t.sram = s.t.sram) ∧
      (collBad form (w 0) (w 1) (w 2) (w 3) = false → (collRec s.t k).st ≠ .idle → SetsG i s x.d 1) ∧
      (collBad form (w 0) (w 1) (w 2) (w 3) = false → (collRec s.t k).st = .idle → Completes i s fun t =>
        let out := ex && !fenceHolds s.t s.t.mreq.seq && !bfenceHolds s.t s.t.mreq.seq
        rg t x.d = 0 ∧ (∀ n, n ≠ x.d → rg t n = rg s n) ∧ (∀ p, p ≠ s.cur → t.tile p = s.tile p) ∧
        t = { s with tiles := t.tiles, fab := { s.fab with rankCache := t.fab.rankCache } } ∧
        t.t = { s.t with regs := { s.t.regs with g := t.t.regs.g }, comm := { s.t.comm with bars := t.t.comm.bars, colls := t.t.comm.colls },
                         net := { s.t.net with sends := t.t.net.sends, heldq := if ex then s.t.net.heldq else s.t.net.heldq ++ [.contrib k s.t.mreq.seq],
                                               outq := if ex then s.t.net.outq ++ [.contrib k s.t.mreq.seq] else s.t.net.outq } } ∧
        collRec t.t k = { collOf form (w 0) (w 1) (w 2) (w 3) with held := !out } ∧
        ((ex = true → s.t.net.outq = []) → t.fab = s.fab ∧ t.t.net.sends = s.t.net.sends ∧ t.t.comm.bars = s.t.comm.bars ∧
          ∀ k', k' ≠ k → collRec t.t k' = collRec s.t k'))
    C (.cred x) 0 ∧ C (.cared x) 1 ∧ C (.cbcast x) 2 ∧
    (let k := collKey slot (bits (w 1) 33 28)
     memberOf s.t (bits (w 1) 27 20) = some (slot, e) → Pass (win0Checks s a 64 64 true) → groupBad s.t (bits (w 1) 27 20) = false →
      schedBad w = false →
      ((collRec s.t k).st ≠ .idle → Completes (.cstart x) s fun t => rg t x.d = (if x.d = 0 then 0 else 1) ∧ t.t.comm = s.t.comm ∧ t.fab = s.fab ∧
        t.t.sram = s.t.sram) ∧
      ((collRec s.t k).st = .idle → Completes (.cstart x) s fun t => rg t x.d = 0 ∧ (∀ n, n ≠ x.d → rg t n = rg s n) ∧
        t.t.task = { s.t.task with run := { s.t.task.run with exposed := true } } ∧ t.t.sram = s.t.sram ∧
        collRec t.t k = { st := .combining, form := 3, stw := bits (w 4) 31 0, cntf := bits (w 1) 63 56 : Coll } ∧
        t.fab = { s.fab with scheds := t.fab.scheds } ∧
        FMap.get {} t.fab.scheds (freeSched s) = schedFrom s.cur s.t.sys.cid e.rank s.t.sys.actw s.t.task.asn w)) ∧
    (let grp := bits a.toNat 7 0
     let k := collKey slot (bits a.toNat 13 8)
     let r := collRec s.t k
     memberOf s.t grp = some (slot, e) → a.toNat < 2 ^ 14 →
      ((groupBad s.t grp || !e.desc.coll || e.desc.ue) = true → exec (.cabort x) s = .next (raise (tr 0x13) s)) ∧
      (groupBad s.t grp = false → e.desc.coll = true → e.desc.ue = false →
      ((r.st = .idle ∨ r.st = .complete ∨ r.st = .aborted) → SetsG (.cabort x) s x.d 1) ∧
      (r.st = .contributing → schedOf s s.cur grp (bits a.toNat 13 8) = none → memberAt s.t (k / 64) = e → Completes (.cabort x) s fun t =>
        rg t x.d = 0 ∧ (∀ n, n ≠ x.d → rg t n = rg s n) ∧ (collRec t.t k).st = .aborted ∧ t.t.task.run.exposed = true ∧
        t.t.sram = Mem.setBytes s.t.sram r.stw (natLe 8 (2 ^ 32 + r.flags)) ∧
        ∃ c c', t.fab = { s.fab with net := s.fab.net ++ [c, c'] } ∧ c.kind = .abort ∧ c'.kind = .collected ∧ c.grp = grp ∧ c'.grp = e.grp)))

/-- From R328, R334 to R341. An UP chunk waits at its switch for the others of its number; when all ports have sent it, the folded chunk goes
up, or from the root down to every member that is to have it. ABORT at the root clears the group's entries and goes to all members;
COLLECTED is counted, and the last of them releases the identifier at all. A member takes a DOWN chunk that is not its last, ends an aborted
record with its status word and COLLECTED (an abort from a switch above the device clears its switches' partials as it passes), and frees it at the release. The die engine of a schedule starts an entry whose dependence is
met, ends the schedule when none is left, sends a SEND entry's chunk, and keeps a chunk that arrives.
Model's choices: logs 6, 32, 70, 101. -/
def Obligations.CollectiveEvents : Prop :=
  (∀ (s : State) (n : Nat) (m : Msg),
    let g := ctxGroup s m.cid m.grp
    let c := ccomb s m.cid m.grp m.num m.sw
    let netless := dropAt s.fab.net n
    let l := FMap.get [] c.parts m.chunk ++ [(childFrom m, m.vals, m.flags, m.poison)]
    let toAll (t : State) (k : MKind) : Prop := ∃ l, t.fab.net = netless ++ l ∧ (l.map fun o => o.dst) = groupPlaces g ∧
      ∀ o ∈ l, o.kind = k ∧ o.cid = m.cid ∧ o.grp = m.grp ∧ o.num = m.num
    (combEnt s m.cid m.grp 16 m.sw).exp ≠ 0 →
    (atSwitch s n (· == .up) = some m → swLevel m.sw ≠ 0 → (ccomb s m.cid m.grp m.num (groupRoot s g)).aborted = false →
      (readyParts (downPorts s g m.sw) l = none → Completes (.combineUpChunk n) s fun t => t.fab.net = netless ∧ t.tiles = s.tiles ∧
        ccomb t m.cid m.grp m.num m.sw = { c with parts := FMap.set [] c.parts m.chunk l }) ∧
      (∀ got left, readyParts (downPorts s g m.sw) l = some (got, left) → m.sw ≠ groupRoot s g → Completes (.combineUpChunk n) s fun t =>
        t.tiles = s.tiles ∧ ccomb t m.cid m.grp m.num m.sw = { c with parts := FMap.set [] c.parts m.chunk left } ∧
        ∃ o, t.fab.net = netless ++ [o] ∧ o.kind = .up ∧ o.chunk = m.chunk ∧ o.sw = swOf s (swLevel m.sw + 1) m.dst ∧
          (o.vals, o.flags, o.poison) = got.foldl (foldChunk m.parity m.status) ([], 0, false)) ∧
      (∀ got left, readyParts (downPorts s g m.sw) l = some (got, left) → m.sw = groupRoot s g → Completes (.combineUpChunk n) s fun t =>
        t.tiles = s.tiles ∧ ∃ l, t.fab.net = netless ++ l ∧ (l.map fun o => o.dst) = resultTo s m ∧ ∀ o ∈ l, o.kind = .down ∧ o.chunk = m.chunk ∧
          (o.vals, o.flags, o.poison) = got.foldl (foldChunk m.parity m.status) ([], 0, false))) ∧
    (atSwitch s n (· == .abort) = some m → c.aborted = false → Completes (.collectiveAbortAtLca n) s fun t => t.tiles = s.tiles ∧ toAll t .abort ∧
      ∀ sw ∈ groupSwitches s g, ccomb t m.cid m.grp m.num sw = { ccomb s m.cid m.grp m.num sw with parts := [], aborted := sw == m.sw }) ∧
    (atSwitch s n (· == .collected) = some m → upsLeft s m = false →
      (c.collected + 1 ≠ g.size → Completes (.collectedAtLca n) s fun t => t.fab.net = netless ∧ t.tiles = s.tiles ∧
        ccomb t m.cid m.grp m.num m.sw = { c with collected := c.collected + 1 }) ∧
      (c.collected + 1 = g.size → Completes (.collectedAtLca n) s fun t => t.tiles = s.tiles ∧ toAll t .collRelease ∧
        ccomb t m.cid m.grp m.num m.sw = {}))) ∧
  (∀ (s : State) (n p slot : Nat) (m : Msg) (e : Member), memberOf (s.tile p) m.grp = some (slot, e) →
    let k := collKey slot m.num
    let r := collRec (s.tile p) k
    let got := FMap.put r.got m.chunk m.vals
    (arrival s n (· == .down) = some (p, m) → (r.st = .combining ∨ r.st = .delivering) → got.length ≠ chunksOf r.count →
      Completes (.combineDownChunk n) s fun t => t.fab.net = dropAt s.fab.net n ∧ (t.tile p).regs = (s.tile p).regs ∧
        (∀ q, q ≠ p → t.tile q = s.tile q) ∧
        let r' := collRec (t.tile p) k
        r'.st = .delivering ∧ r'.got = got ∧ (∀ c, NSet.mem r'.poisoned c = (NSet.mem r.poisoned c || (m.poison && c == m.chunk))) ∧
        ∀ a, (a < r.dst ∨ r.dst + r.count * elSize r.ty ≤ a) → Mem.byte (t.tile p).sram a = Mem.byte (s.tile p).sram a) ∧
    (arrival s n (· == .abort) = some (p, m) → m.port ≠ 0 → r.st = .contributing → memberAt (s.tile p) (k / 64) = e → e.desc.coll = true →
      Completes (.collectiveAbortArrival n) s fun t => (collRec (t.tile p) k).st = .aborted ∧ (t.tile p).regs = (s.tile p).regs ∧
        (t.tile p).sram = Mem.setBytes (s.tile p).sram r.stw (natLe 8 (2 ^ 32 + r.flags)) ∧
        ∃ o, t.fab.net = dropAt s.fab.net n ++ [o] ∧ o.kind = .collected) ∧
    (arrival s n (· == .abort) = some (p, m) → m.port ≠ 0 → r.st = .aborted →
      Completes (.collectiveAbortArrival n) s fun t => t.fab.net = dropAt s.fab.net n ∧ t.tiles = s.tiles ∧
        (m.port = 2 → ∀ sw ∈ groupSwitches s (ctxGroup s m.cid m.grp), (ccomb t m.cid m.grp m.num sw).parts = [])) ∧
    (arrival s n (· == .collRelease) = some (p, m) → r.st = .aborted → Completes (.collectiveIdRelease n) s fun t =>
      t.fab.net = dropAt s.fab.net n ∧ collRec (t.tile p) k = {} ∧ (∀ k', k' ≠ k → collRec (t.tile p) k' = collRec (s.tile p) k'))) ∧
  (∀ (s : State) (k : Nat) (x : Sched), FMap.get none (s.fab.scheds.map fun e => (e.1, some e.2)) k = some x →
    (∀ w, x.next < x.nent → schedEntry s x x.next = .ok w → seBad w = false → seKind w ≠ 0 → x.running.length < 32 → depMet x x.next w = true →
      Completes (.scheduleEntryStart k) s fun t => t.tiles = s.tiles ∧
        FMap.get {} t.fab.scheds k = { x with running := x.running ++ [x.next], next := x.next + 1 }) ∧
    (∀ slot e, x.nent ≤ x.next → x.running = [] → memberOf (s.tile x.tile) x.grp = some (slot, e) → Completes (.scheduleEntryStart k) s fun t =>
      let r := collRec (s.tile x.tile) (collKey slot x.id)
      t.fab.scheds = FMap.drop s.fab.scheds k ∧ collRec (t.tile x.tile) (collKey slot x.id) = {} ∧
      (t.tile x.tile).sram = Mem.setBytes (s.tile x.tile).sram r.stw (natLe 8 (Nat.lor r.flags x.flags))) ∧
    (∀ i w d, x.running.contains i = true → schedEntry s x i = .ok w → chunkBusy s x i (seChunk w) = false → seKind w = 1 →
      (x.next < x.nent ∨ x.running.filter (· != i) ≠ []) → chunkRead s x.cid (x.dst + seChunk w * 2 ^ x.clog) (2 ^ x.clog) = .ok d →
      Completes (.scheduleEntryComplete k i) s fun t => t.tiles = s.tiles ∧
        FMap.get {} t.fab.scheds k = { x with running := x.running.filter (· != i), complete := x.complete ++ [i] } ∧
        ∃ o, t.fab.net = s.fab.net ++ [o] ∧ o.kind = .chunk ∧ o.payload = d.1 ∧ o.poison = d.2 ∧ o.chunk = seChunk w ∧ o.num = x.id ∧
          o.dst = (groupPlaces (ctxGroup s x.cid x.grp)).getD (sePeer w) 0)) ∧
  (∀ (s : State) (n k : Nat) (m : Msg) (x : Sched), elemAt s.fab.net n = some m → m.kind = .chunk → m.path = [] → m.dst / 2048 = s.dev →
    (s.fab.net.take n).any (blocksArrival m) = false → schedFor s m = some (k, x) → Completes (.scheduleChunkArrival n) s fun t =>
      t.fab.net = dropAt s.fab.net n ∧ t.tiles = s.tiles ∧
      FMap.get {} t.fab.scheds k = { x with held := x.held ++ [(m.srank, m.chunk, m.payload, m.poison)] })

/-! ## Memory requests, the stations, bank compute, the pager -/

/-- R267, R277, R282 to R286, R290 to R292: the N-R and N-A instructions. A posted form takes a request slot and goes on, with its predicate
false where no slot is free; a GET or PUT of no bytes completes at once; a fetch form waits for its answer and puts it into g[D]; FENCE is placed among the tile's requests.
Model's choices: logs 19, 110.
R277: how a range is cut into packets: each lies in the range and in one block of 256 bytes, each byte of the range in one of them, and a
sector covered only in part is a packet of its own. -/
def Obligations.RequestResults : Prop :=
  (∀ (s : State) (x : R), GuardOn x.g x.n s → maskedG s x.d = false → x.d < 8 →
     let a := rg s x.a
     let b := rg s x.b
     let bw := a.toNat
     let w := bit x.m 2
     let size := if w then 4 else 8
     let out (k : Nat) (g : W64) : Nat := Mem.le (preSram s.t) (bits g.toNat 20 0 + 8 * k) 8
     let word : Span := { va := a.toNat, off := 0, len := size }
     let fetch (i : Instr) (op : Nat) : Prop := Pass (atomicChecks x a (op == 24 && !w)) →
       Fetches i s x.d .atomic { kind := .fetch, ord := x.m % 4, op := op, w := w, b := b.toNat, c := (rg s x.d).toNat } word
     let rows (i : Instr) (kind : RKind) : Prop := bwLen bw = 0 → Pass (bwChecks bw) → Pass (win0Checks s b 32 8 true) →
       rowsBad (out 0 b) (out 1 b) (out 2 b) (out 3 b) (bwOff bw) = false →
       Accepts i s x.d { kind := kind, ord := x.m } (bwCntf bw) (rowSpans (out 0 b) (out 1 b) (out 2 b) (out 3 b) (bwOff bw))
     let bank (i : Instr) (kind : RKind) : Prop :=
       let d := bankDesc (kind == .bmvt) (out 1 a) (out 2 a) (out 3 a)
       Pass (win0Checks s a 64 64 true) → bankBad d (out 0 a) (out 1 a) (out 2 a) (out 3 a) (out 4 a) [out 5 a, out 6 a, out 7 a] = false →
       Accepts i s x.d { kind := kind, desc := d, c := bankIn d * bankXs d } (bits (out 4 a) 7 0)
         [{ va := out 0 a, off := bits (out 2 a) 20 0, len := 2 * d.getD 0 0 * d.getD 1 0 }]
     ((vaBad b).1 = false → Pass (bwChecks bw) → bwLen bw ≠ 0 →
       Accepts (.get x) s x.d { kind := .get, ord := x.m } (bwCntf bw) (spansOf b.toNat (bwOff bw) (bwLen bw)) ∧
       Accepts (.put x) s x.d { kind := .put, ord := x.m } (bwCntf bw) (spansOf b.toNat (bwOff bw) (bwLen bw))) ∧
     ((vaBad b).1 = false → Pass (bwChecks bw) → bwLen bw = 0 →
       let C (i : Instr) : Prop := (freeReq s.t = none → SetsP i s x.d false) ∧ (freeReq s.t ≠ none → Completes i s fun t => rp t x.d = true ∧
         (∀ n, n < 8 → n ≠ x.d → rp t n = rp s n) ∧ t.fab = s.fab ∧ t.t.mreq = s.t.mreq ∧ t.t.task = counted (bwCntf bw) none s.t.task)
       C (.get x) ∧ C (.put x)) ∧
     ((vaBad b).1 = true → Pass (bwChecks bw) → exec (.get x) s = .next (raise (tr 0x12 (b.toNat % 2 ^ 32)) s) ∧
       exec (.put x) s = .next (raise (tr 0x12 (b.toNat % 2 ^ 32)) s)) ∧
     rows (.getd x) .getd ∧ rows (.putd x) .putd ∧ bank (.bmv x) .bmv ∧ bank (.bmvt x) .bmvt ∧
     fetch (.maadd x) 16 ∧ fetch (.maand x) 17 ∧ fetch (.maor x) 18 ∧ fetch (.maxor x) 19 ∧ fetch (.mamin x) 20 ∧ fetch (.mamax x) 21 ∧
     fetch (.maswap x) 22 ∧ fetch (.macas x) 23 ∧ fetch (.mafadd x) 24 ∧
     (Pass (atomicChecks x a false) →
       Accepts (.msadd x) s x.d { kind := .posted, ord := x.m % 4, op := 25, w := w, b := b.toNat } 0 [word] ∧
       Accepts (.msmax x) s x.d { kind := .posted, ord := x.m % 4, op := 26, w := w, b := b.toNat } 0 [word]) ∧
     (a.toNat % size ≠ 0 → exec (.maadd x) s = .next (raise (tr 0x06 (a.toNat % 2 ^ 32)) s) ∧
       exec (.msadd x) s = .next (raise (tr 0x06 (a.toNat % 2 ^ 32)) s)) ∧
     ((vaBad a).1 = false → Fetches (.pqry x) s x.d .pqry { kind := .pqry } { va := a.toNat, off := 0, len := 1 }) ∧
     (Pass (getiChecks s a b) →
       Accepts (.geti x) s x.d { kind := .geti } (bits bw 63 56) (spansOf b.toNat (4 * bits bw 14 0) (4 * bits bw 31 16))) ∧
     ((vaBad a).1 = false → bits b.toNat 47 0 ≠ 0 → bits b.toNat 55 48 = 0 → cntfBad (bits b.toNat 63 56) = false →
       Accepts (.bfence x) s x.d { kind := .bfence } (bits b.toNat 63 56) (fenceSpans s s.t.sys.cid a.toNat (bits b.toNat 47 0))) ∧
     (Completes (.fence x) s fun t => SameRest s t ∧ t.t = { s.t with mreq := { s.t.mreq with seq := s.t.mreq.seq + 1, fences :=
       s.t.mreq.fences ++ [{ scope := x.a, seq := s.t.mreq.seq, mx := s.t.mx.done + s.t.mx.queue.length, act := 0, kern := s.t.kernel.getD 0 }] } })) ∧
  (∀ va n : Nat,
     (∀ e ∈ cutRange va n, 0 < e.2 ∧ va ≤ e.1 ∧ e.1 + e.2 ≤ va + n ∧ e.1 / 256 = (e.1 + e.2 - 1) / 256 ∧
       ((e.1 % 32 ≠ 0 ∨ (e.1 + e.2) % 32 ≠ 0) → e.1 / 32 = (e.1 + e.2 - 1) / 32)) ∧
     ∀ a, va ≤ a → a < va + n → ∃ e ∈ cutRange va n, e.1 ≤ a ∧ a < e.1 + e.2)

/-- From R278 to R281, R284, R285, R290 to R292: the last answer of a request without a fault. The slot is freed; a posted request decrements
its counter; a read of one packet in one sector puts its bytes into SRAM; an atomic and a PQRY wake the waiting bundle with the value, the
atomic's W form sign-extended; GETI writes its words into IMEM. A request that is over with a fault raises MEM_FAULT in the activation that
made it, and where that is over goes to the pager as a record that no task holds. An answer that a port does not pass is discarded and counted
(R17). A fence whose requests are done completes, and the releases that it held take place.
Model's choices: logs 6, 81, 99. -/
def Obligations.RequestReplies : Prop :=
  (∀ (s : State) (n p : Nat) (m : Pkt) (r : Req), requestOf s p m = some r → r.left = 1 → r.fault = none → m.st = .answered → replyStop s m = none →
    let u := s.tile p
    let reply (ok : RKind → Bool) : Prop := replyFor s n ok = some (p, m)
    (reply plainKind → isRead m.kind = false → Completes (.memoryReply n) s fun t => RequestOver n p m.slot s t ∧ KeepsMem p s t ∧
      (t.tile p).task = counted r.cntf none u.task) ∧
    (∀ sec, reply plainKind → isRead m.kind = true → r.spans = [{ va := m.va, off := m.off, len := m.len }] → m.pieces = [] → m.wrote = [] → m.idx = 0 → sectorsOf m.off m.len = [sec] →
      Completes (.memoryReply n) s fun t => RequestOver n p m.slot s t ∧ (t.tile p).task = counted r.cntf none u.task ∧
        (t.tile p).sram = Mem.setBytes u.sram m.off (Mem.bytes m.reply 0 m.len) ∧ (t.tile p).full = u.full) ∧
    (∀ pos, reply (· == .fetch) → u.wait = [(pos, .atomic m.slot)] → Completes (.atomicReply n) s fun t => RequestOver n p m.slot s t ∧ KeepsMem p s t ∧
      (t.tile p).wait = [] ∧ .thread p ∈ t.agenda ∧
      (t.tile p).woken = u.woken ++ [(pos, if m.w then wrapN 64 (sext (Mem.le m.reply 0 4) 32) else Mem.le m.reply 0 8)]) ∧
    (∀ pos, reply (· == .pqry) → u.wait = [(pos, .pqry m.slot)] → Completes (.pqryReply n) s fun t => RequestOver n p m.slot s t ∧ KeepsMem p s t ∧
      (t.tile p).wait = [] ∧ .thread p ∈ t.agenda ∧ (t.tile p).woken = u.woken ++ [(pos, Mem.le m.reply 0 8)]) ∧
    (reply (· == .geti) → Completes (.getiWordWrite n) s fun t => RequestOver n p m.slot s t ∧ KeepsMem p s t ∧
      (t.tile p).task = counted r.cntf none u.task ∧
      ∀ i, 4 * i + 4 ≤ m.len → FMap.get 0 (t.tile p).imem (m.off / 4 + i) = BitVec.ofNat 32 (Mem.le m.reply (4 * i) 4)) ∧
    (reply (· == .bfence) → Completes (.bfenceAnswer n) s fun t => KeepsMem p s t ∧ (t.tile p).task = counted r.cntf none u.task ∧
      t.fab = { s.fab with pkts := dropAt s.fab.pkts n, rankCache := t.fab.rankCache } ∧ (t.tile p).mreq.reqs = FMap.drop u.mreq.reqs m.slot ∧
      (t.tile p).regs = u.regs ∧ ∀ q, q ≠ p → t.tile q = s.tile q)) ∧
  (∀ (s : State) (n p q : Nat) (m : Pkt),
    let lost (i : Instr) (ok : RKind → Bool) : Prop := replyFor s n ok = some (p, m) → replyStop s m = some q → Completes i s fun t =>
      t.tiles = s.tiles ∧ t.fab.pkts = dropAt s.fab.pkts n ∧ FMap.get 0 t.fab.isolation q = FMap.get 0 s.fab.isolation q + 1
    lost (.memoryReply n) plainKind ∧ lost (.atomicReply n) (· == .fetch) ∧ lost (.pqryReply n) (· == .pqry) ∧
    lost (.getiWordWrite n) (· == .geti) ∧ lost (.bfenceAnswer n) (· == .bfence)) ∧
  (∀ (s : State) (p k : Nat) (r : Req) (f : Nat × Nat × Nat),
    (s.tile p).mreq.reqs.find? (fun e => e.2.left == 0 && e.2.fault.isSome) = some (k, r) → r.fault = some f →
    (stillRuns (s.tile p) r = true → Completes (.memFaultTrap p) s fun t => (t.tile p).mreq.reqs = FMap.drop (s.tile p).mreq.reqs k ∧
      (t.tile p).async = (s.tile p).async ++ [{ cause := 0x11, sub := f.1 * 256, daddr := f.2.2 % 2 ^ 32 }] ∧ (t.tile p).regs = (s.tile p).regs) ∧
    (stillRuns (s.tile p) r = false → Completes (.memFaultTrap p) s fun t => (t.tile p).mreq.reqs = FMap.drop (s.tile p).mreq.reqs k ∧
      (t.tile p).async = (s.tile p).async ∧ ∃ w, (t.ctx (s.tile p).sys.cid).inbox = (s.ctx (s.tile p).sys.cid).inbox ++ [(s.placeOf p, w)] ∧
        w.getD 2 0 = r.actw.toNat ∧ w.getD 6 0 = 0xFFFFFFFF)) ∧
  (∀ (s : State) (p i : Nat) (f : Fence), sends (s.tile p) = true → findIdx (fenceMet s p) (s.tile p).mreq.fences 0 = some (i, f) →
    Completes (.fenceComplete p) s fun t => (t.tile p).mreq.fences = dropAt (s.tile p).mreq.fences i ∧ KeepsMem p s t ∧
      (t.tile p).regs = (s.tile p).regs ∧ t.fab = { s.fab with rankCache := t.fab.rankCache })

/-- R274 to R280, R284: the stations and the cisterns. A packet that no port stops (R17) and that hits the cache, or whose walk ends in a leaf, is sent on with the entry; a
miss starts a walk; a walk that ends nowhere parks the packet (FAULT 8 where the store is full) with a notice to the pager, and one that meets a malformed entry
reports it and answers FAULT 7; the pager's refusal answers
the parked packets; a granule is performed on device memory as one event; where no Welim
port is left, a packet for another device completes with FAULT 8 (R403); else its flits go to the port of its hash first (R209).
Model's choices: logs 6, 37, 75, 81, 95. -/
def Obligations.EdgeEvents : Prop :=
  (∀ (s : State) (n : Nat) (m : Pkt), elemAt s.fab.pkts n = some m →
    let at_ (t : State) : Option Pkt := elemAt t.fab.pkts n
    let st := stationOf (dieOf s m) m.va
    let routed (t : State) (sh w0 w1 : Nat) (l : Loc) (st : Nat) : Prop := t.tiles = s.tiles ∧ t.fab.hbm = s.fab.hbm ∧
      at_ t = some { m with station := st, st := .routed, sh := sh, w0 := w0, w1 := w1, gen := s.fab.nextPkt, loc := l,
                            todo := granules (match l with | .hbm _ => 32 | _ => 8) m.va m.len }
    let plain : Prop := m.kind ≠ .pqry ∧ isBank m.kind = false
    let open_ (sh w0 : Nat) (l : Loc) (st : Nat) : Prop := behind s sh m = false ∧
      ∀ q ∈ exitPorts s { m with station := st } sh w0 l, portPasses s.fab q m.cid false = true
    let ways : List Nat := pathOf s.svc.bw s.svc.rw (partyPlace s m) (stationPlace s.dev st)
    (m.st = .atStation → mayLeave s m = true → ∀ q, stopPort s.fab ways m.cid false = some q →
      Completes (.stationRequest n) s fun t => t.tiles = s.tiles ∧ t.fab.pkts = dropAt s.fab.pkts n ∧
        FMap.get 0 t.fab.isolation q = FMap.get 0 s.fab.isolation q + 1 ∧ (m.cid, m.place) ∈ t.fab.reports) ∧
    (m.st = .atStation → mayLeave s m = true → stopPort s.fab ways m.cid false = none → inDoor s m = false → loadPkt s m = (m, s) →
      (tlbHit (FMap.get [] s.fab.tlb st) m.cid m.va = none → (s.fab.pkts.filter fun o => o.st == .walking && o.station == st).length < 64 →
        Completes (.stationRequest n) s fun t => t.tiles = s.tiles ∧ at_ t = some { m with station := st, st := .walking }) ∧
      (∀ e l, tlbHit (FMap.get [] s.fab.tlb st) m.cid m.va = some e → plain → checkPkt s m e.sh e.w0 e.w1 = .go l → open_ e.sh e.w0 l st →
        Completes (.stationRequest n) s fun t => routed t e.sh e.w0 e.w1 l st)) ∧
    (m.st = .walking →
      (∀ sh w0 w1 a l, walk s m.cid m.va = .leaf sh w0 w1 a → plain → checkPkt s m sh w0 w1 = .go l → open_ sh w0 l m.station →
        Completes (.translationWalkDone n) s fun t => routed t sh w0 w1 l m.station) ∧
      (∀ v a, walk s m.cid m.va = .none v a → m.kind ≠ .pqry → m.place ≠ hostParty →
        let held := (s.fab.pkts.filter fun o => (o.st == .parked || o.st == .frozen) && o.station == m.station).length
        Completes (.translationWalkDone n) s fun t => t.tiles = s.tiles ∧ (m.cid, m.va, m.kind) ∈ t.fab.notices ∧
          at_ t = some (if 4096 ≤ held then { m with st := .faulted, reason := 8 } else { m with st := .parked, reason := 1, gen := s.fab.nextPkt })) ∧
      (∀ a, walk s m.cid m.va = .bad a → m.kind ≠ .pqry → Completes (.translationWalkDone n) s fun t => t.tiles = s.tiles ∧
        (m.cid, m.va) ∈ t.fab.malformed ∧ at_ t = some { m with st := .faulted, reason := 7 }) ∧
      (∀ sh w0 w1 a, walk s m.cid m.va = .leaf sh w0 w1 a → m.kind = .pqry → Completes (.translationWalkDone n) s fun t =>
        t.tiles = s.tiles ∧ at_ t = some { m with st := .answered, reply := Mem.setLe [] 0 8 (pqryWord sh w0 w1) })) ∧
    (m.st = .parked → Completes (.pagerFaultResolution n 0) s fun t => t.tiles = s.tiles ∧ at_ t = some { m with st := .faulted } ∧
      ∀ k o, elemAt s.fab.pkts k = some o → o.st ≠ .parked → elemAt t.fab.pkts k = some o) ∧
    (∀ sh w0 w1 a l, m.st = .parked → plain → walk s m.cid m.va = .leaf sh w0 w1 a → checkPkt s m sh w0 w1 = .go l → open_ sh w0 l m.station →
      (pktsWhere s fun o => (o.st == .parked || o.st == .frozen) && o.gen == m.gen) = [n] →
      (pktsWhere s fun o => o.st == .parked && o.station == m.station && o.cid == m.cid && o.va / 65536 == m.va / 65536 && o.reason == m.reason) = [n] →
      Completes (.pagerFaultResolution n 1) s fun t => routed t sh w0 w1 l m.station) ∧
    (m.st = .routed → isBank m.kind = false → m.kind ≠ .bfence → (s.fab.pkts.take n).any (spanBefore m) = false → farHome s m = true →
      m.sent = false → linkLeft s = false → Completes (.packetPerform n) s fun t => t.tiles = s.tiles ∧ at_ t = some { m with st := .faulted, reason := 8 }) ∧
    (∀ q, m.st = .routed → isBank m.kind = false → m.kind ≠ .bfence → (s.fab.pkts.take n).any (spanBefore m) = false → farHome s m = true →
      m.sent = false → upPortOf s (reqVc m) (homePlace s m m.sh m.w0 m.loc) = some q →
      portPasses s.fab (portOfPlace (welimPlace s.dev q)) m.cid false = true → Completes (.packetPerform n) s fun t =>
        t = putFlits q (waitingFlits (reqVc m) [m.gen] (requestFlits s m))
          { s with fab := { s.fab with pkts := setAt s.fab.pkts n { m with sent := true } } }) ∧
    (∀ e key, m.st = .routed → isBank m.kind = false → m.kind ≠ .bfence → (s.fab.pkts.take n).any (spanBefore m) = false → farHome s m = false →
      m.todo = [e] → m.loc = .hbm key → m.pieces = [] → e.1 + e.2 ≤ m.len →
      let old := Mem.bytes s.fab.hbm (key + e.1) e.2
      let done (t : State) (m' : Pkt) : Prop := at_ t = some { m' with st := .answered, todo := [] } ∧ t.tiles = s.tiles ∧ t.free = s.free + 1
      (isAtomic m.kind = false → isRead m.kind = true → Completes (.packetPerform n) s fun t =>
        (∃ x, done t { m with reply := Mem.setBytes m.reply e.1 old, rpsec := x }) ∧ t.fab.hbm = s.fab.hbm) ∧
      (isAtomic m.kind = false → isRead m.kind = false → Completes (.packetPerform n) s fun t => done t m ∧
        t.fab.hbm = Mem.setBytes s.fab.hbm (key + e.1) ((m.data.drop e.1).take e.2)) ∧
      (isAtomic m.kind = true → (hbmRead s.fab (key + e.1) e.2).2 = false → Completes (.packetPerform n) s fun t =>
        done t { m with reply := Mem.setBytes [] 0 old } ∧ t.fab.hbm = Mem.setBytes s.fab.hbm (key + e.1)
          (natLe e.2 (atomicNew m.op e.2 (leNat old) (m.b % 2 ^ (8 * e.2)) (m.c % 2 ^ (8 * e.2))))) ∧
      (isAtomic m.kind = true → (hbmRead s.fab (key + e.1) e.2).2 = true → Completes (.packetPerform n) s fun t =>
        t.tiles = s.tiles ∧ t.fab.hbm = s.fab.hbm ∧ at_ t = some { m with st := .faulted, reason := 6, todo := [] }))) ∧
  (∀ n old b c : Nat,
    let w := 8 * n
    atomicNew 16 n old b c = (old + b) % 2 ^ w ∧ atomicNew 25 n old b c = (old + b) % 2 ^ w ∧ atomicNew 17 n old b c = Nat.land old b % 2 ^ w ∧
    atomicNew 18 n old b c = Nat.lor old b % 2 ^ w ∧ atomicNew 19 n old b c = Nat.xor old b % 2 ^ w ∧ atomicNew 22 n old b c = b % 2 ^ w ∧
    atomicNew 23 n old b c = (if old = c then b else old) % 2 ^ w ∧
    (0 < n → sext (atomicNew 20 n old b c) w = min (sext old w) (sext b w) ∧ sext (atomicNew 21 n old b c) w = max (sext old w) (sext b w) ∧
      sext (atomicNew 26 n old b c) w = max (sext old w) (sext b w)))

/-- From R287 to R290. A cistern fills its copy of a table from the context's table pages. A bank packet's next unit that no copied row covers
is computed from device memory and its partial kept. With the last packet answered, the tile combines the partials in order, writes the
results at the output offset and nothing else, and decrements the request's counter. A fence packet drops the row copies in its range, and
is answered when no earlier packet of its station meets its range.
Model's choices: logs 6, 55. -/
def Obligations.BankEvents : Prop :=
  (∀ (s : State) (p c t : Nat) (d : List Byte), wantsCdt s p c t = true → plainRead s c (cdtVa (s.ctx c) t + 8) 1024 = some d →
    Completes (.cdtCacheFill p c t) s fun u => cdtCopy u p c t = some ((List.range 256).map fun i => leNat ((d.drop (4 * i)).take 4)) ∧
      u = { s with fab := { s.fab with cdtc := u.fab.cdtc } }) ∧
  (∀ (s : State) (n u z key : Nat) (m : Pkt) (r : List (Nat × Nat)) (l : List Nat), elemAt s.fab.pkts n = some m → m.st = .routed →
    isBank m.kind = true → m.todo = (u, z) :: r → m.loc = .hbm key → farHome s m = false →
    let ci := cisternOf m.w0 (pageUnit m u)
    let part (psn : NSet) := bankPartial m u l (Mem.bytes s.fab.hbm (key + u * unitBytes m.w0) (unitBytes m.w0)) psn
    (cdtCopy s ci m.cid (bits m.w1 39 36) = some l ∨ (cdtCopy s ci m.cid (bits m.w1 39 36) = none ∧ usesCdt m.w0 = false ∧ l = [])) →
    (∀ o ∈ FMap.get [] s.fab.rows ci, o.key ≠ key + u * unitBytes m.w0) →
    Completes (.bmvPartial n) s fun t => t.tiles = s.tiles ∧ t.fab.hbm = s.fab.hbm ∧ ∃ psn,
      elemAt t.fab.pkts n = some { m with st := if r = [] then .answered else .routed, todo := r, parts := m.parts ++ [part psn] }) ∧
  (∀ (s : State) (p k : Nat) (r : Req) (m : Pkt) (l : List Pkt),
    (s.tile p).mreq.reqs.find? (fun e => e.1 == k && isBank e.2.kind && e.2.left != 0) = some (k, r) → r.left = 1 → r.fault = none →
    FMap.get {} (s.tile p).mreq.reqs k = r → takes (s.tile p) (s.tile p).sys.cid = true →
    pktsOf s (s.tile p).sys.cid (s.placeOf p) r.seq = m :: l → m.wrote = [] →
    (∀ x ∈ m :: l, stopPort s.fab (replyPorts s x) x.cid false = none) → (∀ x ∈ m :: l, x.st = .answered ∧ replayFirst s x.cid x.place x.replay = false) →
    let u := s.tile p
    let o := r.desc.getD 3 0
    let bs := ((List.range (bankOut r.desc)).map (bankOutput u r.desc m.w0 (sortParts ((m :: l).flatMap fun x => x.parts)))).flatMap
      fun e => natLe (bankYs r.desc) e.1
    Completes (.bmvCombine p k) s fun t => (t.tile p).mreq.reqs = FMap.drop u.mreq.reqs k ∧ (t.tile p).task = counted r.cntf none u.task ∧
      (t.tile p).regs = u.regs ∧ (∀ q, q ≠ p → t.tile q = s.tile q) ∧
      (∀ j, j < bs.length → Mem.byte (t.tile p).sram (o + j) = bs.getD j 0) ∧
      ∀ a, (a < o ∨ o + bs.length ≤ a) → Mem.byte (t.tile p).sram a = Mem.byte u.sram a) ∧
  (∀ (s : State) (n : Nat) (m : Pkt), elemAt s.fab.pkts n = some m → m.kind = .bfence →
    (m.st = .routed → farHome s m = false → Completes (.bfencePacket n) s fun t => elemAt t.fab.pkts n = some { m with st := .fenced } ∧ t.fab.hbm = s.fab.hbm ∧
      t.tiles = s.tiles ∧ ∀ k, m.loc = .hbm k → ∀ e ∈ t.fab.rows, ∀ r ∈ e.2, rangesMeet r.key r.data.length k m.len = false) ∧
    (m.st = .fenced → (s.fab.pkts.any fun o => o.cid == m.cid && o.station == m.station && o.kind != .bfence && o.st == .routed && decide (o.gen < m.gen)
        && rangesMeet o.va o.len m.va m.len) = false →
      Completes (.bfencePacket n) s fun t => t = { s with fab := { s.fab with pkts := setAt s.fab.pkts n { m with st := .answered } } }))

/-- From R276, R281, R293, R294 and R243. A station drops the entries of a changed mapping; the change is complete when all have and no packet
under the old entry is left, with the row copies of the old place gone. A migration's four steps: freeze drops the page's entries, drain
waits for its packets, copy writes the page's bytes at the new place and the leaf's new home and stack and begins the change, switch ends it
once no station has the old entry and no packet is frozen. An uncorrectable error poisons its sector; a leaf's POISON bit is cleared when
its page holds no poison. A Releasing group that has drained is unbound on every tile.
Model's choices: logs 22, 75, 102. -/
def Obligations.PagerEvents : Prop :=
  (∀ (s : State) (c k : Nat), k < 12 → Completes (.mappingInvalidate c k) s fun t =>
    (t.ctx c).changes = ((s.ctx c).changes.map fun x =>
      if x.dropped.any fun e => e.1 == k then x else { x with dropped := FMap.put x.dropped k s.fab.nextPkt }) ∧
    (∀ x ∈ (s.ctx c).changes, (x.dropped.any fun e => e.1 == k) = false → ∀ e ∈ FMap.get [] t.fab.tlb k, e.cid = c →
      rangesMeet e.va (2 ^ e.sh) x.va (2 ^ x.sh) = false) ∧ t.fab.hbm = s.fab.hbm ∧ t.tiles = s.tiles) ∧
  (∀ (s : State) (c k : Nat) (x : MapChange), elemAt (s.ctx c).changes k = some x → 12 ≤ x.dropped.length → s.fab.pkts.any (underOld x c) = false →
    Completes (.mappingChangeComplete c k) s fun t => (t.ctx c).changes = dropAt (s.ctx c).changes k ∧ t.fab.hbm = s.fab.hbm ∧ t.tiles = s.tiles ∧
      ∀ q, x.key = some q → ∀ e ∈ t.fab.rows, ∀ r ∈ e.2, rangesMeet r.key r.data.length q (2 ^ x.sh) = false) ∧
  (∀ (s : State) (c k : Nat) (g : Migration), elemAt (s.ctx c).migs k = some g →
    let w0 := Mem.le s.fab.hbm (devKey s g.at_) 8
    let w1 := Mem.le s.fab.hbm (devKey s g.at_ + 8) 8
    let a := leafKey w0 w1
    let b := hbmKey g.home g.stack (g.frame * 65536)
    let key := devKey s g.at_
    (g.st = .freeze → Completes (.migrateFreezeDone c k) s fun t => elemAt (t.ctx c).migs k = some { g with st := .drain } ∧ t.fab.hbm = s.fab.hbm ∧
      ∀ i, i < 12 → ∀ e ∈ FMap.get [] t.fab.tlb i, e.cid = c → rangesMeet e.va (2 ^ e.sh) g.va (2 ^ g.sh) = false) ∧
    (g.st = .drain → (s.fab.pkts.any fun m => inPage c g.va g.sh m && (m.st == .routed || m.st == .fenced)) = false →
      Completes (.migrateDrainDone c k) s fun t => elemAt (t.ctx c).migs k = some { g with st := .copy } ∧ t.fab.hbm = s.fab.hbm ∧
        (eStack w0 < 12 → ∀ e ∈ t.fab.rows, ∀ r ∈ e.2, rangesMeet r.key r.data.length a (2 ^ g.sh) = false)) ∧
    (g.st = .copy → Memory.wf s.fab.hbm = true → g.va % 2 ^ g.sh = 0 → eStack w0 < 12 → g.stack < 12 → g.home < 2 ^ 20 → g.frame < 2 ^ 20 →
      Completes (.migrateCopyDone c k) s fun t =>
      elemAt (t.ctx c).migs k = some { g with st := .switch } ∧
      (t.ctx c).changes = (s.ctx c).changes ++ [{ va := g.va, sh := g.sh, key := none, pkt := g.pkt }] ∧
      Mem.le t.fab.hbm key 8 = (w0 % 2 ^ 16 + g.home * 2 ^ 16 + g.stack * 2 ^ 36) % 2 ^ 64 ∧
      (∀ j, j < 2 ^ g.sh → (b + j < key ∨ key + 16 ≤ b + j) → Mem.byte t.fab.hbm (b + j) = Mem.byte s.fab.hbm (a + j)) ∧
      ∀ x, (x < b ∨ b + 2 ^ g.sh ≤ x) → (x < key ∨ key + 16 ≤ x) → Mem.byte t.fab.hbm x = Mem.byte s.fab.hbm x) ∧
    (g.st = .switch → (s.ctx c).changes.any (fun x => x.va == g.va && x.sh == g.sh) = false → (pktsWhere s fun m => m.st == .frozen && inPage c g.va g.sh m) = [] → Completes (.migrateSwitchDone c k) s fun t =>
      (t.ctx c).migs = dropAt (s.ctx c).migs k ∧ t.fab = s.fab ∧ t.tiles = s.tiles)) ∧
  (∀ (s : State) (a : Nat), a / 2 ^ 36 < 12 → Completes (.hbmUncorrectable a) s fun t =>
    NSet.mem t.fab.hpoison (devKey s a / 32) = true ∧ t.tiles = s.tiles ∧ ∀ k, NSet.mem s.fab.hpoison k = true → NSet.mem t.fab.hpoison k = true) ∧
  (∀ (s : State) (c va sh w0 w1 a : Nat), walk s c va = .leaf sh w0 w1 a → ePoison w1 = true → eStack w0 < 12 →
    (s.fab.hpoison.any fun e => decide (leafKey w0 w1 / 32 ≤ e.1) && decide (e.1 < leafKey w0 w1 / 32 + 2 ^ (sh - 5))) = false →
    Completes (.poisonClear c va) s fun t => Mem.le t.fab.hbm (devKey s a + 8) 8 = putBit 33 false w1 % 2 ^ 64 ∧
      Mem.le t.fab.hbm (devKey s a) 8 = w0 % 2 ^ 64 ∧ t.tiles = s.tiles ∧
      ∀ x, (x < devKey s a ∨ devKey s a + 16 ≤ x) → Mem.byte t.fab.hbm x = Mem.byte s.fab.hbm x) ∧
  (∀ (s : State) (c k : Nat), FMap.get .unbound (s.ctx c).gst k = .releasing → groupDrained s c k = true →
    Completes (.groupEntryDrained c k) s fun t => (t.ctx c).groups = FMap.drop (s.ctx c).groups k ∧ (t.ctx c).gst = FMap.drop (s.ctx c).gst k ∧
      ∀ p ∈ tilesOf s c, NSet.mem (t.tile p).comm.bound k = false ∧ ∀ e ∈ (t.tile p).comm.slots, e.2.grp ≠ k)

/-! ## Queues, kernels and contexts -/

/-- From R354 to R366, R288, R348, R385 to R389, R426, R427, R447. A function's write of a TAIL word that it owns stores and sends a notice to the
role's tile, and another word ignores it; the notice makes the packets seen, or sets ERROR 13 where TAIL is outside the ring. An admitted packet
joins the queue, a LAUNCH of a new LSN with its kernel Queued, one that is malformed ends with status 9. The
ready packet of the highest priority, the oldest of it, runs. Each packet type then ends as its rule says: NOP, COPY, FILL, the SIGNAL
operations, WAIT (which blocks the queue until met or timed out), MEASURE, RECEIPT, MAP, UNMAP, MIGRATE, CHECKPOINT and CDTLOAD. A packet
that is done leaves, and a failed one sets its queue's ERROR and ends the kernel that was Queued for it. A leaf's hash is kept; the measurement takes a
finished hash in order. The failure of a role's tile promotes its standby in every role it had and makes a spare of its die the new standby, or sets
the ERROR 12 of the queue it names.
Model's choices: logs 33, 34, 71, 72, 94, 95. -/
def Obligations.QueueEvents : Prop :=
  (∀ (s : State) (f o val : Nat),
    (∀ c, s.svc.boot = .ready → o % 64 = 24 → o < 2 ^ 22 → ctxInSlot s f (o / 4096) = some c → (s.ctx c).st ≠ .free →
      Completes (.tailWrite f o val) s fun t =>
        let q := o % 4096 / 64
        queueOf t c q = { queueOf s c q with tail := val % 2 ^ 64 } ∧ t.tiles = s.tiles ∧
        ∃ m, t.fab = { s.fab with net := s.fab.net ++ [m] } ∧ m.kind = .queueNotice ∧ m.cid = c ∧ m.num = q ∧ m.val = val % 2 ^ 64 ∧
          m.src = doorCistern s c ∧ m.dst = queueRole s) ∧
    ((s.svc.boot ≠ .ready ∨ o % 64 ≠ 24 ∨ ctxInSlot s f (o / 4096) = none) → Completes (.tailWrite f o val) s fun t => t = s)) ∧
  (∀ (s : State) (n : Nat) (m : Msg), elemAt s.fab.net n = some m → m.kind = .queueNotice → m.path = [] →
    m.dst = queueRole s →
    ((s.fab.net.take n).any fun o => o.kind == .queueNotice && o.cid == m.cid) = false →
    let x := queueOf s m.cid m.num
    x.st ≠ .free → m.val ≠ x.seen →
    (x.head ≤ m.val → m.val ≤ x.head + 2 ^ x.size → Completes (.queueNotice n) s fun t =>
      t.fab.net = dropAt s.fab.net n ∧ queueOf t m.cid m.num = { x with seen := m.val }) ∧
    ((m.val < x.head ∨ x.head + 2 ^ x.size < m.val) → x.st ≠ .suspended → Completes (.queueNotice n) s fun t =>
      t.fab.net = dropAt s.fab.net n ∧ queueOf t m.cid m.num = { x with st := .error, err := 13 })) ∧
  (∀ (s : State) (c q : Nat) (d : List Byte),
    let x := queueOf s c q
    let p : HPkt := { id := s.pump.nextId + 1, cid := c, q := q, slot := x.head % 2 ^ x.size,
                      words := (List.range 8).map fun i => leNat ((d.drop (8 * i)).take 8), order := s.pump.nextId + 1, since := s.now }
    x.st = .active → x.destroy = false → x.head ≠ x.seen → vread s c (x.base + 64 * (x.head % 2 ^ x.size)) 64 true false false = .ok d →
    admits s p = true →
    let newLsn : Prop := pType p = 1 ∧ (x.lsns = [] ∨ x.lsn < pSeq p)
    (packetOk p = true → pDep p = false → Completes (.packetAdmit c q) s fun t => t.pump.pkts = s.pump.pkts ++ [p] ∧ t.fab = s.fab ∧ t.tiles = s.tiles ∧
      (¬newLsn → queueOf t c q = { x with head := x.head + 1 } ∧ t.pump.kernels = s.pump.kernels) ∧
      (newLsn → queueOf t c q = { x with head := x.head + 1, lsn := pSeq p, lsns := FMap.put x.lsns (pSeq p) p.id } ∧
        kernOf t p.id = { cid := c, pkt := p.id, lsn := pSeq p, st := .queued })) ∧
    (packetOk p = false → Completes (.packetAdmit c q) s fun t => queueOf t c q = { x with head := x.head + 1 } ∧ t.fab = s.fab ∧
      t.tiles = s.tiles ∧ t.pump.pkts = endedPkts p 9 0 { s.pump with pkts := s.pump.pkts ++ [p] })) ∧
  (∀ (s : State) (n : Nat) (p : HPkt), elemAt s.pump.pkts n = some p →
    let prio (o : HPkt) : Nat := (queueOf s o.cid o.q).prio
    let va := pw p 4
    let queueOk : Prop := (queueOf s p.cid p.q).st ≠ .free ∧ (queueOf s p.cid p.q).st ≠ .suspended
    (p.st = .ready → (∀ o ∈ s.pump.pkts, o.st = .ready → prio o < prio p ∨ (prio o = prio p ∧ p.order ≤ o.order)) →
      Completes (.packetRun n) s fun t => t.tiles = s.tiles ∧ t.fab = s.fab ∧
        t.pump.pkts = s.pump.pkts.map fun o => if o.id = p.id then { o with st := .running, since := s.now } else o) ∧
    (p.st = .waiting →
      (∀ v, vnum s p.cid va 8 true false false = .ok v → waiters s p.cid va = [p] → waitMet p v = true → Completes (.waitRetest n) s fun t =>
        t.pump.pkts = endedPkts p 0 0 s.pump ∧ FMap.get [] t.pump.signals (sigKey p.cid va) = [] ∧
        ((queueOf s p.cid p.q).st = .blocked → (queueOf t p.cid p.q).st = .active)) ∧
      (∀ e, e ≠ 0 → vnum s p.cid va 8 true false false = .error e → Completes (.waitRetest n) s fun t => t.pump.pkts = endedPkts p 6 e s.pump) ∧
      (pw p 7 ≠ 0 → p.since + 1000 * pw p 7 ≤ s.now → Completes (.waitTimeout n) s fun t => t.pump.pkts = endedPkts p 10 0 s.pump)) ∧
    (p.st = .done → changing s p = false →
      (p.status = 0 → pDecva p = 0 → pSigva p = 0 → pIrq p = false → Completes (.packetComplete n) s fun t =>
        t.pump.pkts = s.pump.pkts.filter (fun o => o.id != p.id) ∧ t.fab = s.fab ∧ t.ctxs = s.ctxs ∧ t.tiles = s.tiles) ∧
      (p.status ≠ 0 → pSigva p = 0 → pIrq p = false → queueOk → Completes (.packetComplete n) s fun t =>
        t.pump.pkts = s.pump.pkts.filter (fun o => o.id != p.id) ∧ (queueOf t p.cid p.q).st = .error ∧ (queueOf t p.cid p.q).err = p.status ∧
        ∀ y, (s.pump.kernels.find? fun e => e.1 == p.id) = some (p.id, y) → y.st = .queued → kernOf t p.id = { y with st := .aborted, status := p.status })) ∧
    (p.st = .running →
      let noHash : Prop := (s.pump.hashes.any fun h => h.batch == p.id) = false
      (pType p = 0 → Ends (.nopPacket n) s p 0 0) ∧
      (pType p = 2 →
        (∀ d s', vread s p.cid va (pw p 6) true false false = .ok d → vwrite p.cid (pw p 5) d false true false s = .ok s' → EndsAs (.copyPacket n) s s' p) ∧
        ∀ e, e ≠ 0 → vread s p.cid va (pw p 6) true false false = .error e → Ends (.copyPacket n) s p 6 e) ∧
      (pType p = 3 →
        let d := (List.range (pw p 5 / 8)).flatMap fun _ => natLe 8 (pw p 6)
        (∀ s', vwrite p.cid va d false true false s = .ok s' → EndsAs (.fillPacket n) s s' p) ∧
        ∀ e, e ≠ 0 → vwrite p.cid va d false true false s = .error e → Ends (.fillPacket n) s p 6 e) ∧
      (pType p = 4 →
        (∀ v, vnum s p.cid va 8 true true false = .ok v →
          let sets (i : Instr) (op x : Nat) : Prop := ∀ s', pw p 5 = op → vput p.cid va 8 (x % 2 ^ 64) true true false s = .ok s' →
            waiters s' p.cid va = [] → EndsAs i s s' p
          sets (.signalSet n) 0 (pw p 6) ∧ sets (.signalAdd n) 1 (v + pw p 6) ∧ sets (.signalSub n) 2 (v + 2 ^ 64 - pw p 6)) ∧
        ∀ w s', pw p 5 = 3 → pw p 6 ≠ 0 → vnum s p.cid va 8 true true true = .ok w →
          vput p.cid va 8 (w / 2 ^ 32 * 2 ^ 32 + pw p 6) true true true s = .ok s' → EndsAs (.signalArm n) s (releaseEarly p.cid va s') p) ∧
      (pType p = 5 → ∀ v, vnum s p.cid va 8 true false false = .ok v →
        (waitMet p v = true → Ends (.waitPacket n) s p 0 0) ∧
        (waitMet p v = false → (queueOf s p.cid p.q).st = .active → Completes (.waitPacket n) s fun t => (queueOf t p.cid p.q).st = .blocked ∧
          (FMap.get [] t.pump.signals (sigKey p.cid va)).getLast? = some p.id ∧
          t.pump.pkts = s.pump.pkts.map fun o => if o.id = p.id then { o with st := .waiting, since := s.now } else o)) ∧
      (pType p = 6 → noHash → pw p 5 ≠ 0 → Completes (.measurePacket n) s fun t => t.pump.pkts = s.pump.pkts ∧ t.fab = s.fab ∧
        t.pump.hashes = s.pump.hashes ++ [{ cid := p.cid, ty := pw p 6, len := pw p 5, va := va, n := (pw p 5 + 2 ^ 20 - 1) / 2 ^ 20, pkt := p.id, batch := p.id }]) ∧
      (pType p = 7 → ∀ nonce s', vread s p.cid va 32 true false false = .ok nonce →
        vwrite p.cid (pw p 5) (receipt s p nonce) false true false { s with free := s.free + 1 } = .ok s' → EndsAs (.receiptPacket n) s s' p) ∧
      (pType p = 8 →
        let sz := bits (pw p 7) 22 21
        let r := mapPages p.cid p.id va (bits (pw p 7) 19 0) (if sz = 0 then 16 else if sz = 1 then 21 else 30) (pw p 5) (pw p 6)
          (bit (pw p 7) 20 || bit (pw p 6) 34) s
        (∀ s', r = .ok s' → EndsAs (.mapPacket n) s s' p) ∧ ∀ e, e ≠ 0 → r = .error e → Ends (.mapPacket n) s p e 0) ∧
      (pType p = 9 →
        let r := unmapRange p.cid p.id va (65536 * pw p 5) s
        (∀ s', r = .ok s' → EndsAs (.unmapPacket n) s s' p) ∧ ∀ e, e ≠ 0 → r = .error e → Ends (.unmapPacket n) s p e 0) ∧
      (pType p = 10 →
        let r := migratePages p.cid p.id va (pw p 5) (bits (pw p 6) 19 0) (bits (pw p 6) 23 20) (bits (pw p 6) 43 24) s
        (∀ s', r = .ok s' → EndsAs (.migratePacket n) s s' p) ∧ ∀ e, e ≠ 0 → r = .error e → Ends (.migratePacket n) s p e 0) ∧
      (pType p = 11 →
        let c := bits va 11 0
        ((s.ctx p.cid).func ≠ 0 → c ≠ p.cid → Ends (.checkpointPacket n) s p 14 0) ∧
        (∀ l, (s.ctx p.cid).func = 0 → (c ≠ 0xFFF → (s.ctx c).st = .savedStored) →
          (∀ d ∈ checkpointOf s p, (s.ctx d).st = .savedStored ∧ (s.ctx d).migs = []) → p.aux = 0 →
          ueEndpoint s p.cid (pw p 5) = some l → (s.ctx p.cid).job ≠ 0 →
          (stopPort s.fab (uePorts s) p.cid false = none → Completes (.checkpointPacket n) s fun t =>
            let at_ := (bits (l.getD 2 0) 23 0 * 4096 + bits (l.getD 2 0) 43 32) * 2 ^ 56 + pw p 6
            t.fab = { s.fab with ue := Mem.setBytes s.fab.ue at_ (checkpointStream s p) } ∧ t.tiles = s.tiles ∧ t.ctxs = s.ctxs ∧
            t.pump.pkts = s.pump.pkts.map fun o => if o.id = p.id then { o with aux := 2, effects := true } else o) ∧
          ∀ q, stopPort s.fab (uePorts s) p.cid false = some q → Completes (.checkpointPacket n) s fun t => t.fab.ue = s.fab.ue ∧
            FMap.get 0 t.fab.isolation q = FMap.get 0 s.fab.isolation q + 1 ∧ .ctxFault p.cid ∈ t.agenda) ∧
        (p.aux = 2 → Completes (.checkpointStreamDone n) s fun t =>
          t.pump.pkts = endedPkts p 0 0 s.pump ∨ t.pump.pkts = endedPkts p 6 8 s.pump)) ∧
      (pType p = 12 → noHash → ∀ d, vread s p.cid va 1032 true false false = .ok d →
        let w := leNat (d.take 8)
        ((w % 4 ≠ 0 ∨ tloadBad w = true) → Ends (.cdtloadPacket n) s p 9 0) ∧
        (w % 4 = 0 → tloadBad w = false → Completes (.cdtloadPacket n) s fun t => t.tiles = s.tiles ∧ t.pump.hashes.length = s.pump.hashes.length + 1 ∧
          ∀ e ∈ t.fab.cdtc, ∀ x ∈ e.2, x.1 = p.cid → x.2.1 ≠ pw p 5)))) ∧
  (∀ (s : State) (j i : Nat) (h : Hashing) (d : List Byte), elemAt s.pump.hashes j = some h → i < h.n → (h.leaves.any fun e => e.1 == i) = false →
    leafBytes s h i = .ok d → (FMap.put h.leaves i (leafHash d)).length < h.n → Completes (.leafHashDone j i) s fun t =>
      t = { s with pump := { s.pump with hashes := setAt s.pump.hashes j { h with leaves := FMap.put h.leaves i (leafHash d) } } }) ∧
  (∀ (s : State) (j : Nat) (h : Hashing), elemAt s.pump.hashes j = some h → (s.pump.hashes.filter fun o => o.batch == h.batch) = [h] → h.fin ≠ 0 →
    earlierEvent s h.cid h.batch h.fin = false → Completes (.measurementAppend j) s fun t =>
      let c := s.ctx h.cid
      let k := (c.events + 1) % 2 ^ 64
      (t.ctx h.cid).events = k ∧ (t.ctx h.cid).m = sha3 (c.m ++ natLe 4 h.ty ++ natLe 8 k ++ natLe 8 h.len ++ hashDigest h) ∧
      t.pump.hashes = s.pump.hashes.filter (fun o => o.batch != h.batch) ∧ t.fab = s.fab ∧ t.tiles = s.tiles) ∧
  (∀ (s : State) (role c q : Nat),
    (∀ bad next, elemAt s.svc.roles role = some (bad, next) → role ≠ 0 → (∀ p ∈ s.pump.pkts, roleOf (pType p) = role → p.st = .running → p.effects = true) →
      let gone := serviceTile (bad / 16) bad
      Completes (.pumpHouseTileFailure role 0 c q) s fun t => (t.tile gone).life = .faulted ∧ t.pump = s.pump ∧ t.ctxs = s.ctxs ∧
        ∃ spare : Option Nat, t.svc = { s.svc with roles := s.svc.roles.map (moveRole bad (spare.map (· - 2048))) } ∧
          (∀ r, spare = some r → tileDie r = bad / 16 ∧ (t.tile r).life = .idle ∧ (t.tile r).imem = (s.tile gone).imem) ∧
          (∀ r, r ≠ gone → spare ≠ some r → t.tile r = s.tile r) ∧
          (∀ e, elemAt s.svc.roles 0 = some e → e.1 ≠ bad → t.fab = { s.fab with member := t.fab.member })) ∧
    ((queueOf s c q).st ≠ .free → (queueOf s c q).st ≠ .suspended → Completes (.pumpHouseTileFailure role 1 c q) s fun t =>
      (queueOf t c q).st = .error ∧ (queueOf t c q).err = 12) ∧
    Completes (.pumpHouseTileFailure role 2 c q) s fun t =>
      ∀ p ∈ s.pump.pkts, role = 0 ∨ roleOf (pType p) = role → mayFault (s.ctx p.cid).st = true → (t.ctx p.cid).st = .faulted)

/-- From R345 to R353. A Queued LAUNCH, or one whose check had to wait, that fails a check ends with that status, and one without groups that passes
starts Loading; a LAUNCH whose LSN has passed ends as the one that bore it, once that is over, or as MALFORMED. A tile that is
quiet takes the kernel's code, windows and allotments; the kick decrements the counter of a START task. The last trigger makes the kernel
Triggered and released; the last acknowledgement of KDONE makes it Complete with status 0; one that a port on its way does not pass is lost (R17). KTRIG and KDONE: once per kernel, each behind a
fence of its scope, KDONE with a trigger before it where none was made; outside a kernel, and the second time, they only make the task
Exposed.
Model's choices: logs 34, 51 to 54, 94. -/
def Obligations.KernelEvents : Prop :=
  (∀ (s : State) (n : Nat) (p : HPkt) (y : Kern), runningPkt s n 1 = some p → (s.pump.kernels.find? fun e => e.1 == p.id) = some (p.id, y) →
    kernOf s p.id = y → (y.st = .queued ∨ (y.st = .checking ∧ y.checked = false)) →
    let z : Kern := if y.st = .queued then { y with scope := lScope p, early := isEarly p, st := .checking, tiles := (footprint (lBase p) (lLog p)).filter fun a => a / 2048 == s.dev }
      else y
    let refused (st e : Nat) : Prop := Completes (.launchPacket n) s fun t =>
      kernOf t p.id = { z with st := .refused, status := st } ∧ t.tiles = s.tiles ∧ t.fab = s.fab ∧
      t.pump.pkts = s.pump.pkts.map fun o => if o.id = y.pkt then { o with st := .done, status := st, reason := e, effects := o.effects || st == 0 } else o
    (∀ st e, launchChecks s p = .error (st, e) → st ≠ 0 → refused st e) ∧
    (∀ m d e, launchChecks s p = .ok (m, d) → bindReason s p.cid (readLists s p.cid (iGroups m)) = e → e ≠ 0 → e ≠ 255 → refused 3 e) ∧
    (∀ m d, launchChecks s p = .ok (m, d) → iGroups m = [] → bindReason s p.cid [] = 0 → present s p.cid = true →
      Completes (.launchPacket n) s fun t =>
      kernOf t p.id = { z with st := .loading, checked := true, img := m, args := d, imgid := BitVec.ofNat 64 (fld m 8 8), defs := [], groups := [] } ∧
      t.tiles = s.tiles ∧ t.fab = s.fab ∧ t.pump.hashes.length = s.pump.hashes.length + 4)) ∧
  (∀ (s : State) (n : Nat) (p : HPkt), runningPkt s n 1 = some p → (s.pump.kernels.find? fun e => e.1 == p.id) = none →
    let x := queueOf s p.cid p.q
    (∀ j k, (x.lsns.find? fun e => e.1 == pSeq p) = some (j, k) → kernOver (kernOf s k) = true → Ends (.launchPacket n) s p (kernOf s k).status 0) ∧
    ((x.lsns.find? fun e => e.1 == pSeq p) = none → Ends (.launchPacket n) s p 9 0)) ∧
  (∀ (s : State) (k p : Nat),
    let y := kernOf s k
    let a := s.placeOf p
    let u := s.tile p
    (y.st = .loading → y.tiles.contains a = true → NSet.mem y.loaded a = false → measured s k = true → kernTile u y = true → quiet u = true →
      Completes (.kernelTileLoad k p) s fun t =>
        let v := t.tile p
        NSet.mem (kernOf t k).loaded a = true ∧ v.kernel = some k ∧ v.coden = iCoden y.img ∧ v.sys.imgid = y.imgid ∧ v.sys.va = iVallot y.img ∧
        v.sys.aa = iAallot y.img ∧ v.regs.v = [] ∧ v.regs.q = [] ∧ v.regs.acc = [] ∧ v.accBad = [] ∧ v.spill = [] ∧
        (∀ i, i < iCoden y.img → FMap.get 0 v.imem i = BitVec.ofNat 32 (fld y.img (iCodeOff y.img + 4 * i) 4)) ∧
        (∀ i, i < 15 → FMap.get 0 v.sys.wd (i + 1) = BitVec.ofNat 64 (iWindow y.img (i + 1))) ∧
        (∀ q, q ≠ p → t.tile q = s.tile q) ∧ t.fab = s.fab) ∧
    (∀ i, y.st = .loading → NSet.mem y.loaded a = true → NSet.mem y.kicked a = false → takes u y.cid = true →
      (List.range (iNtask y.img)).filter (iTaskStart y.img) = [i] → Completes (.kernelTileKick k p) s fun t =>
        let c := iTaskSlot y.img i
        (t.tile p).task = (decTask c { u.task with ctrs := FMap.put u.task.ctrs c { FMap.get {} u.task.ctrs c with info := none } }).1 ∧
        NSet.mem (kernOf t k).kicked a = true ∧ ∀ q, q ≠ p → t.tile q = s.tile q) ∧
    (∀ o, y.st = .running → NSet.mem y.trig p = true → allIn y y.kicked = true → allIn y (NSet.add y.trigArr p) = true →
      (s.pump.pkts.find? fun o => o.id == y.pkt) = some o → pDecva o = 0 → allIn y y.doneArr = false →
      loaderStop s k p = none → Completes (.kernelTriggerArrival k p) s fun t =>
        kernOf t k = { y with trigArr := NSet.add y.trigArr p, st := .triggered, released := true } ∧ t.tiles = s.tiles ∧ t.fab = s.fab) ∧
    (y.st = .triggered → NSet.mem y.done p = true → allIn y (NSet.add y.doneArr p) = true → loaderStop s k p = none → Completes (.kdoneAckArrival k p) s fun t =>
      kernOf t k = { y with doneArr := NSet.add y.doneArr p, st := .complete, status := 0 } ∧ t.tiles = s.tiles ∧ t.fab = s.fab ∧
      t.pump.pkts = s.pump.pkts.map fun o => if o.id = y.pkt then { o with st := .done, status := 0, reason := 0, effects := true } else o) ∧
    (∀ q, kernLive y = true → loaderStop s k p = some q →
      let lost (i : Instr) (z : Kern) : Prop := Completes i s fun t => kernOf t k = z ∧ t.tiles = s.tiles ∧
        FMap.get 0 t.fab.isolation q = FMap.get 0 s.fab.isolation q + 1
      (NSet.mem y.trig p = true → lost (.kernelTriggerArrival k p) { y with trig := NSet.del y.trig p }) ∧
      (NSet.mem y.done p = true → lost (.kdoneAckArrival k p) { y with done := NSet.del y.done p }))) ∧
  (∀ (s : State) (x : R), GuardOn x.g x.n s →
    let k := s.t.mreq
    let fence (seq scope act : Nat) : Fence := { scope := scope, seq := seq, mx := s.t.mx.done + s.t.mx.queue.length, act := act, kern := s.t.kernel.getD 0 }
    let shown : Task := { s.t.task with run := { s.t.task.run with exposed := true } }
    ((s.t.kernel = none ∨ s.t.ktrig = true) → Completes (.ktrig x) s fun t => SameRest s t ∧ t.t = { s.t with task := shown }) ∧
    (s.t.kernel ≠ none → s.t.ktrig = false → Completes (.ktrig x) s fun t => SameRest s t ∧
      t.t = { s.t with task := shown, ktrig := true, mreq := { k with fences := k.fences ++ [fence k.seq 1 1], seq := k.seq + 1 } }) ∧
    ((s.t.kernel = none ∨ s.t.kdone = true) → Completes (.kdone x) s fun t => SameRest s t ∧ t.t = { s.t with task := shown }) ∧
    (∀ j, s.t.kernel = some j → s.t.kdone = false → s.t.ktrig = true → Completes (.kdone x) s fun t => SameRest s t ∧
      t.t = { s.t with task := shown, kdone := true, mreq := { k with fences := k.fences ++ [fence k.seq (kernOf s j).scope 2], seq := k.seq + 1 } }) ∧
    (∀ j, s.t.kernel = some j → s.t.kdone = false → s.t.ktrig = false → Completes (.kdone x) s fun t => SameRest s t ∧
      t.t = { s.t with task := shown, kdone := true, ktrig := true,
                       mreq := { k with fences := k.fences ++ [fence k.seq 1 1, fence (k.seq + 1) (kernOf s j).scope 2], seq := k.seq + 2 } }))

/-- From R16, R33, R373, R375 to R382. A fault ends the context's packets and kernels; function level reset destroys the function's contexts and
closes its mailbox and apertures; a grant takes tiles for an aligned partition that no other context holds and resets them, and makes room where one
does: what is on its tiles is saved, what is held is claimed. The end of a time slice asks every tile to save; a tile goes to Saving at its boundary and leaves when its matrix queue is empty; the channel is drained by keeping what waits; each
tile is captured, then, where another context claims them, evicted and freed, the last of which stores the context. The scheduler's trap restores once; a restore without poison
ends with the context resident and its parked messages and replies sent again, one with poison leaves it Saved, to fault then; CID_DROP frees a
destroyed CID and returns its tables and units to the reserve.
Model's choices: logs 5, 6, 39, 56 to 58, 86, 87, 103, 104. -/
def Obligations.ContextEvents : Prop :=
  (∀ (s : State) (c : Nat), mayFault (s.ctx c).st = true → ∃ t, exec (.contextFault c) s = .next t ∧ (t.ctx c).st = .faulted ∧
    (∀ p ∈ t.pump.pkts, p.cid = c → p.st = .done) ∧
    ∀ k, (k, kernOf s k) ∈ s.pump.kernels → (kernOf s k).cid = c → kernOver (kernOf t k) = true) ∧
  (∀ (s : State) (c : Nat), mayFault (s.ctx c).st = false → exec (.contextFault c) s = .next s) ∧
  (∀ (s : State) (f : Nat), 0 < f → f < 64 → ∃ t, exec (.functionLevelReset f) s = .next t ∧ t.svc.mailboxes = FMap.drop s.svc.mailboxes f ∧
    (∀ e ∈ t.svc.apertures, e.1 / 64 ≠ f) ∧ (∀ k ∈ t.svc.msixPending, k.1 / 256 ≠ f) ∧ (∀ k ∈ t.svc.msixMask, k.1 / 256 ≠ f) ∧ (∀ k ∈ t.svc.msixTable, k.1 / 512 ≠ f) ∧
    ∀ d ∈ ownedBy s f, (s.ctx d).st ≠ .free → (t.ctx d).st = .destroyed) ∧
  (∀ (s : State) (c base lg : Nat) (ps : List Nat),
    let x := s.ctx c
    let places := (List.range (16 * 2 ^ lg)).map (base + ·)
    let here := places.filter fun a => a / 2048 == s.dev
    let first := here.headD 0 % 2048
    shapeLog x.shape = some lg → shapeFits s x.shape = true → fullHouse s = false → x.st = .created → base % (16 * 2 ^ lg) = 0 →
    (sitesMeet s c first here.length ≠ [] → ∃ t, exec (.partitionGrant c base) s = .next t ∧ t.ctx c = x ∧ t.fab = s.fab ∧
      ∀ d ∈ sitesMeet s c first here.length,
        ((s.ctx d).st = .residentIdle ∨ (s.ctx d).st = .residentRunning → (t.ctx d).st = .preempting ∧ ∀ p ∈ tilesOf s d, (t.tile p).pend.save = true) ∧
        ((s.ctx d).st = .savedHeld → (t.ctx d).claimed = true)) ∧
    (sitesMeet s c first here.length = [] → assign s first here.length = some ps → ∃ t, exec (.partitionGrant c base) s = .next t ∧
      (t.ctx c).st = .residentIdle ∧ (t.ctx c).tiles = places ∧ (t.ctx c).base = base ∧ (t.ctx c).site = some (first, here.length) ∧
      (∀ e ∈ here.zip ps, let u := t.tile e.2
        u.resident = true ∧ u.sys.cid = c ∧ u.life = .idle ∧ u.regs = {} ∧ u.cyc0 = s.clk ∧ (ps.Nodup → u.place = some e.1)) ∧
      ∀ q, q ∉ ps → t.tile q = s.tile q)) ∧
  (∀ (s : State) (c : Nat),
    let x := s.ctx c
    x.slice ≠ 0 → x.sliceStart + 1000 * x.slice ≤ s.now → (x.st = .residentIdle ∨ x.st = .residentRunning) →
    ∃ t, exec (.timeSliceExpiry c) s = .next t ∧ (t.ctx c).st = .preempting ∧ (∀ p ∈ tilesOf s c, (t.tile p).pend.save = true) ∧
      (∀ p, p ∉ tilesOf s c → t.tile p = s.tile p) ∧ t.fab = s.fab ∧ t.pump = s.pump) ∧
  (∀ (s : State) (p : Nat),
    let u := s.tile p
    let done : Bool := u.mx.queue.isEmpty && u.mx.closed.isEmpty
    (u.life = .idle → u.pend.save = true → ∃ t, exec (.saveTaskBoundary p) s = .next t ∧ (∀ q, q ≠ p → t.tile q = s.tile q) ∧
      t.tile p = { u with life := .saving, pend := { u.pend with save := false }, resident := !done }) ∧
    (u.life = .saving → done = true → ∃ t, exec (.saveTaskBoundary p) s = .next t ∧ (∀ q, q ≠ p → t.tile q = s.tile q) ∧
      t.tile p = { u with resident := false })) ∧
  (∀ (s : State) (c : Nat),
    let x := s.ctx c
    x.st = .preempting → x.channelDrained = false → (∀ p ∈ tilesOf s c, isCut (s.tile p) = true) →
    (∀ m ∈ s.fab.net, m.cid = c → vcOf m = 3 → heldChunk m = true) → ∃ t, exec (.saveChannelDrained c) s = .next t ∧
      (t.ctx c).channelDrained = true ∧ (t.ctx c).st = .preempting ∧ t.tiles = s.tiles ∧
      (∀ m, m ∈ t.fab.net ↔ m ∈ s.fab.net ∧ ¬ (m.cid = c ∧ heldChunk m = true)) ∧ (∀ e ∈ t.fab.scheds, e.2.cid ≠ c) ∧
      (t.ctx c).scheds = placeScheds s (s.fab.scheds.filter fun e => e.2.cid == c) ∧
      (t.ctx c).parked = x.parked ++ (s.fab.net.filter fun m => m.cid == c && heldChunk m).map Parked.msg) ∧
  (∀ (s : State) (p : Nat),
    let u := s.tile p
    let c := u.sys.cid
    let x := s.ctx c
    let a := s.placeOf p
    (x.st = .preempting → x.channelDrained = true → isCut u = true → NSet.mem x.captured a = false → ∃ t, exec (.tileCaptureDone p) s = .next t ∧
      NSet.mem (t.ctx c).captured a = true ∧ FMap.get {} (t.ctx c).saved a = u ∧
      ((∀ b ∈ localPlaces s c, b ≠ a → NSet.mem x.captured b = true) → (t.ctx c).st = .savedHeld) ∧
      ((∃ b ∈ localPlaces s c, b ≠ a ∧ NSet.mem x.captured b = false) → (t.ctx c).st = .preempting ∧ t.tiles = s.tiles)) ∧
    (x.st = .savedHeld → x.claimed = true → u.place ≠ none → u.life = .idle → ∃ t, exec (.tileEviction p) s = .next t ∧ t.tile p = freeTile s.clk u ∧
      (∀ q, q ≠ p → t.tile q = s.tile q) ∧ NSet.mem (t.ctx c).evicted a = true ∧
      ((∀ b ∈ localPlaces s c, b ≠ a → NSet.mem x.evicted b = true) → (t.ctx c).st = .savedStored ∧ (t.ctx c).site = none))) ∧
  (∀ (s : State) (c : Nat),
    let x := s.ctx c
    x.schedTrap = true → x.trapTaken = false → checkpointed s c = false → fullHouse s = false → x.st = .savedHeld → x.evicted = [] →
    ∃ t, exec (.schedulerTrap c) s = .next t ∧ (t.ctx c).st = .restoring ∧ (t.ctx c).trapTaken = true) ∧
  (∀ (s : State) (c : Nat),
    let x := s.ctx c
    let bad : Bool := (localPlaces s c).any fun a =>
      blockPoison s c (tileBlock s c a) (!x.evicted.isEmpty) (FMap.get (s.tile (s.physOf c a)) x.saved a).sys.aa
    x.st = .restoring →
    (bad = true → ∃ t, exec (.restoreComplete c) s = .next t ∧ (t.ctx c).st = .savedStored ∧ .ctxFault c ∈ t.agenda ∧
      ∀ p ∈ tilesOf s c, (t.tile p).place = none ∧ (t.tile p).sys.cid = 0) ∧
    (bad = false → ∃ t, exec (.restoreComplete c) s = .next t ∧
      (((tilesOf s c).any fun p => !(t.tile p).task.recs.isEmpty) = true → (t.ctx c).st = .residentRunning) ∧
      (((tilesOf s c).any fun p => !(t.tile p).task.recs.isEmpty) = false → (t.ctx c).st = .residentIdle) ∧ (t.ctx c).parked = [] ∧ (t.ctx c).scheds = [] ∧
      (∀ m, Parked.msg m ∈ x.parked → ∃ k, 0 < k ∧ { m with replay := k } ∈ t.fab.net) ∧
      (∀ m, Parked.reply m ∈ x.parked → ∃ k, 0 < k ∧ { m with replay := k } ∈ t.fab.pkts) ∧
      ∀ a ∈ localPlaces s c, (t.tile (s.physOf c a)).resident = true ∧ (t.tile (s.physOf c a)).life = .idle ∧ (t.tile (s.physOf c a)).pend = {})) ∧
  (∀ (s : State) (c : Nat), (s.ctx c).st = .destroyed → ∃ t, exec (.cidDropComplete c) s = .next t ∧ t.ctx c = {} ∧ t.tiles = s.tiles ∧
    t.svc.reserve = s.svc.reserve ++ (tablesFrom s levels (s.ctx c).root).drop 1 ∧ t.svc.units = s.svc.units + ((s.ctx c).overflowUnits - 1) ∧
    (∀ m ∈ t.fab.net, m.cid ≠ c) ∧ (∀ m ∈ t.fab.pkts, m.cid ≠ c) ∧ (∀ p ∈ t.pump.pkts, p.cid ≠ c) ∧ ∀ e ∈ t.pump.kernels, e.2.cid ≠ c)

/-! ## Links and the host (R17, R391 to R413) -/

/-- R17, R15, R368: a switch port passes a message whose CID its bitmap marks, or discards it, counts the violation, reports CID and source
place and faults the context; the door of a service cluster passes only the classes of its die's firewall register; the ordered class keeps
its order. A port of the device's root puts a message's flits before a Welim port, which sends what its credits allow; past a UE port it has left the
device, with its context's JOB and PID and its endpoint's entry. With no port left that may carry it (R403), its context faults.
Model's choices: logs 8, 74, 87. -/
def Obligations.SwitchPortEvents : Prop :=
  ∀ (s : State) (n : Nat) (m : Msg), elemAt s.fab.net n = some m →
    (m.path = [] → exec (.switchPortPass n) s = .next s) ∧
    ∀ q r, m.path = q :: r →
      let left : List Msg := dropAt s.fab.net n
      let blocked := (s.fab.net.take n).any fun o =>
        !o.path.isEmpty && decide (r.length < o.path.length) && o.dst == m.dst && o.src == m.src && o.cid == m.cid && inOrder m o
      let root := 2 ^ 32 ≤ q ∧ swLevel (q - 2 ^ 32) = 3 ∧ m.port ≠ 2
      let pass (p : Nat) : Bool := portPasses s.fab p m.cid (vcOf m == 3)
      let gone (p : Nat) : State := { s with
        fab := { s.fab with net := left, isolation := FMap.put s.fab.isolation p (FMap.get 0 s.fab.isolation p + 1)
                            reports := s.fab.reports ++ [(m.cid, m.src)] }
        agenda := (if (s.ctx m.cid).st = .free then [] else [.ctxFault m.cid]) ++ s.agenda }
      (blocked = true → exec (.switchPortPass n) s = .next s) ∧
      (blocked = false → (pass q = false ∨ doorShut s m q r = true) → exec (.switchPortPass n) s = .next (gone q)) ∧
      (blocked = false → pass q = true → doorShut s m q r = false →
        (¬root → (m.ue = none ∨ r ≠ []) → Completes (.switchPortPass n) s fun t =>
          t = { s with fab := { s.fab with net := setAt s.fab.net n { m with path := r } } }) ∧
        (∀ u, ¬root → m.ue = some u → r = [] → Completes (.switchPortPass n) s fun t =>
          t = { s with fab := { s.fab with net := left }, svc := { s.svc with ueOut := s.svc.ueOut ++ [ueTx s q m] } }) ∧
        (root → upPortOf s (vcOf m) m.dst = none → linkLeft s = true → exec (.switchPortPass n) s = .next s) ∧
        (root → upPortOf s (vcOf m) m.dst = none → linkLeft s = false → (msgClass m).1 ≠ 7 → Completes (.switchPortPass n) s fun t => t =
          { s with fab := { s.fab with net := left }, agenda := (if (s.ctx m.cid).st = .free then [] else [.ctxFault m.cid]) ++ s.agenda }) ∧
        ∀ u, root → upPortOf s (vcOf m) m.dst = some u →
          let port := portOfPlace (welimPlace s.dev u)
          (pass port = false → exec (.switchPortPass n) s = .next (gone port)) ∧
          (pass port = true → Completes (.switchPortPass n) s fun t => (∀ v, v ≠ u → welim t v = welim s v) ∧
            t = { s with ports := t.ports, fab := { s.fab with net := left } } ∧
            (sendsData (welim s u) = false → welim t u = { welim s u with sendq := (welim s u).sendq ++ waitingFlits (vcOf m) [] (msgFlits m) }) ∧
            (sendsData (welim s u) = true → (welim s u).sendq = [] → (welim s u).replay.length < 2048 → 0 < vcAt (welim s u).credits (vcOf m) →
              (welim t u).outp ≠ (welim s u).outp)))

/-- R392 and R393: what a Welim port does with a packet it receives: one with a bad CRC is counted and discarded; DATA in order is delivered
and asks for the next, DATA ahead of order draws one NAK, DATA behind draws an ACK; ACK frees the replay buffer and returns credits; NAK
has every outstanding packet sent again in order, each of them counted. The timers resend and acknowledge.
Model's choices: logs 6, 74, 90, 115. -/
def Obligations.LinkPacketEvents : Prop :=
  (∀ (s : State) (q : Nat) (w : LinkPkt),
    let x := welim s q
    let d := (w.seq + 4096 - x.rxseq) % 4096
    let fine := hears x = true ∧ badPkt w = false
    let taken := (w.ack + 4096 - x.acked) % 4096
    let y := takeAck w s.now x
    let recent := (x.naks.filter fun k => decide (s.now < k + 1000)).length
    let told (ty : Nat) (t : State) : Prop := ∃ l p, (welim t q).outp = l ++ [p] ∧ p.ty = ty ∧ p.ack = (x.rxseq + 4095) % 4096
    (∀ i, i = .welimDataReceive q w ∨ i = .welimAckReceive q w ∨ i = .welimNakReceive q w → hears x = false → exec i s = .next s) ∧
    (hears x = true → badPkt w = true → Completes (.welimDataReceive q w) s fun t =>
      OnlyPort q s t ∧ welim t q = { x with crcErr := x.crcErr + 1 }) ∧
    (fine → w.ty = 0 → d = 0 → Completes (.welimDataReceive q w) s fun t => t.tiles = s.tiles ∧
      (welim t q).rxseq = (x.rxseq + 1) % 4096 ∧ (welim t q).naked = false ∧ (∀ r, r ≠ q → welim t r = welim s r) ∧
      (∀ h fl, w.flits = h :: fl → w.head = 1 → w.tail = 2 ^ fl.length → t.fab = (deliver w.vc h fl s).fab) ∧
      ((w.tail = 0 ∨ w.flits = []) → t.fab = s.fab)) ∧
    (fine → w.ty = 0 → 0 < d → d < 2048 → x.naked = false → Completes (.welimDataReceive q w) s fun t =>
      OnlyPort q s t ∧ (welim t q).rxseq = x.rxseq ∧ (welim t q).naked = true ∧ told 2 t) ∧
    (fine → w.ty = 0 → 0 < d → d < 2048 → x.naked = true → Completes (.welimDataReceive q w) s fun t =>
      OnlyPort q s t ∧ (welim t q).rxseq = x.rxseq ∧ (x.sendq = [] → (welim t q).outp = x.outp)) ∧
    (fine → w.ty = 0 → 2048 ≤ d → Completes (.welimDataReceive q w) s fun t =>
      OnlyPort q s t ∧ (welim t q).rxseq = x.rxseq ∧ told 1 t) ∧
    (fine → (w.ty = 1 ∨ w.ty = 6) → x.sendq = [] → Completes (.welimAckReceive q w) s fun t => OnlyPort q s t ∧
        (∀ i, i < 4 → vcAt (welim t q).credits i = vcAt x.credits i + vcAt w.credit i) ∧
        (welim t q).outp = x.outp ∧ (welim t q).st = x.st ∧
        (0 < taken → taken ≤ x.replay.length → (welim t q).acked = w.ack ∧ (welim t q).replay = x.replay.drop taken) ∧
        ((taken = 0 ∨ x.replay.length < taken) → (welim t q).acked = x.acked ∧ (welim t q).replay = x.replay)) ∧
    (fine → w.ty = 2 → x.sendq = [] → recent < 15 → Completes (.welimNakReceive q w) s fun t => OnlyPort q s t ∧
        (welim t q).outp.map (fun p => (p.ty, p.seq, p.flits)) = x.outp.map (fun p => (p.ty, p.seq, p.flits)) ++
          y.replay.map (fun p => (p.ty, p.seq, p.flits)) ∧
        (welim t q).replay = y.replay ∧ (y.replay ≠ [] → (welim t q).replays = Nat.min (x.replays + y.replay.length) 0xFFFF) ∧ (welim t q).st = x.st)) ∧
  (∀ (s : State) (q : Nat),
    let x := welim s q
    (sendsData x = true → x.replay ≠ [] → x.txAt + 5000 ≤ s.now → Completes (.welimReplayTimeout q) s fun t => OnlyPort q s t ∧
      (welim t q).outp.map (fun p => (p.ty, p.seq, p.flits)) = (x.outp ++ x.replay).map (fun p => (p.ty, p.seq, p.flits)) ∧
      (welim t q).replay = x.replay ∧ (welim t q).txAt = s.now ∧ (welim t q).replays = Nat.min (x.replays + x.replay.length) 0xFFFF) ∧
    (sendsData x = false ∨ x.replay = [] ∨ s.now < x.txAt + 5000 → exec (.welimReplayTimeout q) s = .next s) ∧
    (sendsData x = true → 0 < x.unacked → Completes (.welimAckTimer q) s fun t => OnlyPort q s t ∧
      (welim t q).outp = x.outp ++ [sealPkt { ty := 1, ack := (x.rxseq + 4095) % 4096, credit := x.back }] ∧ (welim t q).unacked = 0) ∧
    (x.unacked = 0 → exec (.welimAckTimer q) s = .next s))

/-- From R394 to R396 and R399 to R403. A lane lost while the port is in service sends it to Retrain with the best width left, or fails it with
reason 1; a sample with a weak lane in use begins the swap onto S. SWAP is repeated, SWAPACK names the cut-over, at which the swap is made;
a swap not acknowledged in time retrains or fails. Retrain and Train fail in time with reasons 2 and 3. A good training set: in Detect it
counts locked lanes, four of which begin Train; in Train it fixes version and width, or fails with reason 4 where the other end lacks
version 1; in Retrain a set that shows other lanes locked at the far end makes it choose again; when every lane has had its 16 sets the port is Up or Degraded with the credits offered.
Model's choices: log 36. -/
def Obligations.LinkLaneEvents : Prop :=
  (∀ (s : State) (q lane : Nat),
    let x := welim s q
    let rx := if bit x.rxok lane then x.rxok - 2 ^ lane else x.rxok
    let c := chooseWidth (fun i => !NSet.mem (NSet.add x.lost lane) i && bit rx i && bit x.farRx i) x.smap
    (lane ≤ 16 → inService x = false → x.st ≠ .retrain → Completes (.laneLoss q lane) s fun t =>
      OnlyPort q s t ∧ welim t q = { x with lost := NSet.add x.lost lane, rxok := rx }) ∧
    (lane ≤ 16 → (inService x = true ∨ x.st = .retrain) → Completes (.laneLoss q lane) s fun t =>
      NSet.mem (welim t q).lost lane = true ∧
      (welim t q).retrains = (if x.st = .retrain then x.retrains else Nat.min (x.retrains + 1) 0xFFFF) ∧
      (c.2.1 ≠ 0 → OnlyPort q s t ∧ (welim t q).st = .retrain ∧ (welim t q).smap = c.1 ∧ (welim t q).width = c.2.1 ∧
        (welim t q).group = c.2.2 ∧ (welim t q).replay = x.replay) ∧
      (c.2.1 = 0 → (welim t q).st = .failed ∧ (welim t q).reason = 1 ∧ (welim t q).hashed = false)) ∧
    (16 < lane → exec (.laneLoss q lane) s = .next s)) ∧
  (∀ (s : State) (q : Nat) (l : LaneSample),
    let x := welim s q
    let weak := (List.range 17).filter (weakLane s.svc l)
    let first := (widthLanes x.width x.group).find? fun i => weak.contains i
    ((x.st = .down ∨ x.st = .failed) → exec (.laneSample q l) s = .next s) ∧
    let noLoss : Prop := ∀ i, i < 17 → sampleLost l i = true → NSet.mem x.lost i = true
    (noLoss → x.st ≠ .down → x.st ≠ .failed →
      ((x.st ≠ .up ∧ x.st ≠ .degraded) ∨ x.smap ≠ none ∨ NSet.mem x.lost 16 = true ∨ first = none) → Completes (.laneSample q l) s fun t =>
      OnlyPort q s t ∧ welim t q = { x with log := l, weak := NSet.addAll [] weak }) ∧
    (∀ i, noLoss → (x.st = .up ∨ x.st = .degraded) → x.smap = none → NSet.mem x.lost 16 = false → first = some i →
      Completes (.laneSample q l) s fun t => OnlyPort q s t ∧ (welim t q).st = .swap ∧ (welim t q).swapLane = some i ∧
        (welim t q).swapQ = none ∧ (welim t q).swapAt = s.now ∧ (welim t q).log = l ∧
        (welim t q).outp = x.outp ++ [sealPkt { ty := 3, tstamp := i, ack := (x.rxseq + 4095) % 4096, credit := x.back }])) ∧
  (∀ (s : State) (q : Nat) (w : LinkPkt),
    let x := welim s q
    (∀ i, x.swapLane = some i → x.st = .swap → x.swapQ = none → x.swapRep + 10000 ≤ s.now → Completes (.swapRepeat q) s fun t =>
      OnlyPort q s t ∧ (welim t q).swapRep = s.now ∧
      (welim t q).outp = x.outp ++ [sealPkt { ty := 3, tstamp := i, ack := (x.rxseq + 4095) % 4096, credit := x.back }]) ∧
    (badPkt w = false → w.ty = 4 → x.st = .swap → x.swapQ = none → x.swapLane = some (bits w.tstamp 4 0) →
      Completes (.swapackReceive q w) s fun t => OnlyPort q s t ∧ (welim t q).swapQ = some (bits w.tstamp 27 16) ∧ (welim t q).st = .swap) ∧
    (badPkt w = false → w.ty = 4 → hears x = true → x.swapLane ≠ some (bits w.tstamp 4 0) →
      Completes (.swapackReceive q w) s fun t => OnlyPort q s t ∧ (welim t q).swapQ = x.swapQ ∧ (welim t q).smap = x.smap) ∧
    (∀ i k, x.swapLane = some i → x.swapQ = some k → x.st = .swap →
      ((x.txseq + 4095 - k) % 4096 < 2048 → Completes (.swapCutover q) s fun t => OnlyPort q s t ∧
        welim t q = { x with st := .up, width := 3, group := 0, smap := some i, swapLane := none, swapQ := none }) ∧
      (2048 ≤ (x.txseq + 4095 - k) % 4096 → exec (.swapCutover q) s = .next s)) ∧
    (x.st = .swap → x.swapAt + 200000 ≤ s.now → Completes (.swapTimeout q) s fun t =>
      ((welim t q).st = .retrain ∨ (welim t q).st = .failed) ∧ (welim t q).swapLane = none) ∧
    ((x.st ≠ .swap ∨ s.now < x.swapAt + 200000) → exec (.swapTimeout q) s = .next s) ∧
    (x.st = .retrain → x.trainAt + 40000 ≤ s.now → Completes (.retrainTimeout q) s fun t =>
      (welim t q).st = .failed ∧ (welim t q).reason = 2 ∧ (welim t q).hashed = false) ∧
    (x.st = .train → x.trainAt + 2000000 ≤ s.now → Completes (.trainTimeout q) s fun t =>
      (welim t q).st = .failed ∧ (welim t q).reason = 3 ∧ (welim t q).hashed = false)) ∧
  (∀ (s : State) (q : Nat) (t : TrainSet),
    let x := welim s q
    let own := Nat.lor x.rxok (2 ^ t.lane)
    let locked := ((List.range 17).filter fun i => bit own i).length
    let c := chooseWidth (fun i => bit (Nat.land own t.rxok) i) none
    let training : Prop := x.st = .detect ∨ x.st = .train ∨ x.st = .retrain
    let r := chooseWidth (fun i => !NSet.mem x.lost i && bit x.rxok i && bit (t.rxok % 2 ^ 17) i) x.smap
    ((goodSet t = false ∨ 16 < t.lane ∨ ¬training) → exec (.trainingSetReceive q t) s = .next s) ∧
    (goodSet t = true → t.lane ≤ 16 → x.st = .retrain → x.farRx ≠ t.rxok % 2 ^ 17 → r.2.1 ≠ 0 → Completes (.trainingSetReceive q t) s fun u =>
      OnlyPort q s u ∧ (welim u q).farRx = t.rxok % 2 ^ 17 ∧ (welim u q).st = .retrain ∧ (welim u q).smap = r.1 ∧ (welim u q).width = r.2.1 ∧
      (welim u q).group = r.2.2) ∧
    (goodSet t = true → t.lane ≤ 16 → t.phase = 0 → x.st = .detect → Completes (.trainingSetReceive q t) s fun u => OnlyPort q s u ∧
      (welim u q).rxok = own ∧ (welim u q).vers = t.vers ∧
      (4 ≤ locked → (welim u q).st = .train ∧ (welim u q).trainAt = s.now) ∧ (locked < 4 → (welim u q).st = .detect)) ∧
    (goodSet t = true → t.lane ≤ 16 → t.phase = 0 → x.st = .train → bit t.vers 1 = true → c.2.1 ≠ 0 →
      Completes (.trainingSetReceive q t) s fun u => OnlyPort q s u ∧
      (welim u q).version = 1 ∧ (welim u q).smap = c.1 ∧ (welim u q).width = c.2.1 ∧ (welim u q).group = c.2.2) ∧
    (goodSet t = true → t.lane ≤ 16 → t.phase = 0 → x.st = .train → bit t.vers 1 = false → Completes (.trainingSetReceive q t) s fun u =>
      (welim u q).st = .failed ∧ (welim u q).reason = 4) ∧
    (goodSet t = true → t.lane ≤ 16 → t.phase = 2 → x.st = .train → x.width ≠ 0 → t.chosen = x.version → t.width = x.width + 4 * x.group →
      t.smap = smapByte x → (∀ i ∈ widthLanes x.width x.group, physLane x.smap i ≠ t.lane → 16 ≤ FMap.get 0 x.doneCnt (physLane x.smap i)) →
      15 ≤ FMap.get 0 x.doneCnt t.lane → x.sendq = [] → Completes (.trainingSetReceive q t) s fun u => OnlyPort q s u ∧
      (welim u q).st = (if x.width = 3 then .up else .degraded) ∧ (welim u q).credits = t.credit ∧ (welim u q).hashed = true))

/-- From R398, R404 to R408, R411. SYNC sets GTIME to its time plus the link's delay, and its loss is noted after its time. A host access to an
aperture page becomes packets of its context, or where it names none of the function's contexts reads nothing and writes nothing. A write of
the aperture map sets the slot, with ERR where the context is not the function's; before the boot has ended and in Recovery it does nothing (R418). IDE_KM keeps the key. A packet of a UE port with no job,
or for a tile that is not the context's, is dropped and counted; else it becomes a message, on its way from the port, or packets of that context.
Model's choices: logs 35, 38, 81, 95, 96, 111. -/
def Obligations.HostEvents : Prop :=
  (∀ (s : State) (q : Nat) (w : LinkPkt), w.ty = 5 → badPkt w = false → hears (welim s q) = true → (welim s q).sendq = [] →
    w.tstamp + (welim s q).delay < 2 ^ 64 → Completes (.syncReceive q w) s fun t =>
      t.gtime = w.tstamp + (welim s q).delay ∧ t.svc.synced = true ∧ t.svc.syncAt = s.now ∧ t.tiles = s.tiles ∧ t.fab = s.fab) ∧
  (∀ s : State,
    (s.svc.synced = true → s.svc.syncAt + 100000000 ≤ s.now → Completes .syncLoss s fun t =>
      t = { s with svc := { s.svc with synced := false } }) ∧
    ((s.svc.synced = false ∨ s.now < s.svc.syncAt + 100000000) → exec .syncLoss s = .next s)) ∧
  (∀ (s : State) (h : HostAcc),
    let a := apertureOf s h.func h.slot
    let seq := s.svc.hostSeq
    ((64 ≤ h.slot ∨ a.v = false ∨ (s.ctx a.cid).st = .free ∨ (s.ctx a.cid).func ≠ h.func) → Completes (.bar2Access h) s fun t =>
      t = { s with svc := { s.svc with hostSeq := seq + 1, hostReplies :=
        s.svc.hostReplies ++ if h.write then [] else [(seq * 2 ^ 16, [])] } }) ∧
    (h.slot < 64 → a.v = true → (s.ctx a.cid).st ≠ .free → (s.ctx a.cid).func = h.func → Completes (.bar2Access h) s fun t =>
      ∃ l, t = { s with svc := { s.svc with hostSeq := seq + 1 }, fab := { s.fab with pkts := s.fab.pkts ++ l } } ∧
        (l.map fun m => (m.va, m.len)) = cutRange (a.va + h.off % 2 ^ 30) (if h.write then h.data.length else h.len) ∧
        ∀ m ∈ l, m.cid = a.cid ∧ m.place = hostParty ∧ m.kind = (if h.write then .put else .get))) ∧
  (∀ (s : State) (f j w0 w1 : Nat),
    let c := bits w1 11 0
    ((64 ≤ j ∨ 64 ≤ f ∨ s.svc.boot ≠ .ready) → exec (.apertureMapWrite f j w0 w1) s = .next s) ∧
    (j < 64 → f < 64 → s.svc.boot = .ready → Completes (.apertureMapWrite f j w0 w1) s fun t =>
      let a := apertureOf t f j
      let own := (s.ctx c).st ≠ .free ∧ (s.ctx c).func = f
      a.va = bits w0 55 30 * 2 ^ 30 ∧ a.cid = c ∧ (own → a.v = bit w0 63 ∧ a.err = false) ∧ (¬own → a.v = false ∧ a.err = true) ∧
      t.fab.net = s.fab.net ∧ t.fab.pkts = s.fab.pkts ∧ t.tiles = s.tiles ∧ ∀ f' j', j' < 64 → (f', j') ≠ (f, j) → apertureOf t f' j' = apertureOf s f' j')) ∧
  (∀ (s : State) (k : Nat), Completes (.ideKmRequest k) s fun t => t = { s with svc := { s.svc with idekey := some k } }) ∧
  (∀ (s : State) (u : UePkt),
    let job := s.svc.jobs.find? fun e => e.1 == u.job * 4096 + u.pid
    let port := portOfPlace (uePlace s.dev (u.port % 8))
    let dropped (t : State) : Prop := FMap.get 0 t.fab.isolation port = FMap.get 0 s.fab.isolation port + 1 ∧
      t = { s with fab := { s.fab with isolation := t.fab.isolation } }
    (job = none → Completes (.uePacketReceive u) s dropped) ∧
    (∀ k cid, job = some (k, cid) → u.cls ≠ 4 → ((s.ctx cid).tiles.contains u.dst = false ∨ ueKind u = none) →
      Completes (.uePacketReceive u) s dropped) ∧
    (∀ k cid mk, job = some (k, cid) → u.cls ≠ 4 → ueKind u = some mk → (s.ctx cid).tiles.contains u.dst = true →
      Completes (.uePacketReceive u) s fun t => ∃ m, t = { s with fab := { s.fab with net := s.fab.net ++ [m] } } ∧ m.kind = mk ∧ m.cid = cid ∧
        m.dst = u.dst ∧ m.tag = u.tag ∧ m.len = u.len ∧ m.payload = u.payload ∧
        m.path = pathOf s.svc.bw s.svc.rw (uePlace s.dev (u.port % 8)) (if u.cls = 7 then engineOf (physPlace s cid u.dst) else physPlace s cid u.dst)) ∧
    (∀ k cid, job = some (k, cid) → u.cls = 4 → uePkts u cid s.svc.hostSeq ≠ [] → Completes (.uePacketReceive u) s fun t =>
      t = { s with svc := { s.svc with hostSeq := s.svc.hostSeq + 1 }, fab := { s.fab with pkts := s.fab.pkts ++ uePkts u cid s.svc.hostSeq } }) ∧
    (∀ k cid, job = some (k, cid) → u.cls = 4 → uePkts u cid s.svc.hostSeq = [] → Completes (.uePacketReceive u) s dropped))

/-! ## The yoke (R311 to R326) -/

/-- R311 to R315, R324, R326: YOKE asks every other member to join and waits for the formation to end, and gives what it ended with, at once
where a cause of failure holds already; a member mask or a share that breaks the rules gives 4; YOKE outside Single traps. UNYOKE ends the yoke, in a block when the block commits.
BLKH and BLKV do nothing as syllables.
Model's choices: log 50. -/
def Obligations.YokeInstructionResults : Prop :=
  (∀ (s : State) (x : R), GuardOn x.g x.n s → maskedG s x.d = false →
    let a := (rg s x.a).toNat
    let b := (rg s x.b).toNat
    let l := tileNo s s.cur
    let zeros := bits a 63 48 = 0 ∧ bits a 31 16 = 0 ∧ bits b 63 53 = 0 ∧ bits b 31 21 = 0
    let mask (n : Nat) : Prop := bits a 15 0 = (2 ^ n - 1) * 2 ^ l ∧ l % n = 0
    let share := bits b 20 0 % 65536 = 0 ∧ 65536 ≤ bits b 20 0 ∧ bits b 20 0 ≤ 2 ^ 20 ∧ bits b 52 32 % 65536 = 0 ∧
      bits b 52 32 + bits b 20 0 ≤ 2 ^ 21
    (∀ v, wokenVal s = some v → SetsG (.yoke x) s x.d (BitVec.ofNat 64 v)) ∧
    (wokenVal s = none → Alone s → ¬zeros → Traps (.yoke x) s (tr cIllegalOp)) ∧
    (wokenVal s = none → (s.t.bun.blk ≠ none ∨ s.t.yk.st ≠ .single) → exec (.yoke x) s = .next (raise (yokeTrap 4) s)) ∧
    (wokenVal s = none → zeros → s.t.bun.blk = none → s.t.yk.st = .single → (¬(mask 2 ∨ mask 4 ∨ mask 8 ∨ mask 16) ∨ ¬share) →
      SetsG (.yoke x) s x.d 4) ∧
    (∀ n, wokenVal s = none → zeros → s.t.bun.blk = none → s.t.yk.st = .single → (n = 2 ∨ n = 4 ∨ n = 8 ∨ n = 16) → mask n → share →
      let asked := formYoke s.cur n a b s
      (joinFail asked s.cur = none → Completes (.yoke x) s fun t => t.t.wait = s.t.wait ++ [(s.t.bun.pos, .yoke)] ∧ t.t.regs = s.t.regs ∧
        t.fab = s.fab ∧
        t.t.yk = { st := .forming, leader := l, n := n, mask := bits a 15 0, base := bits b 52 32, size := bits b 20 0, tmo := bits a 47 32,
                   since := s.clk } ∧
        (∀ q ∈ yokeMembers s s.cur n, (t.tile q).pend.join = (s.tile q).pend.join.filter (· != s.cur) ++ [s.cur]) ∧
        ∀ q, q ≠ s.cur → q ∉ yokeMembers s s.cur n → t.tile q = s.tile q) ∧
      (∀ c m, joinFail asked s.cur = some (c, m) → Completes (.yoke x) s fun t =>
        rg t x.d = (if x.d = 0 then 0 else BitVec.ofNat 64 (c + m * 2 ^ 16)) ∧ (∀ k, k ≠ x.d → rg t k = rg s k) ∧ t.t.yk = {} ∧
        (∀ q ∈ yokeMembers s s.cur n, s.cur ∉ (t.tile q).pend.join) ∧
        ∀ q, q ≠ s.cur → q ∉ yokeMembers s s.cur n → t.tile q = s.tile q))) ∧
  (∀ (s : State) (x : R), GuardOn x.g x.n s → maskedG s x.d = false →
    (s.t.bun.blk = none → s.t.yk.st = .single → SetsG (.unyoke x) s x.d 1) ∧
    (s.t.bun.blk = none → s.t.yk.st ≠ .single → s.t.life = .running → Completes (.unyoke x) s fun t =>
      rg t x.d = 0 ∧ (∀ n, n ≠ x.d → rg t n = rg s n) ∧ t.t.yk = { pred := s.t.yk.pred } ∧ t.t.life = .running ∧ t.t.sram = s.t.sram ∧
      ∀ q ∈ yokeMembers s s.cur s.t.yk.n, s.cur ∉ (t.tile q).pend.join ∧
        (isMember s s.cur q = true → (∀ l ∈ (s.tile q).pend.join, l = s.cur) → (t.tile q).life ≠ .member)) ∧
    (∀ b, s.t.bun.blk = some b → b.last = false → exec (.unyoke x) s = .next (raise (yokeTrap 4) s)) ∧
    (∀ b, s.t.bun.blk = some b → b.last = true → Completes (.unyoke x) s fun t => SameRest s t ∧ rg t x.d = 0 ∧
      (∀ n, n ≠ x.d → rg t n = rg s n) ∧
      t.t = { s.t with regs := { s.t.regs with g := t.t.regs.g }, bun := { s.t.bun with blk := some { b with leave := true } } })) ∧
  (∀ (s : State) (x : L), Completes (.blkh x) s (fun t => t = s) ∧ Completes (.blkv x) s (fun t => t = s))

/-- R312 to R314, R325, R326: forming and the end of a yoke: a member joins when Idle; the formation ends with the lowest status whose cause
holds, or with all joined; a Faulted member raises YOKE MEMBER; a yoke that drains ends.
Model's choices: logs 5, 42, 44, 50. -/
def Obligations.YokeLifeEvents : Prop :=
  ∀ (s : State) (p : Nat),
    let u := s.tile p
    let y := u.yk
    let waits (t : State) (v : Nat) : Prop := ∀ k, (k, Wait.yoke) ∈ u.wait → (k, v) ∈ (t.tile p).woken ∧ (k, Wait.yoke) ∉ (t.tile p).wait
    let live := u.pend.join.filter fun l => (s.tile l).yk.st == .forming
    let ready := u.life = .member ∧ y.st = .single
    (u.pend.join = [] → exec (.memberJoin p) s = .next s) ∧
    (∀ l r, live = l :: r → l ≠ p → (u.life = .idle ∨ (ready ∧ joinLate s l = false)) → Completes (.memberJoin p) s fun t =>
        let k := tileNo s p - (s.tile l).yk.leader
        t.tile p = { u with life := .member, pend := { u.pend with join := live.filter (· != l) },
                            yk := { st := .yoked, leader := (s.tile l).yk.leader, idx := k, n := (s.tile l).yk.n } } ∧
        t.tile l = { s.tile l with yk := { (s.tile l).yk with joined := NSet.add (s.tile l).yk.joined k } } ∧
        ∀ q, q ≠ p → q ≠ l → t.tile q = s.tile q) ∧
    (∀ l r, live = l :: r → live = u.pend.join → l ≠ p → ready → joinLate s l = true → (s.tile l).life = .running →
      Completes (.memberJoin p) s fun t => (t.tile l).yk = { pred := (s.tile l).yk.pred } ∧ (t.tile l).regs = (s.tile l).regs ∧
        ∀ k, (k, Wait.yoke) ∈ (s.tile l).wait →
          (k, failWord (lateFail s l (tileNo s p - (s.tile l).yk.leader))) ∈ (t.tile l).woken ∧ (k, Wait.yoke) ∉ (t.tile l).wait) ∧
    (live = u.pend.join → u.life = .running → exec (.memberJoin p) s = .next s) ∧
    (live = [] → u.life = .idle → Completes (.memberJoin p) s fun t =>
      t.tile p = { u with pend := { u.pend with join := [] } } ∧ ∀ q, q ≠ p → t.tile q = s.tile q) ∧
    (live = [] → u.pend.join ≠ [] → ready → Completes (.memberJoin p) s fun t =>
      (t.tile p).life ≠ .member ∧ (t.tile p).pend.join = [] ∧ (t.tile p).regs = u.regs ∧ ∀ q, q ≠ p → t.tile q = s.tile q) ∧
    (y.st ≠ .forming → exec (.yokeFormationEnd p) s = .next s ∧ exec (.yokeJoinTimeout p) s = .next s) ∧
    (∀ c m, u.life = .running → y.st = .forming → joinFail s p = some (c, m) →
      (∀ c', c' < c → c' = 0 ∨ causeMask s p c' = 0) ∧ m = causeMask s p c ∧ m ≠ 0 ∧
      (c ≠ 3 → Completes (.yokeFormationEnd p) s fun t => waits t (c + m * 2 ^ 16) ∧ (t.tile p).yk = { pred := y.pred } ∧
        (t.tile p).regs = u.regs ∧ (t.tile p).life = .running) ∧
      (c = 3 → exec (.yokeFormationEnd p) s = .next s ∧ Completes (.yokeJoinTimeout p) s fun t => waits t (3 + m * 2 ^ 16) ∧
        (t.tile p).yk = { pred := y.pred } ∧ (t.tile p).regs = u.regs ∧ (t.tile p).life = .running)) ∧
    (y.st = .forming → joinFail s p = none → (∀ i, i + 1 < y.n → NSet.mem y.joined (i + 1) = true) → Completes (.yokeFormationEnd p) s fun t =>
      waits t 0 ∧ (t.tile p).yk = { y with st := .yoked, pred := [], win := [], blocks := false } ∧ (t.tile p).regs = u.regs ∧
      ∀ q, q ≠ p → t.tile q = s.tile q) ∧
    (∀ i, y.st = .forming → joinFail s p = none → i + 1 < y.n → NSet.mem y.joined (i + 1) = false →
      exec (.yokeFormationEnd p) s = .next s) ∧
    (∀ m, (y.st = .yoked ∨ y.st = .draining) → y.leader = tileNo s p → u.life = .running → 0 < m → m < y.n →
      (s.tile (yokeTile s p m)).life = .faulted →
      let ti : TrapInfo := { yokeTrap 3 with sub := 3 * 256 + m * 16 }
      u.async.contains ti = false → Completes (.yokeMemberFault p m) s fun t => t.tile p = { u with async := u.async ++ [ti] } ∧
        ∀ q, q ≠ p → t.tile q = s.tile q) ∧
    (∀ m, (s.tile (yokeTile s p m)).life ≠ .faulted → exec (.yokeMemberFault p m) s = .next s) ∧
    (u.life = .running → y.blocks = true → y.st = .draining → y.result ≠ some 2 → Completes (.yokeDrain p) s fun t =>
      (t.tile p).pc = y.nextHdr ∧ (t.tile p).yk = { pred := y.pred } ∧ (t.tile p).life = .running ∧ (t.tile p).regs = u.regs ∧
      (t.tile p).sram = u.sram) ∧
    (u.life = .running → y.blocks = true → y.st = .draining → y.result = some 2 → u.dbg.stepping = false → p ∉ yokeMembers s p y.n →
      Completes (.yokeDrain p) s fun t =>
      (t.tile p).life = boundaryLife u ∧ (t.tile p).net.heldq = [] ∧ (t.tile p).regs = { u.regs with v := (t.tile p).regs.v } ∧ (t.tile p).sram = u.sram ∧
      (t.tile p).task = { drainPending { u.task with recs := FMap.drop u.task.recs u.task.run.idx } with
        run := { u.task.run with used := ranCycles s u, start := s.clk } }) ∧
    (∀ b r, mayCommit u = true → y.win = b :: r → b.ends ≠ 0 → b.effs = [] → u.dbg.stepping = false → Completes (.yokeDrain p) s fun t =>
      (t.tile p).yk.st = .draining ∧ (t.tile p).yk.result = some b.ends ∧ (t.tile p).yk.win = [] ∧ (t.tile p).yk.nextHdr = b.next.getD 0 ∧
      (t.tile p).sram = u.sram ∧ (t.tile p).sys.vflags = u.sys.vflags ||| b.vflags)

/-- R315 to R320, R323, R443: the blocks of the window: a block starts on the member of its header's hash; a register arrives from the
youngest older block that writes it, or from its home; a block that has executed names its successor, and a wrong guess is squashed; the
oldest block commits its registers and stores.
Model's choices: logs 42 to 48, 76, 112. -/
def Obligations.YokeBlockEvents : Prop :=
  ∀ (s : State) (p : Nat),
    let u := s.tile p
    let y := u.yk
    let keeps (t : State) : Prop := t.tile p = { u with yk := (t.tile p).yk } ∧ (∀ q, q ≠ p → t.tile q = s.tile q) ∧ t.fab = s.fab
    let mine := (y.win.filter fun b => blkMember y.n b.hdr == blkMember y.n y.nextHdr).length
    let open_ := u.life = .running ∧ y.st = .yoked ∧ y.blocks = true ∧ opensBlock u y.nextHdr = true
    (open_ → (∀ b ∈ y.win, b.serial = false ∧ b.ends = 0) → mine < 4 → Completes (.blockStart p) s fun t => keeps t ∧
      ∃ b, (t.tile p).yk = { y with win := y.win ++ [b], nextHdr := b.pred.getD 0 } ∧ b.hdr = y.nextHdr ∧ b.pc = y.nextHdr ∧
        b.done = false ∧ b.arr = [] ∧ b.effs = []) ∧
    (4 ≤ mine → exec (.blockStart p) s = .next s) ∧
    (∀ b r x, elemAt y.win b = some x → r ∈ ringRegs → NSet.mem x.arr r = false → (y.win.take b).any (fun o => !o.read) = false →
      let older := ((y.win.take b).filter fun o => blkWrites o r).getLast?
      let takes (v : Regs) : Prop := Completes (.operandArrival p b r) s fun t => keeps t ∧ ∃ x', elemAt (t.tile p).yk.win b = some x' ∧
        NSet.mem x'.arr r = true ∧ x'.regs = copyReg r v x.regs ∧ (∀ k, k ≠ b → elemAt (t.tile p).yk.win k = elemAt y.win k)
      (older = none → takes u.regs) ∧
      (∀ o, older = some o → o.done = true → o.trap = none → NSet.mem o.arr r = true → takes o.regs) ∧
      (∀ o, older = some o → o.done = false → exec (.operandArrival p b r) s = .next s)) ∧
    (∀ b x guess a, elemAt y.win b = some x → x.done = true → x.trap = none → x.pred = some guess → x.next = some a →
      Completes (.blockResolve p b) s fun t => keeps t ∧
        FMap.get 0 (t.tile p).yk.pred (512 * blkMember y.n x.hdr + x.hdr % 512) = a ∧
        (x.ends ≠ 0 → (t.tile p).yk.win = (setAt y.win b { x with pred := none }).take (b + 1)) ∧
        (x.ends = 0 → opensBlock u a = false →
          elemAt (t.tile p).yk.win b = some { x with pred := none, trap := some (x.idx, yokeTrap 1) } ∧ (t.tile p).yk.win.length = b + 1) ∧
        (x.ends = 0 → opensBlock u a = true → a = guess → (t.tile p).yk.win = setAt y.win b { x with pred := none } ∧
          (t.tile p).yk.nextHdr = y.nextHdr) ∧
        (x.ends = 0 → opensBlock u a = true → a ≠ guess → (t.tile p).yk.win = (setAt y.win b { x with pred := none }).take (b + 1) ∧
          (t.tile p).yk.nextHdr = a)) ∧
    (∀ b r, mayCommit u = true → y.win = b :: r → b.ends = 0 → u.dbg.stepping = false → Completes (.blockCommit p) s fun t =>
      (t.tile p).yk = { y with win := r } ∧ (t.tile p).sys = { u.sys with vflags := u.sys.vflags ||| b.vflags } ∧
      (∀ n, 0 < n → n < 32 → FMap.get 0 (t.tile p).regs.g n = if bit b.gmask n && NSet.mem b.arr n then FMap.get 0 b.regs.g n
        else FMap.get 0 u.regs.g n) ∧
      (t.tile p).regs.acc = u.regs.acc ∧
      (b.effs = [] → (∀ q, (t.tile q).sram = (s.tile q).sram) ∧ ∀ q, q ≠ p → t.tile q = s.tile q) ∧
      ∀ q o d, b.effs = [.write q [(o, d)] true] → (∀ z, z ≠ q → (t.tile z).sram = (s.tile z).sram) ∧
        (t.tile q).sram = Mem.setBytes (s.tile q).sram o d ∧ ∀ k ∈ sectorsOf o d.length, NSet.mem (t.tile q).full k = true) ∧
    (mayCommit u = false → exec (.blockCommit p) s = .next s)

/-! ## Boot, service and debug (R414 to R436) -/

/-- R421: the firmware mailbox: writes while BELL is BUSY are ignored; a function number outside its own space reaches nothing; in Recovery
function 0 alone is answered, with RECOVERY but for VERSION and FLASH_WRITE; DONE is acknowledged; a command not offered is UNKNOWN; a length or a
zero field that is wrong is MALFORMED; the request words read as they were written.
Model's choices: logs 63, 64. -/
def Obligations.MailboxRules : Prop :=
  (∀ (s : State) (m : Mbx),
    let offered : List (Mbx → Instr) := [.version, .flashWrite]
    let others : List (Mbx → Instr) := [.cmdNotOffered, .ctxCreate, .ctxGrant, .ctxDestroy, .ctxSave, .ctxRestore, .ctxSlice, .qCreate, .qReset,
      .qDestroy, .powerLimit, .laneLog, .attach, .detach, .stop, .resume, .step, .read, .write, .trace, .clearacct]
    let b := mailboxOf s m.func
    (∀ r ∈ offered ++ others, (s.svc.boot = .off ∨ 64 ≤ m.func ∨ (b.bell = 1 ∧ b.req ≠ some m)) → exec (r m) s = .next s) ∧
    (∀ r ∈ others, s.svc.boot = .recovery → m.func = 0 → b.bell ≠ 1 → Refused (r m) m s mbRecovery) ∧
    (∀ r ∈ offered ++ others, s.svc.boot = .recovery → m.func ≠ 0 → m.func < 64 → b.bell ≠ 1 → Completes (r m) s (Waiting m s)) ∧
    (∀ r ∈ offered ++ others, s.svc.boot = .ready → m.func < 64 → b.bell ≠ 1 → wordsGood m = false → Refused (r m) m s mbMalformed) ∧
    (∀ r ∈ offered, s.svc.boot = .recovery → m.func = 0 → b.bell ≠ 1 → wordsGood m = false → Refused (r m) m s mbMalformed) ∧
    (∀ r ∈ ([(0x01, .version), (0x10, .ctxCreate), (0x11, .ctxGrant), (0x12, .ctxDestroy), (0x13, .ctxSave), (0x14, .ctxRestore), (0x15, .ctxSlice),
        (0x20, .qCreate), (0x21, .qReset), (0x22, .qDestroy), (0x30, .powerLimit), (0x32, .laneLog), (0x33, .flashWrite), (0x60, .attach),
        (0x61, .detach), (0x62, .stop), (0x63, .resume), (0x64, .step), (0x65, .read), (0x66, .write), (0x67, .trace), (0x68, .clearacct)] :
        List (Nat × (Mbx → Instr))),
      (s.svc.boot = .ready ∨ s.svc.boot = .recovery) → m.func < 64 → b.bell ≠ 1 → Completes (r.2 m) s fun t =>
        (mailboxOf t m.func).words = reqWords r.1 m b.words) ∧
    (Fresh m s → Refused (.cmdNotOffered m) m s mbUnknown) ∧
    ((Fresh m s ∨ (s.svc.boot = .recovery ∧ m.func = 0 ∧ b.bell ≠ 1 ∧ wordsGood m = true)) → m.ops = [] →
      Completes (.version m) s (Answered m 0 [s.svc.abi] s)) ∧
    (Fresh m s → m.ops ≠ [] → Refused (.version m) m s mbMalformed) ∧
    (∀ r ∈ ([.ctxCreate, .ctxGrant, .ctxDestroy, .ctxSlice, .powerLimit, .laneLog, .flashWrite] : List (Mbx → Instr)),
      Fresh m s → m.func ≠ 0 → Refused (r m) m s mbDenied)) ∧
  (∀ (s : State) (f : Nat),
    ((mailboxOf s f).bell = 2 → Completes (.mailboxDoneAck f) s fun t => mailboxOf t f = { mailboxOf s f with bell := 0 } ∧
      (∀ g, g ≠ f → mailboxOf t g = mailboxOf s g) ∧ t.tiles = s.tiles ∧ t.ctxs = s.ctxs) ∧
    ((mailboxOf s f).bell ≠ 2 → exec (.mailboxDoneAck f) s = .next s))

/-- From R372 to R377, R381, R422, R423. CTX_CREATE makes a context from its operands under a free CID and answers it, or is REFUSED or
MALFORMED; CTX_GRANT moves a context to a function's slot; CTX_DESTROY destroys; CTX_SAVE asks the tiles of a resident context to save,
waits, and answers when it is saved, and is BUSY where the context is neither resident nor Preempting; CTX_RESTORE begins a restore, waits,
and answers when the context is resident or has faulted; CTX_SLICE sets the slice. A context that the function may not name is NOCTX. Where
a clause names function 0, the request is that of function 0.
Model's choices: logs 6, 65. -/
def Obligations.ContextRequests : Prop :=
  ∀ (s : State) (m : Mbx),
    let c := bits (op m 0) 11 0
    let x := s.ctx c
    let one := m.ops.length = 1 ∧ bits (op m 0) 63 12 = 0
    let named := mayName s m.func c = true
    (∀ k, Fresh m s → m.func = 0 → m.ops.length = 13 → createZero m = true → createOk s m = true → freeCids s ≠ [] →
      freeCtxSlot s (bits (op m 0) 5 0) = some k → Completes (.ctxCreate m) s fun t => ∃ n, (s.ctx n).st = .free ∧ 0 < n ∧ n < 0xF00 ∧
        t.ctx n = newCtx s m k ∧ (mailboxOf t 0).bell = 2 ∧ (mailboxOf t 0).status = 0 ∧ (mailboxOf t 0).tok = m.tok ∧
        (mailboxOf t 0).results = [n + k * 2 ^ 16] ∧ (∀ n', n' ≠ n → t.ctx n' = s.ctx n') ∧ t.tiles = s.tiles) ∧
    (Fresh m s → m.func = 0 → m.ops.length = 13 → createZero m = true → (createOk s m = false ∨ freeCids s = []) →
      Refused (.ctxCreate m) m s mbRefused) ∧
    (Fresh m s → m.func = 0 → (m.ops.length ≠ 13 ∨ createZero m = false) → Refused (.ctxCreate m) m s mbMalformed) ∧
    (
      let f := bits (op m 0) 21 16
      let good := Fresh m s ∧ m.func = 0 ∧ m.ops.length = 1 ∧ bits (op m 0) 15 12 = 0 ∧ bits (op m 0) 63 22 = 0
      (good → ¬named → Refused (.ctxGrant m) m s mbNoctx) ∧
      (∀ k, good → named → x.func ≠ f → freeCtxSlot s f = some k → Completes (.ctxGrant m) s fun t =>
        ∃ u, Answered m 0 [k] u t ∧ u.ctx c = { x with func := f, slot := k } ∧ (∀ n, n ≠ c → u.ctx n = s.ctx n) ∧ u = { s with ctxs := u.ctxs })) ∧
    (Fresh m s → m.func = 0 → one → ¬named → Refused (.ctxDestroy m) m s mbNoctx ∧ Refused (.ctxSave m) m s mbNoctx ∧
      Refused (.ctxRestore m) m s mbNoctx) ∧
    (Fresh m s → m.func = 0 → one → named → Completes (.ctxDestroy m) s fun t => (t.ctx c).st = .destroyed ∧ (t.ctx c).queues = [] ∧
      (mailboxOf t 0).bell = 2 ∧ (mailboxOf t 0).status = 0) ∧
    (Fresh m s → one → named → (x.st = .residentIdle ∨ x.st = .residentRunning) → Completes (.ctxSave m) s fun t => Waiting m s t ∧
      (t.ctx c).st = .preempting ∧ ∀ p ∈ tilesOf s c, (t.tile p).pend.save = true) ∧
    (Again m s → one → named → x.st = .preempting → exec (.ctxSave m) s = .next s) ∧
    (Again m s → one → named → (x.st = .savedHeld ∨ x.st = .savedStored) → Completes (.ctxSave m) s (Answered m 0 [] s)) ∧
    (Fresh m s → one → named → x.st ≠ .residentIdle → x.st ≠ .residentRunning → x.st ≠ .preempting → Refused (.ctxSave m) m s mbBusy) ∧
    (Fresh m s → one → named → x.st = .savedHeld → x.evicted = [] → checkpointed s c = false → fullHouse s = false →
      Completes (.ctxRestore m) s fun t =>
      Waiting m s t ∧ (t.ctx c).st = .restoring) ∧
    (Again m s → one → named → x.st = .restoring → exec (.ctxRestore m) s = .next s) ∧
    (Again m s → one → named → (x.st = .residentIdle ∨ x.st = .residentRunning) → Completes (.ctxRestore m) s (Answered m 0 [] s)) ∧
    (Again m s → one → named → x.st = .faulted → Completes (.ctxRestore m) s (Answered m mbRefused [4] s)) ∧
    (Fresh m s → m.func = 0 → m.ops.length = 2 → bits (op m 0) 63 12 = 0 → named → Completes (.ctxSlice m) s fun t =>
      ∃ u, Answered m 0 [] u t ∧ u.ctx c = { x with slice := op m 1, sliceStart := s.now } ∧ (∀ n, n ≠ c → u.ctx n = s.ctx n) ∧
        u = { s with ctxs := u.ctxs })

/-- From R366, R394, R402, R418, R422, R424. Q_CREATE makes a queue, or is REFUSED for its size or base and BUSY for its state; Q_RESET of an
ERROR queue without packets makes it Active again at TAIL; Q_DESTROY frees a queue, or waits for its packets; POWER_LIMIT sets a limit in
its range and is else REFUSED; PORT_CTL takes a Failed or Degraded port Down when nothing waits in its replay buffer, and Down, Failed
or Degraded ports to Detect, and is BUSY where it is to take a port in another state Down; LANE_LOG answers the two words of each of the 17 lanes; FLASH_WRITE writes an aligned range of the flash, also in Recovery.
Model's choices: logs 6, 62, 66, 90. -/
def Obligations.ServiceRequests : Prop :=
  ∀ (s : State) (m : Mbx),
    let w := op m 0
    let c := bits w 11 0
    let q := bits w 21 16
    let x := queueOf s c q
    let named := mayName s m.func c = true
    let onQueue (t : State) (y : Queue) : Prop := ∃ u, Answered m 0 [] u t ∧ queueOf u c q = y ∧ (∀ n, n ≠ c → u.ctx n = s.ctx n) ∧
      (∀ r, r ≠ q → queueOf u c r = queueOf s c r)
    (
      let zeros := bits w 15 12 = 0 ∧ bits w 23 22 = 0 ∧ bits w 31 26 = 0 ∧ bits w 63 37 = 0 ∧ bits (op m 1) 63 56 = 0
      let size := bits w 36 32
      Fresh m s → m.ops.length = 2 → zeros → named →
      ((size < 4 ∨ 16 < size ∨ op m 1 % 4096 ≠ 0) → Refused (.qCreate m) m s mbRefused) ∧
      (4 ≤ size → size ≤ 16 → op m 1 % 4096 = 0 → (x.st ≠ .free ∨ (s.ctx c).st = .faulted) → Refused (.qCreate m) m s mbBusy) ∧
      (4 ≤ size → size ≤ 16 → op m 1 % 4096 = 0 → x.st = .free → (s.ctx c).st ≠ .faulted → Completes (.qCreate m) s fun t =>
        onQueue t { base := op m 1, prio := bits w 25 24, size := size, st := if isSaved (s.ctx c) then .suspended else .active, prev := .active })) ∧
    (
      let good := Fresh m s ∧ m.ops.length = 1 ∧ bits w 15 12 = 0 ∧ bits w 63 22 = 0 ∧ named
      (good → x.st ≠ .error → Refused (.qReset m) m s mbBusy) ∧
      (good → x.st = .error → queuePkts s c q = [] → Completes (.qReset m) s fun t =>
        onQueue t { x with st := .active, err := 0, head := x.tail, seen := x.tail }) ∧
      (good → x.st = .free → Refused (.qDestroy m) m s mbBusy) ∧
      (good → x.st ≠ .free → queuePkts s c q = [] → Completes (.qDestroy m) s fun t => onQueue t {}) ∧
      (good → x.st ≠ .free → queuePkts s c q ≠ [] → Completes (.qDestroy m) s fun t => Waiting m s t ∧ queueOf t c q = { x with destroy := true })) ∧
    (Fresh m s → m.func = 0 → m.ops.length = 1 →
      (1200 ≤ w → w ≤ s.svc.ceiling → Completes (.powerLimit m) s (Answered m 0 [w] { s with svc := { s.svc with limit := w } })) ∧
      ((w < 1200 ∨ s.svc.ceiling < w) → Refused (.powerLimit m) m s mbRefused)) ∧
    (
      let p := bits w 2 0
      let good := Fresh m s ∧ m.func = 0 ∧ m.ops.length = 1 ∧ bits w 7 3 = 0 ∧ bits w 63 9 = 0
      let port (t : State) (f : Welim → Prop) : Prop := f (welim t p) ∧ (∀ r, r ≠ p → welim t r = welim s r) ∧ t.tiles = s.tiles ∧ t.fab = s.fab
      let may := (welim s p).st = .failed ∨ (welim s p).st = .degraded
      (good → bit w 8 = false → ((welim s p).st = .down ∨ (may ∧ (welim s p).replay = [])) → Completes (.portCtlDown m) s fun t =>
        (∃ u, Answered m 0 [] u t) ∧ port t fun y => y.st = .down) ∧
      (good → may → (welim s p).replay ≠ [] → (bit w 8 = false → Completes (.portCtlDown m) s fun t => Waiting m s t ∧ port t fun y => y = welim s p) ∧
        (bit w 8 = true → Completes (.portCtlEnable m) s fun t => Waiting m s t ∧ port t fun y => y = welim s p)) ∧
      (good → bit w 8 = false → (welim s p).st ≠ .down → ¬may → Refused (.portCtlDown m) m s mbBusy) ∧
      (good → bit w 8 = true → ((welim s p).st = .down ∨ (((welim s p).st = .failed ∨ (welim s p).st = .degraded) ∧ (welim s p).replay = [])) →
        Completes (.portCtlEnable m) s fun t => (∃ u, Answered m 0 [] u t) ∧ port t fun y => y.st = .detect) ∧
      (good → bit w 8 = true → (welim s p).st = .up → Completes (.portCtlEnable m) s (Answered m 0 [] s))) ∧
    (Fresh m s → m.func = 0 → m.ops.length = 1 → bits w 63 3 = 0 → Completes (.laneLog m) s fun t =>
      let y := welim s (bits w 2 0)
      ∃ l, Answered m 0 l s t ∧ l.length = 34 ∧ ∀ k, k < 17 → l.getD (2 * k) 0 = y.log.corr.getD k 0 ∧
        l.getD (2 * k + 1) 0 % 2 ^ 16 = y.log.margin.getD k 0 % 2 ^ 16 ∧ bit (l.getD (2 * k + 1) 0) 16 = NSet.mem y.weak k ∧
        bit (l.getD (2 * k + 1) 0) 17 = NSet.mem y.lost k) ∧
    ((Fresh m s ∨ (s.svc.boot = .recovery ∧ (mailboxOf s m.func).bell ≠ 1 ∧ wordsGood m = true)) → m.func = 0 → 2 ≤ m.ops.length → m.ops.length ≤ 247 →
      (w % 8 = 0 → Completes (.flashWrite m) s (Answered m 0 [] { s with svc := { s.svc with
        flash := Mem.setBytes s.svc.flash w ((m.ops.drop 1).flatMap (natLe 8)) } })) ∧
      (w % 8 ≠ 0 → Refused (.flashWrite m) m s mbRefused))

/-- R414 to R418, R424, R425: the boot and its checks, of the fused digests and version, the signatures, the table's limits, the role map and the
stacks; FWM is the digest of the table's and the image's bytes in flash; power, heat and the gates of clusters. After a boot that passes the device is
Ready; a failed check leaves it in Recovery with the first reason. What the boot keeps of memory is the model's choice (see the log).
Model's choices: logs 7, 8, 9, 59 to 61. -/
def Obligations.BootAndPower : Prop :=
  (∀ (s : State) (b : BootIn), Completes (.bootReset b) s fun t =>
    let signed := s.svc.rootDigests = (sha3 b.edKey, sha3 b.mlKey) ∧ b.edTable = true ∧ b.mlTable = true ∧ b.edImage = true ∧ b.mlImage = true
    let newer := s.svc.minVersion ≤ b.version
    let table := b.tableOk = true ∧ b.widths.length = 4 ∧ (∀ w ∈ b.widths, 4 ≤ w ∧ w ≤ 16) ∧ 1200 ≤ b.ceiling ∧ b.ceiling ≤ 2200
    let roles := rolesGood b = true
    let sound := b.healthy % 4096 = 4095
    let fine := signed ∧ newer ∧ table ∧ roles ∧ sound
    let formed := signed ∧ newer ∧ table ∧ roles
    (∀ p, p < 2048 → t.tile p = {}) ∧ (∀ p, 2048 ≤ p → p < 2112 →
      (formed → t.tile p = bootTile b true t.dev p s) ∧ (¬formed → t.tile p = bootTile b false t.dev p s)) ∧
    (∀ p, 2048 ≤ p → p < 2112 → formed → roleTile b p = true → (t.tile p).life = .idle ∧ (t.tile p).sys.cid = 0xFFF ∧
      (t.tile p).place = some (tilePlace t.dev p)) ∧
    t.svc.rootDigests = s.svc.rootDigests ∧ t.svc.minVersion = s.svc.minVersion ∧ t.svc.flash = s.svc.flash ∧ t.dev = Config.device % 2 ^ 20 ∧
    t.ctxs = [] ∧ t.pump = {} ∧ t.fab.net = [] ∧ t.fab.pkts = [] ∧ t.fab.member = [] ∧ t.svc.ceiling = b.ceiling ∧ t.svc.limit = b.ceiling ∧
    t.svc.laneErr = b.laneErr ∧ t.svc.laneMargin = b.laneMargin ∧
    (fine → t.svc.boot = .ready ∧ t.svc.reason = 0 ∧ t.svc.roles = b.roles ∧ t.svc.widths = b.widths ∧ t.svc.spares = bootSpares b ∧ (∀ q, q < 8 → (welim t q).st = .detect) ∧
      ∀ d k, d < 4 → k < 16 → (firewallPasses t.fab d k = true ↔ k = 6 ∨ k = 8)) ∧
    (¬fine → t.svc.boot = .recovery ∧ ∀ q, (welim t q).st = .down) ∧
    (¬signed → t.svc.reason = 1) ∧ (signed → ¬newer → t.svc.reason = 2) ∧ (signed → newer → ¬table → t.svc.reason = 3) ∧
    (signed → newer → table → (¬roles → t.svc.reason = 5) ∧ (roles → ¬sound → t.svc.reason = 4) ∧
      t.svc.fwm = sha3 (fwBytes ++ digest (tableBytes b s) ++ digest (imageBytes b s)))) ∧
  (∀ (s : State) (w : Nat), Completes (.powerWindowControl w) s fun t =>
    t = { s with svc := { s.svc with watts := w, dvfs := t.svc.dvfs, volts := t.svc.volts, capped := t.svc.capped } } ∧
    (600 ≤ s.svc.volts → s.svc.volts ≤ 750 → 600 ≤ t.svc.volts ∧ t.svc.volts ≤ 750) ∧
    (s.svc.limit < w → t.svc.dvfs ≤ s.svc.dvfs ∧ t.svc.capped = true) ∧
    (w ≤ s.svc.limit → s.svc.dvfs ≤ 1600 → s.svc.dvfs ≤ t.svc.dvfs ∧ t.svc.dvfs ≤ 1600)) ∧
  (∀ (s : State) (d temp : Nat),
    (d < 4 → Completes (.thermalThrottle d temp) s fun t => NSet.mem t.svc.throttled d = decide (105 ≤ temp) ∧
      (∀ e, e ≠ d → NSet.mem t.svc.throttled e = NSet.mem s.svc.throttled e) ∧ t = { s with svc := { s.svc with throttled := t.svc.throttled } }) ∧
    (d < 4 → 115 ≤ temp → Completes (.thermalShutdown d temp) s fun t => t.svc.shutdown = true ∧ t.tiles = [] ∧ t.ctxs = [] ∧ t.svc.boot = .off ∧
      t.pump = {} ∧ t.fab.host = s.fab.host ∧ t.svc.flash = s.svc.flash) ∧
    (temp < 115 → exec (.thermalShutdown d temp) s = .next s)) ∧
  (∀ (s : State) (p on : Nat),
    (∀ q, q / 16 = p / 16 → (s.tile q).place ≠ none → exec (.clusterGate p on) s = .next s) ∧
    (2048 ≤ p → exec (.clusterGate p on) s = .next s) ∧
    (on = 0 → s.svc.boot = .ready → (∀ q, q / 16 = p / 16 → (s.tile q).place = none ∧ (s.tile q).life = .off) →
      exec (.clusterGate p on) s = .next s) ∧
    (on = 0 → p < 2048 → s.svc.boot = .ready → FMap.get [] s.fab.trace (p / 16) = [] → (∀ q, q / 16 = p / 16 → (s.tile q).place = none ∧ (s.tile q).life = .idle) →
      Completes (.clusterGate p on) s fun t => (∀ q, q / 16 = p / 16 → t.tile q = { life := .off }) ∧
        (∀ q, q / 16 ≠ p / 16 → t.tile q = s.tile q) ∧ t.fab = s.fab) ∧
    (on ≠ 0 → p < 2048 → s.svc.boot = .ready → (∀ q, q / 16 = p / 16 → (s.tile q).place = none) → Completes (.clusterGate p on) s fun t =>
      (∀ q, q / 16 = p / 16 → (s.tile q).life = .off → (t.tile q).life = .reset) ∧
      (∀ q, q / 16 = p / 16 → (s.tile q).life ≠ .off → t.tile q = s.tile q) ∧ ∀ q, q / 16 ≠ p / 16 → t.tile q = s.tile q))

/-- From R429, R433, R434, R436. ATTACH and DETACH: NOCTX, DENIED or REFUSED as their conditions say, else done (DETACH of a context that holds
no tiles). A tile that the function may not name is NOCTX. STOP sends the stop to the tile's cluster; RESUME sets a suspended, Stopped
cluster Running; CLEARACCT clears the cluster's accounts; READ and WRITE reach a system register or the control space of a Stopped tile and
are BUSY otherwise; STEP runs a suspended task for its count of bundles; TRACE sets the ring, of the context that the function attached last (the model's choice, log 41),
where it is aligned, in range and writable, and is else REFUSED.
Model's choices: logs 41, 67, 69. -/
def Obligations.DebugRequests : Prop :=
  ∀ (s : State) (m : Mbx), Fresh m s →
    let w := op m 0
    let named (c : Nat) := mayName s m.func c = true ∧ (m.func = 0 ∨ (s.ctx c).debugOk = true)
    (m.ops.length = 1 → bits w 63 12 = 0 →
      (mayName s m.func w = false → Refused (.attach m) m s mbNoctx ∧ Refused (.detach m) m s mbNoctx) ∧
      (mayName s m.func w = true → m.func ≠ 0 → (s.ctx w).debugOk = false → Refused (.attach m) m s mbDenied ∧ Refused (.detach m) m s mbDenied) ∧
      (named w → (s.ctx w).debugOk = false → Refused (.attach m) m s mbRefused) ∧
      (named w → (s.ctx w).debugOk = true → Completes (.attach m) s fun t => ∃ u, Answered m 0 [] u t ∧
        u.ctx w = { s.ctx w with attached := true, attachedEver := true } ∧ (∀ n, n ≠ w → u.ctx n = s.ctx n) ∧ (mailboxOf u m.func).att = some w ∧
        u = { s with ctxs := u.ctxs, svc := { s.svc with mailboxes := u.svc.mailboxes } }) ∧
      (named w → tilesOf s w = [] → Completes (.detach m) s fun t => ∃ u, Answered m 0 [] u t ∧
        u.ctx w = { s.ctx w with attached := false } ∧ (∀ n, n ≠ w → u.ctx n = s.ctx n) ∧ u = { s with ctxs := u.ctxs })) ∧
    (tileAt s m.func w = none →
      (m.ops.length = 1 → Refused (.stop m) m s mbNoctx ∧ Refused (.resume m) m s mbNoctx ∧ Refused (.clearacct m) m s mbNoctx) ∧
      (m.ops.length = 2 → Refused (.read m) m s mbNoctx) ∧ (m.ops.length = 3 → Refused (.step m) m s mbNoctx ∧ Refused (.write m) m s mbNoctx)) ∧
    (∀ p, tileAt s m.func w = some p → named (s.tile p).sys.cid →
      let t0 := s.tile p
      let b := op m 1
      (m.ops.length = 1 → Completes (.stop m) s fun t => (∃ u, Answered m 0 [] u t) ∧ t.tiles = s.tiles ∧
        ∀ q ∈ clusterTiles s p, ∃ o ∈ t.fab.net, o.kind = .stop ∧ o.dst = q) ∧
      (m.ops.length = 1 → (∀ q ∈ clusterTiles s p, (s.tile q).life = .stopped ∧ (s.tile q).dbg.suspended = true) → Completes (.resume m) s fun t =>
        (∃ u, Answered m 0 [] u t) ∧ (∀ q ∈ clusterTiles s p, (t.tile q).life = .running ∧ (t.tile q).dbg.suspended = false ∧
          (t.tile q).dbg.stepping = false ∧ (t.tile q).regs = (s.tile q).regs) ∧ ∀ q, q ∉ clusterTiles s p → t.tile q = s.tile q) ∧
      (m.ops.length = 1 → Completes (.clearacct m) s fun t => (∃ u, Answered m 0 [] u t) ∧
        (∀ q ∈ clusterTiles s p, t.tile q = { s.tile q with sys := { (s.tile q).sys with dacct := [] } }) ∧
        ∀ q, q ∉ clusterTiles s p → t.tile q = s.tile q) ∧
      (m.ops.length = 2 → t0.life ≠ .stopped → Refused (.read m) m s mbBusy) ∧
      (m.ops.length = 2 → t0.life = .stopped → bit b 63 = true → sysAssigned (bits b 62 0) = true →
        Completes (.read m) s (Answered m 0 [(sysRead s p t0.sys (bits b 62 0)).toNat] s)) ∧
      (m.ops.length = 2 → t0.life = .stopped → bit b 63 = false → ctlOk b = true → Completes (.read m) s (Answered m 0 [ctlRead t0 b] s)) ∧
      (m.ops.length = 3 → t0.life ≠ .stopped → Refused (.write m) m s mbBusy ∧ Refused (.step m) m s mbBusy) ∧
      (
        let v := op m 2
        m.ops.length = 3 → t0.life = .stopped → bit b 63 = false → ctlOk b = true → Completes (.write m) s fun t => ∃ u, Answered m 0 [] u t ∧
          u.tile p = ctlWrite t0 b v ∧ (∀ q, q ≠ p → u.tile q = s.tile q) ∧ u = { s with tiles := u.tiles }) ∧
      (
        let v := op m 2
        let n := bits b 62 0
        m.ops.length = 3 → t0.life = .stopped → bit b 63 = true → sysAssigned n = true → sysLimit t0 n (BitVec.ofNat 64 v) = false →
          (n < 0x11 ∨ 0x20 ≤ n ∨ wdOk v = true) → Completes (.write m) s fun t => ∃ u, Answered m 0 [] u t ∧
          u.tile p = sysWrite n (BitVec.ofNat 64 v) t0 ∧ (∀ q, q ≠ p → u.tile q = s.tile q) ∧ u = { s with tiles := u.tiles }) ∧
      (∀ r, m.ops.length = 3 → t0.life = .stopped → 1 ≤ op m 2 → op m 2 ≤ 65535 → b < 128 → t0.dbg.suspended = true → t0.task.run.idx = b →
        (t0.task.recs.find? fun e => e.1 == b) = some (b, r) → Completes (.step m) s fun t => ∃ u, Answered m 0 [] u t ∧
          (u.tile p).life = .running ∧ (u.tile p).dbg.stepping = true ∧ (u.tile p).dbg.stepN = op m 2 ∧ (u.tile p).regs = t0.regs ∧
          (u.tile p).pc = t0.pc ∧ ∀ q, q ≠ p → u.tile q = s.tile q)) ∧
    (
      let lg := op m 1
      let fits (c : Nat) : Prop := 16 ≤ lg ∧ lg ≤ 30 ∧ w < 2 ^ 56 ∧ w % 4096 = 0 ∧ mappedW s c w (64 + 2 ^ lg) = true ∧ op m 2 ≤ 1
      m.ops.length = 3 → ((mailboxOf s m.func).att = none → Refused (.trace m) m s mbNoctx) ∧
      ∀ c, (mailboxOf s m.func).att = some c → named c → (¬fits c → Refused (.trace m) m s mbRefused) ∧
      (fits c → Completes (.trace m) s fun t =>
        (mailboxOf t m.func).bell = 2 ∧ (mailboxOf t m.func).status = 0 ∧ (t.ctx c).traceva = w ∧ (t.ctx c).tracelog = lg ∧
        (t.ctx c).traceOn = (op m 2 == 1) ∧ t.tiles = s.tiles))

/-- R430 to R432, R434: watchpoint hits are marked and gathered for the running task, that of the leader where the tile is a member of a yoke (R325), stop-the-cluster stops an Idle tile at once and any other
at its task boundary, and trace records leave for the ring, the last of
which ends the wait of a gate request (R34).
Model's choices: logs 20, 21, 47, 49, 68. -/
def Obligations.DebugEvents : Prop :=
  (∀ (s : State) (p k off wr : Nat),
    let u := s.tile p
    let c := (FMap.get 0 u.sys.wpc k).toNat
    let l := watchTile s p
    (l ≠ p → k < 4 → (bit c 16 = false ∨ (s.ctx u.sys.cid).attached = false) → Completes (.watchpointHit p k off wr) s fun t =>
      t.tile p = { u with sys := { u.sys with wpc := FMap.put u.sys.wpc k (FMap.get 0 u.sys.wpc k ||| 0x20000) } } ∧
      ((s.tile l).life = .running → (s.tile l).dbg.watch = none → (t.tile l).dbg.watch = some (2 ^ k, bits wr 1 1, off)) ∧
      ∀ q, q ≠ p → q ≠ l → t.tile q = s.tile q) ∧
    (l = p → k < 4 → (bit c 16 = false ∨ (s.ctx u.sys.cid).attached = false) → Completes (.watchpointHit p k off wr) s fun t =>
      (∀ q, q ≠ p → t.tile q = s.tile q) ∧ t.fab = s.fab ∧ FMap.get 0 (t.tile p).sys.wpc k = FMap.get 0 u.sys.wpc k ||| 0x20000 ∧
      (∀ j, j ≠ k → FMap.get 0 (t.tile p).sys.wpc j = FMap.get 0 u.sys.wpc j) ∧ (t.tile p).regs = u.regs ∧ (t.tile p).sram = u.sram ∧
      (u.life = .running → u.dbg.watch = none → (t.tile p).dbg.watch = some (2 ^ k, bits wr 1 1, off)) ∧
      (u.life ≠ .running → (t.tile p).dbg = u.dbg))) ∧
  (∀ (s : State) (p : Nat),
    let u := s.tile p
    (u.dbg.watch = none → exec (.watchTrap p) s = .next s) ∧
    (∀ k e a, u.dbg.watch = some (k, e, a) → pinned u = false → u.yk.st = .single → u.yk.blocks = false → u.life = .running →
      Completes (.watchTrap p) s fun t => (t.tile p).sys.faultc = faultcWord (k + 16 * e) u.dbg.skid u.task.run.slot false true cWatch ∧
        (t.tile p).sys.faulta = faultaWord a u.pc ∧ (t.tile p).regs = u.regs ∧ (t.tile p).dbg.watch = none) ∧
    let stop : Bool := s.fab.net.any fun m => m.kind == .stop && m.dst == p
    (stop = false → exec (.stopTheClusterArrival p) s = .next s) ∧
    (stop = true → u.life = .idle → Completes (.stopTheClusterArrival p) s fun t => (t.tile p).life = .stopped ∧
      (t.tile p).pend.stop = false ∧ (t.tile p).regs = u.regs ∧ (∀ q, q ≠ p → t.tile q = s.tile q)) ∧
    (stop = true → (u.life = .running ∨ u.life = .member ∨ u.life = .saving ∨ u.life = .restoring) → u.pend.stop = false →
      Completes (.stopTheClusterArrival p) s fun t =>
        t.tile p = { u with pend := { u.pend with stop := true }, dbg := { u.dbg with stopSkid := 0 } } ∧ (∀ q, q ≠ p → t.tile q = s.tile q)) ∧
    (FMap.get [] s.fab.trace (p / 16) = [] → exec (.traceDrain p) s = .next s) ∧
    (∀ r l, FMap.get [] s.fab.trace (p / 16) = r :: l →
      let c := s.ctx (traceCtx s p r)
      (c.traceOn = false → exec (.traceDrain p) s = .next s) ∧
      (c.traceOn = true → Completes (.traceDrain p) s fun t => FMap.get [] t.fab.trace (p / 16) = l ∧
        (∀ q, (l ≠ [] ∨ q / 16 ≠ p / 16 ∨ mayGate (s.tile q) = false ∨ (s.tile q).pend.gate = false) → t.tile q = s.tile q) ∧
        ∀ q, l = [] → q / 16 = p / 16 → mayGate (s.tile q) = true → (s.tile q).pend.gate = true → t.tile q = { life := .off })))

/-! ## The machine -/

/-- R44: an instruction whose guard reads false completes without any effect. The encoding traps apply to it: an MFS or MTS of an unassigned
register (R28) and a LOOP whose body ends before it begins (R87; see LoopResults) trap whatever their guard. BLKH and BLKV have none, and
format V names lanes instead.
Model's choices: logs 11, 97, 113. -/
def Obligations.GuardFalse : Prop :=
  ∀ s : State,
    (∀ c ∈ ([.add, .sub, .and, .or, .xor, .andn, .orn, .sll, .srl, .sra, .ror, .min, .max, .minn, .maxn, .ceq, .cne, .clt,
      .cle, .cltn, .clen, .pand, .por, .pxor, .pandn, .movp, .pmovg, .ext, .exts, .ins, .mul, .mulh, .mulhn, .div,
      .divn, .rem, .remn, .madd, .msub, .clz, .ctz, .popc, .brev, .bswap, .send, .sende, .recv, .probe, .rcancel,
      .rtest, .rwait, .xchg, .squery, .sendv, .csend, .tbind, .tarm, .tkick, .tspawn, .tend, .tcommit, .tyield,
      .tunbind, .tstat, .grank, .gsize, .gplace, .barr, .bbind, .bwait, .bcancel, .cred, .cared, .cbcast, .cstart,
      .cabort, .ktrig, .kdone, .get, .put, .getd, .putd, .bmv, .bmvt, .bfence, .fence, .pqry, .geti, .maadd, .maand,
      .maor, .maxor, .mamin, .mamax, .maswap, .macas, .mafadd, .msadd, .msmax, .trap, .wdset, .tload, .sleep, .bkpt,
      .yoke, .unyoke, .aallot, .vallot, .laadd, .laand, .laor, .laxor, .lamin, .lamax, .laminn, .lamaxn, .laswap,
      .lacas] : List (R → Instr)),
      ∀ x, guardOf x.g x.n s = false → exec (c x) s = .next s) ∧
    (∀ c ∈ ([.addi, .andi, .ori, .xori, .slli, .srli, .srai, .ceqi, .cnei, .clti, .clei, .cltni, .cleni, .addwi, .ldb,
      .ldbn, .ldh, .ldhn, .ldw, .ldwn, .ldd, .stb, .sth, .stw, .std, .ldf, .ldfc, .stf, .fclr, .fset] : List (I → Instr)), ∀ x, guardOf x.g x.n s = false → exec (c x) s = .next s) ∧
    (∀ c ∈ ([.addiL, .andiL, .oriL, .xoriL, .slliL, .srliL, .sraiL, .ceqiL, .cneiL, .cltiL, .cleiL, .cltniL, .cleniL,
      .addwiL, .moviL, .movhiL, .ldbL, .ldbnL, .ldhL, .ldhnL, .ldwL, .ldwnL, .lddL, .stbL, .sthL, .stwL, .stdL,
      .ldfL, .ldfcL, .stfL, .fclrL, .fsetL, .mcfgL, .recvm, .probem, .recvmFe] : List (L → Instr)), ∀ x, guardOf x.g x.n s = false → exec (c x) s = .next s) ∧
    (∀ c ∈ ([.br, .call] : List (Br → Instr)), ∀ x, guardOf x.g x.n s = false → exec (c x) s = .next s) ∧
    (∀ c ∈ ([.bz, .bnz, .brr, .callr, .ret] : List (Bg → Instr)), ∀ x, guardOf x.g x.n s = false → exec (c x) s = .next s) ∧
    (∀ c ∈ ([.mcfg, .mma, .mmat, .mms, .mmst, .mmaz, .mmazt, .mmsz, .mmszt, .mzero, .mldac, .mldacf, .mstac, .mstacf, .mdrn,
      .mhad, .msclc, .maddr, .mrdf, .mclrf, .mwait, .mwaitAc, .mjob, .mtstj] : List (X → Instr)),
      ∀ x, guardOf x.g x.n s = false → exec (c x) s = .next s) ∧
    (∀ x : M, guardOf x.g x.n s = false → exec (.movi x) s = .next s) ∧
    (∀ x : R, guardOf x.g x.n s = false → sysAssigned (x.a * 32 + x.b) = true → exec (.mfs x) s = .next s ∧ exec (.mts x) s = .next s) ∧
    (∀ x : R, sysAssigned (x.a * 32 + x.b) = false →
      exec (.mfs x) s = .next (raise (tr cIllegalOp) s) ∧ exec (.mts x) s = .next (raise (tr cIllegalOp) s)) ∧
    (∀ x : Bg, guardOf x.g x.n s = false → (s.t.bun.addr + s.t.bun.len : Nat) ≤ (s.t.bun.addr : Int) + x.off → exec (.loop x) s = .next s)

/-- R36 to R43, R48, R65: a step runs the instruction that the words at the pc decode to. Where the thread of tile `p` moves next and its
bundle is one syllable of a well-formed instruction `i`, the step is exec of `i` in the bundle just opened, and then the bundle's end (stated
last). A syllable that decodes to nothing traps ILLEGAL_OP, one that names a register beyond the allotments ILLEGAL_REG, and a
malformed bundle ILLEGAL_BUNDLE. A step of an engine is exec of it. Where nothing follows from the move before, a tile that is to choose a record
does so at the end of the clock cycle (R221), and a mover whose place in the cycle has gone by, or a thread that has issued, waits for another
cycle (R189).
Model's choices: logs 2, 3, 14, 16.
R42, R43: the end of a bundle of one syllable: one that has trapped or ended its task is over; one that waits is kept, to run again from
its start; any other is finished (`LoopResults` states what that leaves). -/
def Obligations.StepRunsDecoded : Prop :=
  ((∀ (s : State) (p : Nat) (r : List Agent),
     let u := s.tile p
     let here : State := { issueFirst p (noteMove (.thread p) { s with agenda := r }) with cur := p }
     s.agenda = .thread p :: r → threadRuns u = true → atHeader u = false → u.async = [] → u.wait = [] →
     (u.dbg.watch = none ∨ u.dbg.skid < 4) → fetchBad u u.pc = false → (u.task.run.fresh = false ∨ u.task.run.start ≤ s.clk) →
     (∀ w, syllables u u.pc = ([w], true) → bundleIll u.pc [w] true false = none →
       (∀ i, decode w.1 w.2 = .ok i → regBad u (uses i) = false →
         let opened := here.onT fun t => { t with bun := { live := true, addr := u.pc, len := if isLong w.1 then 2 else 1 } }
         (∀ t, exec i opened = .next t → step s = .next (closeOne t)) ∧ (∀ f, exec i opened = .fault f → step s = .fault f) ∧
         (∀ f, exec i opened = .refused f → step s = .refused f)) ∧
       (∀ i, decode w.1 w.2 = .ok i → regBad u (uses i) = true → step s = .next (takeTrapAt p (tr cIllegalReg) 0 u.pc false false here)) ∧
       (∀ e, decode w.1 w.2 = .error e → step s = .next (takeTrapAt p (tr cIllegalOp) 0 u.pc false false here))) ∧
     (∀ l ends k j, syllables u u.pc = (l, ends) → bundleIll u.pc l ends false = some (k, j) →
       step s = .next (takeTrapAt p { cause := cIllegalBundle, sub := k * 256 + j } 0 u.pc false false here))) ∧
   (∀ (s : State) (i : Instr) (r : List Agent), s.agenda = .event i :: r → i.isSyllable = false → followsOnly i = false →
     step s = exec i (noteMove (.event i) { s with agenda := r })) ∧
   (∀ (s : State) (p : Nat) (r : List Agent),
     (s.agenda = .thread p :: r → (s.tile p).life ≠ .running → (s.tile p).yk.blocks = false →
       step s = .next (noteMove (.thread p) { s with agenda := r }))) ∧
   (∀ (s : State) (p : Nat) (r : List Nat),
     let a := Config.pick s.picks
     (s.agenda = [] → s.choices = p :: r → 0 < passing s a → step s = exec (.taskDispatch p) { s with choices := r }) ∧
     (phaseOf a < s.phase → 0 < passing s a) ∧ (∀ k, threadNo a = some k → NSet.mem s.issued k = true → 0 < passing s a))) ∧
  (∀ s : State,
     (s.t.bun.live = false → closeOne s = s) ∧
     (s.t.bun.live = true → s.t.wait ≠ [] → SameRest s (closeOne s) ∧ (closeOne s).t = { s.t with bun := {} }) ∧
     (s.t.bun.live = true → s.t.wait = [] → closeOne s = finish s) ∧
     (∀ l s0 pos ti, s.t.bun.live = true → s.t.bun.trap = some (pos, ti) →
       closeMany exec l s0 s = .next (takeTrapAt s.cur ti 0 s.t.bun.addr false false s0)) ∧
     (∀ l s0, s.t.bun.live = true → s.t.bun.trap = none → s.t.wait = [] → closeMany exec l s0 s = .next (finish s)))

/-- R45 to R64: words written out from the encoding tables decode to the instructions they stand for. -/
def Obligations.DecodeWords : Prop :=
  decode 0x824014C7 0 = .ok (.add { e := true, g := 2, m := 1, d := 5, a := 6, b := 7 }) ∧
  decode 0x8872BFFB 0 = .ok (.movi { e := true, d := 10, imm := -5 }) ∧
  decode 0xF80FA800 0x1234 = .ok (.movhiL { e := true, d := 10, imm := 0x1234 }) ∧
  decode 0x900194C7 0 = .ok (.div { e := true, d := 5, a := 6, b := 7 }) ∧
  decode 0x9807FFFD 0 = .ok (.br { e := true, off := -3 }) ∧
  decode 0x9821C002 0 = .ok (.loop { e := true, a := 7, off := 2 }) ∧
  decode 0xA0214DFC 0 = .ok (.ldw { e := true, d := 5, a := 6, imm := -4 }) ∧
  decode 0xA80014C7 0 = .ok (.vld { e := true, d := 5, a := 6, b := 7 }) ∧
  decode 0xB00014C7 0 = .ok (.vadd { e := true, d := 5, a := 6, b := 7 }) ∧
  decode 0xB82014C0 0 = .ok (.vcvt { e := true, t := 1, d := 5, a := 6 }) ∧
  decode 0xC00004C7 0 = .ok (.vceq { e := true, d := 1, a := 6, b := 7 }) ∧
  decode 0xC8024064 0 = .ok (.mma { e := true, c := 2, a := 3, b := 4 }) ∧
  decode 0xD00008A6 0 = .ok (.send { e := true, d := 2, a := 5, b := 6 }) ∧
  decode 0xD8020000 0 = .ok (.tend { e := true }) ∧
  decode 0xE00004A6 0 = .ok (.get { e := true, d := 1, a := 5, b := 6 }) ∧
  decode 0xE80194C7 0 = .ok (.wdset { e := true, d := 5, a := 6, b := 7 }) ∧
  decode 0xF00014C7 0 = .ok (.laadd { e := true, d := 5, a := 6, b := 7 }) ∧
  decode 0x800F0000 0 = .error .unassigned ∧
  decode 0x90048001 0 = .error .illegal

/-- R45 to R64: the decoder and the encoder agree: every well-formed, legal syllable is read back from its own words, every field at every
value, and every pair of words that decodes is what the encoder writes for its instruction. -/
def Obligations.EncodeDecodeRoundTrip : Prop :=
  (∀ i : Instr, i.isSyllable = true → i.wf = true → i.legal = true →
    let w := (encode i).getD 0 0
    w < 2 ^ 32 ∧ (encode i).length = (if isLong w then 2 else 1) ∧ decode w ((encode i).getD 1 0) = .ok i) ∧
  (∀ (w w2 : Nat) (i : Instr), w < 2 ^ 32 → w2 < 2 ^ 32 → decode w w2 = .ok i →
    i.wf = true ∧ i.legal = true ∧ encode i = if isLong w then [w, w2] else [w])

/-- Every step answers a next state: no instruction and no step of an engine ends the run.
Model's choices: log 10. -/
def Obligations.StepNeverStops : Prop := (∀ i s, ∃ t, exec i s = .next t) ∧ ∀ s, ∃ t, step s = .next t

/-- R2, R9, R23: memory stays in its canonical form, in every tile (also in one whose contents a saved context holds), in device memory and in
the host's: whatever step is taken, equal contents stay equal data.
Model's choices: log 4. -/
def Obligations.MemoryStaysCanonical : Prop := ∀ s t : State, MemOk s → step s = .next t → MemOk t

/-- R33, R414: right after power-good every tile is Off, no context is there, nothing is on its way, every port is Down and memory has its
canonical form. (That unwritten bytes read 0 is the model's choice, log 4.)
Model's choices: logs 4, 9. -/
def Obligations.ResetState : Prop :=
  let s := State.reset
  MemOk s ∧ (∀ p, (s.tile p).life = .off) ∧ (∀ c, (s.ctx c).st = .free) ∧ (∀ q, (welim s q).st = .down) ∧ s.svc.boot = .off ∧
  s.fab.net = [] ∧ s.fab.pkts = [] ∧ s.pump.pkts = [] ∧ s.agenda = []
end

