-- ==== Sys2Proof/Laws/Maps.lean ====
section
/-!
SUPPORT. Sys2Proof/Laws/Maps.lean: the laws of the sparse tables: read after write, and that every operation of memory keeps the
canonical form.
-/

namespace Sys2Proof.Machine

/-! ## Read after write -/

@[simp] theorem FMap.get_nil {α : Type} (d : α) (k : Nat) : FMap.get d [] k = d := rfl

theorem FMap.get_cons {α : Type} (d : α) (k : Nat) (v : α) (m : FMap α) (j : Nat) :
    FMap.get d ((k, v) :: m) j = if j = k then v else FMap.get d m j := by
  rw [FMap.get]
  by_cases h : k = j
  · rw [if_pos h, if_pos h.symm]
  · rw [if_neg h, if_neg (Ne.symm h)]

theorem FMap.get_put {α : Type} (d : α) (m : FMap α) (k j : Nat) (v : α) :
    FMap.get d (FMap.put m k v) j = if j = k then v else FMap.get d m j := by
  induction m with
  | nil => simp [FMap.put, FMap.get_cons]
  | cons e r ih =>
    obtain ⟨k', v'⟩ := e
    simp only [FMap.put]
    split
    · rw [FMap.get_cons]
    · split
      · subst k'
        by_cases h : j = k <;> simp [FMap.get_cons, h]
      · rename_i hk
        by_cases h : j = k'
        · subst h
          simp [FMap.get_cons, hk]
        · simp [FMap.get_cons, h, ih]

@[simp] theorem FMap.get_put_self {α : Type} (d : α) (m : FMap α) (k : Nat) (v : α) :
    FMap.get d (FMap.put m k v) k = v := by simp [FMap.get_put]

theorem FMap.get_put_ne {α : Type} (d : α) (m : FMap α) {k j : Nat} (v : α) (h : j ≠ k) :
    FMap.get d (FMap.put m k v) j = FMap.get d m j := by simp [FMap.get_put, h]

theorem FMap.get_drop {α : Type} (d : α) (m : FMap α) (k j : Nat) :
    FMap.get d (FMap.drop m k) j = if j = k then d else FMap.get d m j := by
  induction m with
  | nil => simp [FMap.drop]
  | cons e r ih =>
    obtain ⟨k', v'⟩ := e
    by_cases h : k' = k
    · subst h
      by_cases hj : j = k'
      · subst hj; simp [FMap.drop, ih]
      · simp [FMap.drop, FMap.get_cons, ih, hj]
    · by_cases hj : j = k'
      · subst hj
        simp [FMap.drop, FMap.get_cons, h]
      · simp [FMap.drop, FMap.get_cons, h, hj, ih]

theorem FMap.get_set {α : Type} [DecidableEq α] (d : α) (m : FMap α) (k j : Nat) (v : α) :
    FMap.get d (FMap.set d m k v) j = if j = k then v else FMap.get d m j := by
  unfold FMap.set
  split
  · subst v; exact FMap.get_drop d m k j
  · exact FMap.get_put d m k j v

@[simp] theorem FMap.get_set_self {α : Type} [DecidableEq α] (d : α) (m : FMap α) (k : Nat) (v : α) :
    FMap.get d (FMap.set d m k v) k = v := by simp [FMap.get_set]

theorem NSet.mem_add (s : NSet) (k j : Nat) : NSet.mem (NSet.add s k) j = (decide (j = k) || NSet.mem s j) := by
  by_cases h : j = k <;> simp [NSet.mem, NSet.add, FMap.get_set, h]

theorem NSet.mem_del (s : NSet) (k j : Nat) : NSet.mem (NSet.del s k) j = (!decide (j = k) && NSet.mem s j) := by
  by_cases h : j = k <;> simp [NSet.mem, NSet.del, FMap.get_set, h]

theorem NSet.mem_addAll (l : List Nat) (s : NSet) (j : Nat) :
    NSet.mem (NSet.addAll s l) j = (decide (j ∈ l) || NSet.mem s j) := by
  induction l generalizing s with
  | nil => simp [NSet.addAll]
  | cons a r ih =>
    have := ih (NSet.add s a)
    simp only [NSet.addAll, List.foldl_cons] at this ⊢
    rw [this, NSet.mem_add]
    by_cases h1 : j = a <;> by_cases h2 : j ∈ r <;> simp [h1, h2]

theorem NSet.mem_delAll (l : List Nat) (s : NSet) (j : Nat) :
    NSet.mem (NSet.delAll s l) j = (!decide (j ∈ l) && NSet.mem s j) := by
  induction l generalizing s with
  | nil => simp [NSet.delAll]
  | cons a r ih =>
    have := ih (NSet.del s a)
    simp only [NSet.delAll, List.foldl_cons] at this ⊢
    rw [this, NSet.mem_del]
    by_cases h1 : j = a <;> by_cases h2 : j ∈ r <;> simp [h1, h2]

/-! ## Memory -/

theorem Mem.byte_setByte (m : Mem) (a j : Nat) (v : BitVec 8) :
    Mem.byte (Mem.setByte m a v) j = if j = a then v else Mem.byte m j := FMap.get_set 0 m a j v

/-- A write of bytes leaves every byte outside them. -/
theorem Mem.byte_setBytes_of_out (l : List (BitVec 8)) (m : Mem) (a j : Nat) (h : j < a ∨ a + l.length ≤ j) :
    Mem.byte (Mem.setBytes m a l) j = Mem.byte m j := by
  induction l generalizing m a with
  | nil => rfl
  | cons b r ih =>
    simp only [List.length_cons] at h
    rw [Mem.setBytes, ih (Mem.setByte m a b) (a + 1) (by omega), Mem.byte_setByte, if_neg (by omega)]

/-- A byte of a write reads as written. -/
theorem Mem.byte_setBytes_of_in (l : List (BitVec 8)) (m : Mem) (a i : Nat) (h : i < l.length) :
    Mem.byte (Mem.setBytes m a l) (a + i) = l[i] := by
  induction l generalizing m a i with
  | nil => simp at h
  | cons b r ih =>
    cases i with
    | zero => rw [Mem.setBytes, Mem.byte_setBytes_of_out r _ _ _ (by omega), Mem.byte_setByte]; simp
    | succ i =>
      have := ih (Mem.setByte m a b) (a + 1) i (by simpa using h)
      rw [Mem.setBytes, show a + (i + 1) = a + 1 + i by omega, this]
      rfl

@[simp] theorem Mem.length_bytes (m : Mem) (a n : Nat) : (Mem.bytes m a n).length = n := by
  induction n generalizing a with
  | zero => rfl
  | succ n ih => simp [Mem.bytes, ih]

theorem Mem.getElem_bytes (m : Mem) (a n i : Nat) (h : i < (Mem.bytes m a n).length) :
    (Mem.bytes m a n)[i] = Mem.byte m (a + i) := by
  induction n generalizing a i with
  | zero => simp at h
  | succ n ih =>
    cases i with
    | zero => rfl
    | succ i =>
      have h' : i < (Mem.bytes m (a + 1) n).length := by simp at h ⊢; omega
      have := ih (a + 1) i h'
      simpa [Mem.bytes, Nat.add_assoc, Nat.add_comm 1 i] using this

/-- What was written is read back. -/
theorem Mem.bytes_setBytes_self (m : Mem) (a : Nat) (l : List (BitVec 8)) :
    Mem.bytes (Mem.setBytes m a l) a l.length = l := by
  apply List.ext_getElem (by simp)
  intro i h1 h2
  rw [Mem.getElem_bytes, Mem.byte_setBytes_of_in l m a i h2]

/-! ## The canonical form -/

theorem FMap.wfFrom_mono {α : Type} [DecidableEq α] (d : α) (m : FMap α) {lo lo' : Nat} (h : lo ≤ lo')
    (hm : FMap.wfFrom d lo' m = true) : FMap.wfFrom d lo m = true := by
  cases m with
  | nil => rfl
  | cons e r =>
    obtain ⟨k, v⟩ := e
    simp only [FMap.wfFrom, Bool.and_eq_true, decide_eq_true_eq] at hm ⊢
    exact ⟨⟨by omega, hm.1.2⟩, hm.2⟩

theorem FMap.wfFrom_put {α : Type} [DecidableEq α] (d : α) (m : FMap α) (lo k : Nat) (v : α) (hk : lo ≤ k) (hv : v ≠ d)
    (hm : FMap.wfFrom d lo m = true) : FMap.wfFrom d lo (FMap.put m k v) = true := by
  induction m generalizing lo with
  | nil => simp [FMap.put, FMap.wfFrom, hk, hv]
  | cons e r ih =>
    obtain ⟨k', v'⟩ := e
    simp only [FMap.wfFrom, Bool.and_eq_true, decide_eq_true_eq] at hm
    simp only [FMap.put]
    split
    · simp only [FMap.wfFrom, Bool.and_eq_true, decide_eq_true_eq]
      exact ⟨⟨hk, hv⟩, ⟨⟨by omega, hm.1.2⟩, hm.2⟩⟩
    · split
      · subst k'
        simp only [FMap.wfFrom, Bool.and_eq_true, decide_eq_true_eq]
        exact ⟨⟨hk, hv⟩, hm.2⟩
      · simp only [FMap.wfFrom, Bool.and_eq_true, decide_eq_true_eq]
        exact ⟨hm.1, ih (k' + 1) (by omega) hm.2⟩

theorem FMap.wfFrom_drop {α : Type} [DecidableEq α] (d : α) (m : FMap α) (lo k : Nat)
    (hm : FMap.wfFrom d lo m = true) : FMap.wfFrom d lo (FMap.drop m k) = true := by
  induction m generalizing lo with
  | nil => rfl
  | cons e r ih =>
    obtain ⟨k', v'⟩ := e
    simp only [FMap.wfFrom, Bool.and_eq_true, decide_eq_true_eq] at hm
    simp only [FMap.drop]
    split
    · exact ih lo (FMap.wfFrom_mono d r (by omega) hm.2)
    · simp only [FMap.wfFrom, Bool.and_eq_true, decide_eq_true_eq]
      exact ⟨hm.1, ih (k' + 1) hm.2⟩

theorem FMap.wf_set {α : Type} [DecidableEq α] (d : α) (m : FMap α) (k : Nat) (v : α) (hm : FMap.wf d m = true) :
    FMap.wf d (FMap.set d m k v) = true := by
  unfold FMap.set FMap.wf
  split
  · exact FMap.wfFrom_drop d m 0 k hm
  · rename_i hv
    exact FMap.wfFrom_put d m 0 k v (Nat.zero_le k) hv hm

/-- Two canonical tables that read alike from a bound on are equal. -/
theorem FMap.ext_wfFrom {α : Type} [DecidableEq α] (d : α) (m n : FMap α) (lo : Nat) (hm : FMap.wfFrom d lo m = true)
    (hn : FMap.wfFrom d lo n = true) (h : ∀ k, FMap.get d m k = FMap.get d n k) : m = n := by
  have low : ∀ (m : FMap α) (lo k : Nat), FMap.wfFrom d lo m = true → k < lo → FMap.get d m k = d := by
    intro m
    induction m with
    | nil => intros; rfl
    | cons e r ih =>
      obtain ⟨k', v'⟩ := e
      intro lo k hw hk
      simp only [FMap.wfFrom, Bool.and_eq_true, decide_eq_true_eq] at hw
      rw [FMap.get, if_neg (by omega)]
      exact ih (k' + 1) k hw.2 (by omega)
  induction m generalizing n lo with
  | nil =>
    cases n with
    | nil => rfl
    | cons e r =>
      obtain ⟨k', v'⟩ := e
      simp only [FMap.wfFrom, Bool.and_eq_true, decide_eq_true_eq] at hn
      have := h k'
      simp [FMap.get] at this
      exact absurd this.symm hn.1.2
  | cons e r ih =>
    obtain ⟨k', v'⟩ := e
    simp only [FMap.wfFrom, Bool.and_eq_true, decide_eq_true_eq] at hm
    cases n with
    | nil =>
      have := h k'
      simp [FMap.get] at this
      exact absurd this hm.1.2
    | cons e' r' =>
      obtain ⟨j', w'⟩ := e'
      simp only [FMap.wfFrom, Bool.and_eq_true, decide_eq_true_eq] at hn
      have hkj : k' = j' := by
        rcases Nat.lt_trichotomy k' j' with hlt | heq | hgt
        · have h1 := h k'
          rw [FMap.get, if_pos rfl, FMap.get, if_neg (by omega), low r' (j' + 1) k' hn.2 (by omega)] at h1
          exact absurd h1 hm.1.2
        · exact heq
        · have h1 := h j'
          rw [FMap.get, if_neg (by omega), low r (k' + 1) j' hm.2 (by omega), FMap.get, if_pos rfl] at h1
          exact absurd h1.symm hn.1.2
      subst hkj
      have hv := h k'
      simp only [FMap.get, if_pos] at hv
      subst hv
      congr 1
      apply ih r' (k' + 1) hm.2 hn.2
      intro k
      by_cases hk : k' = k
      · subst hk; rw [low r (k' + 1) k' hm.2 (by omega), low r' (k' + 1) k' hn.2 (by omega)]
      · have := h k; simpa [FMap.get, hk] using this

/-- Equal reads make equal memories, where both have the canonical form. -/
theorem Mem.ext_wf (m n : Mem) (hm : Memory.wf m = true) (hn : Memory.wf n = true) (h : ∀ a, Mem.byte m a = Mem.byte n a) :
    m = n := FMap.ext_wfFrom 0 m n 0 hm hn h

theorem Mem.wf_setByte (m : Mem) (a : Nat) (v : BitVec 8) (hm : Memory.wf m = true) : Memory.wf (Mem.setByte m a v) = true :=
  FMap.wf_set 0 m a v hm

theorem Mem.wf_setBytes (l : List (BitVec 8)) (m : Mem) (a : Nat) (hm : Memory.wf m = true) :
    Memory.wf (Mem.setBytes m a l) = true := by
  induction l generalizing m a with
  | nil => exact hm
  | cons b r ih => exact ih _ _ (Mem.wf_setByte m a b hm)

theorem Mem.wf_setLe (m : Mem) (a n v : Nat) (hm : Memory.wf m = true) : Memory.wf (Mem.setLe m a n v) = true :=
  Mem.wf_setBytes _ m a hm

theorem NSet.wf_add (s : NSet) (k : Nat) (h : FMap.wf false s = true) : FMap.wf false (NSet.add s k) = true :=
  FMap.wf_set false s k true h

theorem NSet.wf_del (s : NSet) (k : Nat) (h : FMap.wf false s = true) : FMap.wf false (NSet.del s k) = true :=
  FMap.wf_set false s k false h

/-! ## Numbers and bytes -/

@[simp] theorem length_natLe (n v : Nat) : (natLe n v).length = n := by
  induction n generalizing v with
  | zero => rfl
  | succ n ih => simp [natLe, ih]

/-- Little-endian bytes give the number back. -/
theorem leNat_natLe (n v : Nat) : leNat (natLe n v) = v % 256 ^ n := by
  induction n generalizing v with
  | zero => simp [natLe, leNat, Nat.mod_one]
  | succ n ih =>
    simp only [natLe, leNat, ih, BitVec.toNat_ofNat]
    have h : v % 256 ^ (n + 1) = v % 256 + 256 * (v / 256 % 256 ^ n) := by rw [Nat.pow_succ', Nat.mod_mul]
    omega

theorem Mem.le_setLe (m : Mem) (a n v : Nat) : Mem.le (Mem.setLe m a n v) a n = v % 256 ^ n := by
  have := Mem.bytes_setBytes_self m a (natLe n v)
  rw [length_natLe] at this
  rw [Mem.le, Mem.setLe, this, leNat_natLe]

end Sys2Proof.Machine
end

