-- ==== Sys2Proof/Laws/Memory.lean ====
section
/-!
SUPPORT. Sys2Proof/Laws/Memory.lean: every operation that writes a memory of the machine keeps the canonical form, and the memories at
reset have it.
-/

namespace Sys2Proof.Machine

theorem FMap.wfFrom_filter {α : Type} [DecidableEq α] (d : α) (p : Nat × α → Bool) (m : FMap α) (lo : Nat)
    (hm : FMap.wfFrom d lo m = true) : FMap.wfFrom d lo (m.filter p) = true := by
  induction m generalizing lo with
  | nil => rfl
  | cons e r ih =>
    obtain ⟨k, v⟩ := e
    simp only [FMap.wfFrom, Bool.and_eq_true, decide_eq_true_eq] at hm
    by_cases h : p (k, v) = true
    · rw [List.filter_cons_of_pos h]
      simp only [FMap.wfFrom, Bool.and_eq_true, decide_eq_true_eq]
      exact ⟨hm.1, ih (k + 1) hm.2⟩
    · rw [List.filter_cons_of_neg h]
      exact ih lo (FMap.wfFrom_mono d r (by omega) hm.2)

/-- A canonical table lists no entry equal to what an unlisted key reads as. -/
theorem FMap.ne_of_mem {α : Type} [DecidableEq α] (d : α) (m : FMap α) (lo : Nat) (hm : FMap.wfFrom d lo m = true)
    (e : Nat × α) (he : e ∈ m) : e.2 ≠ d := by
  induction m generalizing lo with
  | nil => cases he
  | cons x r ih =>
    obtain ⟨k, v⟩ := x
    simp only [FMap.wfFrom, Bool.and_eq_true, decide_eq_true_eq] at hm
    rcases List.mem_cons.1 he with h | h
    · subst h; exact hm.1.2
    · exact ih (k + 1) hm.2 h

theorem FMap.wf_foldl_put {α : Type} [DecidableEq α] (d : α) (f : Nat × α → Nat) (l : List (Nat × α)) (m : FMap α)
    (hl : ∀ e ∈ l, e.2 ≠ d) (hm : FMap.wf d m = true) :
    FMap.wf d (l.foldl (fun x e => FMap.put x (f e) e.2) m) = true := by
  induction l generalizing m with
  | nil => exact hm
  | cons e r ih =>
    refine ih _ (fun x hx => hl x (List.mem_cons_of_mem _ hx)) ?_
    exact FMap.wfFrom_put d m 0 _ _ (Nat.zero_le _) (hl e (List.mem_cons_self ..)) hm

/-! ## A tile's SRAM -/

theorem Mem.wf_foldl_setBytes (ps : List (Nat × List Byte)) (m : Mem) (hm : Memory.wf m = true) :
    Memory.wf (ps.foldl (fun m e => Mem.setBytes m e.1 e.2) m) = true := by
  induction ps generalizing m with
  | nil => exact hm
  | cons e r ih => exact ih _ (Mem.wf_setBytes e.2 m e.1 hm)

theorem Tile.wf_writeAll (t : Tile) (ps : List (Nat × List Byte)) (fe carry : Bool) (hm : Memory.wf t.sram = true) :
    Memory.wf (t.writeAll ps fe carry).sram = true := Mem.wf_foldl_setBytes ps t.sram hm

theorem Tile.wf_write (t : Tile) (o : Nat) (d : List Byte) (fe carry : Bool) (hm : Memory.wf t.sram = true) :
    Memory.wf (t.write o d fe carry).sram = true := Tile.wf_writeAll t _ fe carry hm

theorem wf_overSram (p : Nat) (l : List Eff) (t : Tile) (hm : Memory.wf t.sram = true) :
    Memory.wf (overSram p l t).sram = true := by
  unfold overSram
  induction l generalizing t with
  | nil => exact hm
  | cons e r ih =>
    refine ih _ ?_
    cases e with
    | write q ps fe =>
      dsimp only
      split
      · exact Tile.wf_writeAll t ps fe false hm
      · exact hm
    | full q k v =>
      dsimp only
      split <;> exact hm
    | poison q k v =>
      dsimp only
      split <;> exact hm

/-- A byte of an undone block put back keeps the form. -/
theorem wf_undoByte (fl : List Eff) (q a : Nat) (old : Byte) (m : Mem) (hm : Memory.wf m = true) : Memory.wf (undoByte fl q a old m) = true := by
  unfold undoByte
  split
  · exact Mem.wf_setBytes _ m a hm
  · exact hm

/-- So do the bytes of a sector. -/
theorem wf_foldl_undoByte (fl : List Eff) (q : Nat) (f : Nat → Nat) (g : Nat → Byte) (l : List Nat) (m : Mem) (hm : Memory.wf m = true) :
    Memory.wf (l.foldl (fun m j => undoByte fl q (f j) (g j) m) m) = true := by
  induction l generalizing m with
  | nil => exact hm
  | cons j r ih => exact ih _ (wf_undoByte fl q (f j) (g j) m hm)

/-- What an ungated tile holds is canonical too, whatever its free bytes are. -/
theorem wf_freeBytes (k n : Nat) : Memory.wf (freeBytes k n) = true := Mem.wf_setBytes _ [] 0 rfl

/-! ## Device memory, host memory and the memory reached through a UE port -/

theorem wf_hbmWrite (k : Nat) (d : List Byte) (carry : Bool) (f : Fabric) (hm : Memory.wf f.hbm = true) :
    Memory.wf (hbmWrite k d carry f).hbm = true := Mem.wf_setBytes d f.hbm k hm

theorem wf_locWrite (l : Loc) (d : List Byte) (carry : Bool) (f : Fabric)
    (hm : Memory.wf f.hbm = true ∧ Memory.wf f.host = true ∧ Memory.wf f.ue = true) :
    Memory.wf (locWrite l d carry f).hbm = true ∧ Memory.wf (locWrite l d carry f).host = true ∧
      Memory.wf (locWrite l d carry f).ue = true := by
  cases l with
  | hbm k => exact ⟨wf_hbmWrite k d carry f hm.1, hm.2⟩
  | host _ a => exact ⟨hm.1, Mem.wf_setBytes d f.host a hm.2.1, hm.2.2⟩
  | ue k => exact ⟨hm.1, hm.2.1, Mem.wf_setBytes d f.ue k hm.2.2⟩
  | door o => exact hm

theorem wf_clearCells (m : Mem) (a n : Nat) (hm : Memory.wf m = true) : Memory.wf (clearCells m a n) = true :=
  FMap.wfFrom_filter 0 _ m 0 hm

theorem wf_copyCells (m : Mem) (a b n : Nat) (hm : Memory.wf m = true) : Memory.wf (copyCells m a b n) = true :=
  FMap.wf_foldl_put 0 _ _ _ (fun e he => FMap.ne_of_mem 0 m 0 hm e (List.mem_filter.1 he).1) (wf_clearCells m b n hm)

/-- Cells moved between any two places keep the form, for cells that list no zero. -/
theorem wf_putCells (l : Loc) (n : Nat) (cs : Mem) (f : Fabric) (hc : ∀ e ∈ cs, e.2 ≠ 0)
    (hm : Memory.wf f.hbm = true ∧ Memory.wf f.host = true ∧ Memory.wf f.ue = true) :
    Memory.wf (putCells l n cs f).hbm = true ∧ Memory.wf (putCells l n cs f).host = true ∧ Memory.wf (putCells l n cs f).ue = true := by
  have put (m : Mem) (a : Nat) (h : Memory.wf m = true) :
      Memory.wf (cs.foldl (fun x e => FMap.put x (a + e.1) e.2) (clearCells m a n)) = true :=
    FMap.wf_foldl_put 0 _ cs _ hc (wf_clearCells m a n h)
  cases l with
  | hbm k => exact ⟨put _ k hm.1, hm.2⟩
  | host _ h => exact ⟨hm.1, put _ h hm.2.1, hm.2.2⟩
  | ue k => exact ⟨hm.1, hm.2.1, put _ k hm.2.2⟩
  | door o => exact hm

theorem wf_putEntry (a w0 w1 : Nat) (s : State) (hm : Memory.wf s.fab.hbm = true) :
    Memory.wf (putEntry a w0 w1 s).fab.hbm = true := Mem.wf_setLe _ _ _ _ (Mem.wf_setLe _ _ _ _ hm)

/-! ## Reset -/

theorem wf_reset_hbm : Memory.wf State.reset.fab.hbm = true := rfl
theorem wf_reset_host : Memory.wf State.reset.fab.host = true := rfl
theorem wf_reset_ue : Memory.wf State.reset.fab.ue = true := rfl
theorem wf_reset_sram (p : Nat) : Memory.wf (State.reset.tile p).sram = true := rfl

end Sys2Proof.Machine
end

