-- ==== Sys2Proof/Laws/State.lean ====
section
/-!
SUPPORT. Sys2Proof/Laws/State.lean: what each named change of the state leaves as it was, field by field, and what it reads as
afterwards.
-/

namespace Sys2Proof.Machine

/-! ## setTile -/

@[simp] theorem State.setTile_dev (s : State) (p : Nat) (x : Tile) : (s.setTile p x).dev = s.dev := rfl
@[simp] theorem State.setTile_fab (s : State) (p : Nat) (x : Tile) : (s.setTile p x).fab = s.fab := rfl
@[simp] theorem State.setTile_ctxs (s : State) (p : Nat) (x : Tile) : (s.setTile p x).ctxs = s.ctxs := rfl
@[simp] theorem State.setTile_pump (s : State) (p : Nat) (x : Tile) : (s.setTile p x).pump = s.pump := rfl
@[simp] theorem State.setTile_ports (s : State) (p : Nat) (x : Tile) : (s.setTile p x).ports = s.ports := rfl
@[simp] theorem State.setTile_svc (s : State) (p : Nat) (x : Tile) : (s.setTile p x).svc = s.svc := rfl
@[simp] theorem State.setTile_now (s : State) (p : Nat) (x : Tile) : (s.setTile p x).now = s.now := rfl
@[simp] theorem State.setTile_clk (s : State) (p : Nat) (x : Tile) : (s.setTile p x).clk = s.clk := rfl
@[simp] theorem State.setTile_agenda (s : State) (p : Nat) (x : Tile) : (s.setTile p x).agenda = s.agenda := rfl
@[simp] theorem State.setTile_picks (s : State) (p : Nat) (x : Tile) : (s.setTile p x).picks = s.picks := rfl
@[simp] theorem State.setTile_free (s : State) (p : Nat) (x : Tile) : (s.setTile p x).free = s.free := rfl
@[simp] theorem State.setTile_cur (s : State) (p : Nat) (x : Tile) : (s.setTile p x).cur = s.cur := rfl
@[simp] theorem State.setTile_phase (s : State) (p : Nat) (x : Tile) : (s.setTile p x).phase = s.phase := rfl
@[simp] theorem State.setTile_issued (s : State) (p : Nat) (x : Tile) : (s.setTile p x).issued = s.issued := rfl
@[simp] theorem State.setTile_choices (s : State) (p : Nat) (x : Tile) : (s.setTile p x).choices = s.choices := rfl

/-! ## setT -/

@[simp] theorem State.setT_dev (s : State) (x : Tile) : (s.setT x).dev = s.dev := rfl
@[simp] theorem State.setT_fab (s : State) (x : Tile) : (s.setT x).fab = s.fab := rfl
@[simp] theorem State.setT_ctxs (s : State) (x : Tile) : (s.setT x).ctxs = s.ctxs := rfl
@[simp] theorem State.setT_pump (s : State) (x : Tile) : (s.setT x).pump = s.pump := rfl
@[simp] theorem State.setT_ports (s : State) (x : Tile) : (s.setT x).ports = s.ports := rfl
@[simp] theorem State.setT_svc (s : State) (x : Tile) : (s.setT x).svc = s.svc := rfl
@[simp] theorem State.setT_now (s : State) (x : Tile) : (s.setT x).now = s.now := rfl
@[simp] theorem State.setT_clk (s : State) (x : Tile) : (s.setT x).clk = s.clk := rfl
@[simp] theorem State.setT_agenda (s : State) (x : Tile) : (s.setT x).agenda = s.agenda := rfl
@[simp] theorem State.setT_picks (s : State) (x : Tile) : (s.setT x).picks = s.picks := rfl
@[simp] theorem State.setT_free (s : State) (x : Tile) : (s.setT x).free = s.free := rfl
@[simp] theorem State.setT_cur (s : State) (x : Tile) : (s.setT x).cur = s.cur := rfl
@[simp] theorem State.setT_phase (s : State) (x : Tile) : (s.setT x).phase = s.phase := rfl
@[simp] theorem State.setT_issued (s : State) (x : Tile) : (s.setT x).issued = s.issued := rfl
@[simp] theorem State.setT_choices (s : State) (x : Tile) : (s.setT x).choices = s.choices := rfl

/-! ## onTile -/

@[simp] theorem State.onTile_dev (s : State) (p : Nat) (f : Tile → Tile) : (s.onTile p f).dev = s.dev := rfl
@[simp] theorem State.onTile_fab (s : State) (p : Nat) (f : Tile → Tile) : (s.onTile p f).fab = s.fab := rfl
@[simp] theorem State.onTile_ctxs (s : State) (p : Nat) (f : Tile → Tile) : (s.onTile p f).ctxs = s.ctxs := rfl
@[simp] theorem State.onTile_pump (s : State) (p : Nat) (f : Tile → Tile) : (s.onTile p f).pump = s.pump := rfl
@[simp] theorem State.onTile_ports (s : State) (p : Nat) (f : Tile → Tile) : (s.onTile p f).ports = s.ports := rfl
@[simp] theorem State.onTile_svc (s : State) (p : Nat) (f : Tile → Tile) : (s.onTile p f).svc = s.svc := rfl
@[simp] theorem State.onTile_now (s : State) (p : Nat) (f : Tile → Tile) : (s.onTile p f).now = s.now := rfl
@[simp] theorem State.onTile_clk (s : State) (p : Nat) (f : Tile → Tile) : (s.onTile p f).clk = s.clk := rfl
@[simp] theorem State.onTile_agenda (s : State) (p : Nat) (f : Tile → Tile) : (s.onTile p f).agenda = s.agenda := rfl
@[simp] theorem State.onTile_picks (s : State) (p : Nat) (f : Tile → Tile) : (s.onTile p f).picks = s.picks := rfl
@[simp] theorem State.onTile_free (s : State) (p : Nat) (f : Tile → Tile) : (s.onTile p f).free = s.free := rfl
@[simp] theorem State.onTile_cur (s : State) (p : Nat) (f : Tile → Tile) : (s.onTile p f).cur = s.cur := rfl
@[simp] theorem State.onTile_phase (s : State) (p : Nat) (f : Tile → Tile) : (s.onTile p f).phase = s.phase := rfl
@[simp] theorem State.onTile_issued (s : State) (p : Nat) (f : Tile → Tile) : (s.onTile p f).issued = s.issued := rfl
@[simp] theorem State.onTile_choices (s : State) (p : Nat) (f : Tile → Tile) : (s.onTile p f).choices = s.choices := rfl

/-! ## onT -/

@[simp] theorem State.onT_dev (s : State) (f : Tile → Tile) : (s.onT f).dev = s.dev := rfl
@[simp] theorem State.onT_fab (s : State) (f : Tile → Tile) : (s.onT f).fab = s.fab := rfl
@[simp] theorem State.onT_ctxs (s : State) (f : Tile → Tile) : (s.onT f).ctxs = s.ctxs := rfl
@[simp] theorem State.onT_pump (s : State) (f : Tile → Tile) : (s.onT f).pump = s.pump := rfl
@[simp] theorem State.onT_ports (s : State) (f : Tile → Tile) : (s.onT f).ports = s.ports := rfl
@[simp] theorem State.onT_svc (s : State) (f : Tile → Tile) : (s.onT f).svc = s.svc := rfl
@[simp] theorem State.onT_now (s : State) (f : Tile → Tile) : (s.onT f).now = s.now := rfl
@[simp] theorem State.onT_clk (s : State) (f : Tile → Tile) : (s.onT f).clk = s.clk := rfl
@[simp] theorem State.onT_agenda (s : State) (f : Tile → Tile) : (s.onT f).agenda = s.agenda := rfl
@[simp] theorem State.onT_picks (s : State) (f : Tile → Tile) : (s.onT f).picks = s.picks := rfl
@[simp] theorem State.onT_free (s : State) (f : Tile → Tile) : (s.onT f).free = s.free := rfl
@[simp] theorem State.onT_cur (s : State) (f : Tile → Tile) : (s.onT f).cur = s.cur := rfl
@[simp] theorem State.onT_phase (s : State) (f : Tile → Tile) : (s.onT f).phase = s.phase := rfl
@[simp] theorem State.onT_issued (s : State) (f : Tile → Tile) : (s.onT f).issued = s.issued := rfl
@[simp] theorem State.onT_choices (s : State) (f : Tile → Tile) : (s.onT f).choices = s.choices := rfl

/-! ## onFab -/

@[simp] theorem State.onFab_dev (s : State) (f : Fabric → Fabric) : (s.onFab f).dev = s.dev := rfl
@[simp] theorem State.onFab_tiles (s : State) (f : Fabric → Fabric) : (s.onFab f).tiles = s.tiles := rfl
@[simp] theorem State.onFab_ctxs (s : State) (f : Fabric → Fabric) : (s.onFab f).ctxs = s.ctxs := rfl
@[simp] theorem State.onFab_pump (s : State) (f : Fabric → Fabric) : (s.onFab f).pump = s.pump := rfl
@[simp] theorem State.onFab_ports (s : State) (f : Fabric → Fabric) : (s.onFab f).ports = s.ports := rfl
@[simp] theorem State.onFab_svc (s : State) (f : Fabric → Fabric) : (s.onFab f).svc = s.svc := rfl
@[simp] theorem State.onFab_now (s : State) (f : Fabric → Fabric) : (s.onFab f).now = s.now := rfl
@[simp] theorem State.onFab_clk (s : State) (f : Fabric → Fabric) : (s.onFab f).clk = s.clk := rfl
@[simp] theorem State.onFab_agenda (s : State) (f : Fabric → Fabric) : (s.onFab f).agenda = s.agenda := rfl
@[simp] theorem State.onFab_picks (s : State) (f : Fabric → Fabric) : (s.onFab f).picks = s.picks := rfl
@[simp] theorem State.onFab_free (s : State) (f : Fabric → Fabric) : (s.onFab f).free = s.free := rfl
@[simp] theorem State.onFab_cur (s : State) (f : Fabric → Fabric) : (s.onFab f).cur = s.cur := rfl
@[simp] theorem State.onFab_phase (s : State) (f : Fabric → Fabric) : (s.onFab f).phase = s.phase := rfl
@[simp] theorem State.onFab_issued (s : State) (f : Fabric → Fabric) : (s.onFab f).issued = s.issued := rfl
@[simp] theorem State.onFab_choices (s : State) (f : Fabric → Fabric) : (s.onFab f).choices = s.choices := rfl

/-! ## onPump -/

@[simp] theorem State.onPump_dev (s : State) (f : Pump → Pump) : (s.onPump f).dev = s.dev := rfl
@[simp] theorem State.onPump_tiles (s : State) (f : Pump → Pump) : (s.onPump f).tiles = s.tiles := rfl
@[simp] theorem State.onPump_fab (s : State) (f : Pump → Pump) : (s.onPump f).fab = s.fab := rfl
@[simp] theorem State.onPump_ctxs (s : State) (f : Pump → Pump) : (s.onPump f).ctxs = s.ctxs := rfl
@[simp] theorem State.onPump_ports (s : State) (f : Pump → Pump) : (s.onPump f).ports = s.ports := rfl
@[simp] theorem State.onPump_svc (s : State) (f : Pump → Pump) : (s.onPump f).svc = s.svc := rfl
@[simp] theorem State.onPump_now (s : State) (f : Pump → Pump) : (s.onPump f).now = s.now := rfl
@[simp] theorem State.onPump_clk (s : State) (f : Pump → Pump) : (s.onPump f).clk = s.clk := rfl
@[simp] theorem State.onPump_agenda (s : State) (f : Pump → Pump) : (s.onPump f).agenda = s.agenda := rfl
@[simp] theorem State.onPump_picks (s : State) (f : Pump → Pump) : (s.onPump f).picks = s.picks := rfl
@[simp] theorem State.onPump_free (s : State) (f : Pump → Pump) : (s.onPump f).free = s.free := rfl
@[simp] theorem State.onPump_cur (s : State) (f : Pump → Pump) : (s.onPump f).cur = s.cur := rfl
@[simp] theorem State.onPump_phase (s : State) (f : Pump → Pump) : (s.onPump f).phase = s.phase := rfl
@[simp] theorem State.onPump_issued (s : State) (f : Pump → Pump) : (s.onPump f).issued = s.issued := rfl
@[simp] theorem State.onPump_choices (s : State) (f : Pump → Pump) : (s.onPump f).choices = s.choices := rfl

/-! ## onCtx -/

@[simp] theorem State.onCtx_dev (s : State) (c : Nat) (f : Ctx → Ctx) : (s.onCtx c f).dev = s.dev := rfl
@[simp] theorem State.onCtx_tiles (s : State) (c : Nat) (f : Ctx → Ctx) : (s.onCtx c f).tiles = s.tiles := rfl
@[simp] theorem State.onCtx_fab (s : State) (c : Nat) (f : Ctx → Ctx) : (s.onCtx c f).fab = s.fab := rfl
@[simp] theorem State.onCtx_pump (s : State) (c : Nat) (f : Ctx → Ctx) : (s.onCtx c f).pump = s.pump := rfl
@[simp] theorem State.onCtx_ports (s : State) (c : Nat) (f : Ctx → Ctx) : (s.onCtx c f).ports = s.ports := rfl
@[simp] theorem State.onCtx_svc (s : State) (c : Nat) (f : Ctx → Ctx) : (s.onCtx c f).svc = s.svc := rfl
@[simp] theorem State.onCtx_now (s : State) (c : Nat) (f : Ctx → Ctx) : (s.onCtx c f).now = s.now := rfl
@[simp] theorem State.onCtx_clk (s : State) (c : Nat) (f : Ctx → Ctx) : (s.onCtx c f).clk = s.clk := rfl
@[simp] theorem State.onCtx_agenda (s : State) (c : Nat) (f : Ctx → Ctx) : (s.onCtx c f).agenda = s.agenda := rfl
@[simp] theorem State.onCtx_picks (s : State) (c : Nat) (f : Ctx → Ctx) : (s.onCtx c f).picks = s.picks := rfl
@[simp] theorem State.onCtx_free (s : State) (c : Nat) (f : Ctx → Ctx) : (s.onCtx c f).free = s.free := rfl
@[simp] theorem State.onCtx_cur (s : State) (c : Nat) (f : Ctx → Ctx) : (s.onCtx c f).cur = s.cur := rfl
@[simp] theorem State.onCtx_phase (s : State) (c : Nat) (f : Ctx → Ctx) : (s.onCtx c f).phase = s.phase := rfl
@[simp] theorem State.onCtx_issued (s : State) (c : Nat) (f : Ctx → Ctx) : (s.onCtx c f).issued = s.issued := rfl
@[simp] theorem State.onCtx_choices (s : State) (c : Nat) (f : Ctx → Ctx) : (s.onCtx c f).choices = s.choices := rfl

/-! ## push -/

@[simp] theorem State.push_dev (s : State) (l : List Agent) : (s.push l).dev = s.dev := rfl
@[simp] theorem State.push_tiles (s : State) (l : List Agent) : (s.push l).tiles = s.tiles := rfl
@[simp] theorem State.push_fab (s : State) (l : List Agent) : (s.push l).fab = s.fab := rfl
@[simp] theorem State.push_ctxs (s : State) (l : List Agent) : (s.push l).ctxs = s.ctxs := rfl
@[simp] theorem State.push_pump (s : State) (l : List Agent) : (s.push l).pump = s.pump := rfl
@[simp] theorem State.push_ports (s : State) (l : List Agent) : (s.push l).ports = s.ports := rfl
@[simp] theorem State.push_svc (s : State) (l : List Agent) : (s.push l).svc = s.svc := rfl
@[simp] theorem State.push_now (s : State) (l : List Agent) : (s.push l).now = s.now := rfl
@[simp] theorem State.push_clk (s : State) (l : List Agent) : (s.push l).clk = s.clk := rfl
@[simp] theorem State.push_picks (s : State) (l : List Agent) : (s.push l).picks = s.picks := rfl
@[simp] theorem State.push_free (s : State) (l : List Agent) : (s.push l).free = s.free := rfl
@[simp] theorem State.push_cur (s : State) (l : List Agent) : (s.push l).cur = s.cur := rfl
@[simp] theorem State.push_phase (s : State) (l : List Agent) : (s.push l).phase = s.phase := rfl
@[simp] theorem State.push_issued (s : State) (l : List Agent) : (s.push l).issued = s.issued := rfl
@[simp] theorem State.push_choices (s : State) (l : List Agent) : (s.push l).choices = s.choices := rfl

/-! ## Reading back -/

@[simp] theorem State.onFab_fab (s : State) (f : Fabric → Fabric) : (s.onFab f).fab = f s.fab := rfl
@[simp] theorem State.onPump_pump (s : State) (f : Pump → Pump) : (s.onPump f).pump = f s.pump := rfl
@[simp] theorem State.push_agenda (s : State) (l : List Agent) : (s.push l).agenda = l ++ s.agenda := rfl
@[simp] theorem State.onFab_tile (s : State) (f : Fabric → Fabric) (p : Nat) : (s.onFab f).tile p = s.tile p := rfl
@[simp] theorem State.onPump_tile (s : State) (f : Pump → Pump) (p : Nat) : (s.onPump f).tile p = s.tile p := rfl
@[simp] theorem State.onCtx_tile (s : State) (c : Nat) (f : Ctx → Ctx) (p : Nat) : (s.onCtx c f).tile p = s.tile p := rfl
@[simp] theorem State.push_tile (s : State) (l : List Agent) (p : Nat) : (s.push l).tile p = s.tile p := rfl
@[simp] theorem State.onFab_t (s : State) (f : Fabric → Fabric) : (s.onFab f).t = s.t := rfl
@[simp] theorem State.onPump_t (s : State) (f : Pump → Pump) : (s.onPump f).t = s.t := rfl
@[simp] theorem State.onCtx_t (s : State) (c : Nat) (f : Ctx → Ctx) : (s.onCtx c f).t = s.t := rfl
@[simp] theorem State.push_t (s : State) (l : List Agent) : (s.push l).t = s.t := rfl

theorem State.tile_setTile (s : State) (p q : Nat) (x : Tile) : (s.setTile p x).tile q = if q = p then x else s.tile q := by
  simp [State.tile, State.setTile, FMap.get_put]

@[simp] theorem State.tile_setTile_self (s : State) (p : Nat) (x : Tile) : (s.setTile p x).tile p = x := by
  simp [State.tile_setTile]

theorem State.tile_setTile_ne (s : State) {p q : Nat} (x : Tile) (h : q ≠ p) : (s.setTile p x).tile q = s.tile q := by
  simp [State.tile_setTile, h]

theorem State.tile_onTile (s : State) (p q : Nat) (f : Tile → Tile) :
    (s.onTile p f).tile q = if q = p then f (s.tile p) else s.tile q := State.tile_setTile s p q _

@[simp] theorem State.tile_onTile_self (s : State) (p : Nat) (f : Tile → Tile) : (s.onTile p f).tile p = f (s.tile p) := by
  simp [State.tile_onTile]

theorem State.tile_onTile_ne (s : State) {p q : Nat} (f : Tile → Tile) (h : q ≠ p) : (s.onTile p f).tile q = s.tile q := by
  simp [State.tile_onTile, h]

@[simp] theorem State.t_onT (s : State) (f : Tile → Tile) : (s.onT f).t = f s.t := State.tile_onTile_self s s.cur f

@[simp] theorem State.t_setT (s : State) (x : Tile) : (s.setT x).t = x := State.tile_setTile_self s s.cur x

@[simp] theorem State.t_onTile_cur (s : State) (f : Tile → Tile) : (s.onTile s.cur f).t = f s.t := State.tile_onTile_self s s.cur f

theorem State.tile_onT_ne (s : State) {q : Nat} (f : Tile → Tile) (h : q ≠ s.cur) : (s.onT f).tile q = s.tile q :=
  State.tile_onTile_ne s f h

@[simp] theorem State.ctx_onCtx_self (s : State) (c : Nat) (f : Ctx → Ctx) : (s.onCtx c f).ctx c = f (s.ctx c) := by
  simp [State.ctx, State.onCtx]

theorem State.ctx_onCtx_ne (s : State) {c e : Nat} (f : Ctx → Ctx) (h : e ≠ c) : (s.onCtx c f).ctx e = s.ctx e := by
  simp [State.ctx, State.onCtx, FMap.get_put, h]

@[simp] theorem State.onTile_ctx (s : State) (p : Nat) (f : Tile → Tile) (c : Nat) : (s.onTile p f).ctx c = s.ctx c := rfl
@[simp] theorem State.onT_ctx (s : State) (f : Tile → Tile) (c : Nat) : (s.onT f).ctx c = s.ctx c := rfl
@[simp] theorem State.onFab_ctx (s : State) (f : Fabric → Fabric) (c : Nat) : (s.onFab f).ctx c = s.ctx c := rfl
@[simp] theorem State.onPump_ctx (s : State) (f : Pump → Pump) (c : Nat) : (s.onPump f).ctx c = s.ctx c := rfl
@[simp] theorem State.push_ctx (s : State) (l : List Agent) (c : Nat) : (s.push l).ctx c = s.ctx c := rfl

end Sys2Proof.Machine
end

