-- ==== Sys2Proof/Laws/Ops.lean ====
section
/-!
SUPPORT. Sys2Proof/Laws/Ops.lean: one lemma for each shared operation, saying once what it does: guards and checks, register reads
and writes with their frames, and what a port's sending changes.
-/

namespace Sys2Proof.Machine

/-! ## Guards and checks -/

theorem guarded_on {g : Nat} {n : Bool} {s : State} (f : State → State) (h : GuardOn g n s) : guarded g n f s = f s := by
  rw [guarded, if_pos h]

theorem guarded_off {g : Nat} {n : Bool} {s : State} (f : State → State) (h : guardOf g n s = false) : guarded g n f s = s := by
  rw [guarded, if_neg (by simp [h])]

theorem firstTrap_none {l : List (Bool × TrapInfo)} (h : ∀ e ∈ l, e.1 = false) : firstTrap l = none := by
  induction l with
  | nil => rfl
  | cons e r ih =>
    obtain ⟨c, x⟩ := e
    have h1 := h (c, x) (by simp)
    simp only at h1
    subst h1
    rw [firstTrap, ih (fun e he => h e (by simp [he]))]

/-- Where no check fails, the effect takes place. -/
theorem checked_pass {l : List (Bool × TrapInfo)} (f : State → State) (s : State) (h : ∀ e ∈ l, e.1 = false) :
    checked l f s = f s := by rw [checked, firstTrap_none h]

/-! ## Frames compose -/

theorem SameRest.refl (s : State) : SameRest s s := ⟨rfl, fun _ _ => rfl⟩

theorem SameRest.cur {s t : State} (h : SameRest s t) : t.cur = s.cur := by rw [h.1]

theorem SameRest.fab {s t : State} (h : SameRest s t) : t.fab = s.fab := by rw [h.1]

theorem SameRest.trans {s t u : State} (h : SameRest s t) (k : SameRest t u) : SameRest s u := by
  refine ⟨?_, fun p hp => ?_⟩
  · rw [k.1, h.1]
  · rw [k.2 p (by rw [h.cur]; exact hp), h.2 p hp]

theorem sameRest_onT (s : State) (f : Tile → Tile) : SameRest s (s.onT f) := ⟨rfl, fun _ hp => State.tile_onT_ne s f hp⟩

/-- A change of the issuing tile that leaves its SRAM leaves all memory. -/
theorem sameMem_onT (s : State) (f : Tile → Tile) (h : (f s.t).sram = s.t.sram) : SameMem s (s.onT f) := by
  refine ⟨fun p a => ?_, fun _ => rfl, fun _ => rfl⟩
  by_cases hp : p = s.cur
  · subst hp
    show Mem.byte (s.onT f).t.sram a = Mem.byte s.t.sram a
    rw [State.t_onT, h]
  · rw [State.tile_onT_ne s f hp]

theorem SameMem.refl (s : State) : SameMem s s := ⟨fun _ _ => rfl, fun _ => rfl, fun _ => rfl⟩

/-! ## Register writes -/

theorem rg_zero (s : State) : rg s 0 = 0 := rfl

theorem rg_onT_of_regs (s : State) (f : Tile → Tile) (h : (f s.t).regs.g = s.t.regs.g) (n : Nat) : rg (s.onT f) n = rg s n := by
  simp only [rg, State.t_onT, h]

/-- g[n] written inside the mask: `v` in g[n], nothing in g0, everything else kept. -/
theorem wg_spec (n : Nat) (v : W64) (s : State) (h : maskedG s n = false) :
    rg (wg n v s) n = (if n = 0 then 0 else v) ∧ OnlyG n s (wg n v s) := by
  by_cases hn : n = 0
  · subst hn
    exact ⟨rfl, ⟨SameRest.refl s, rfl, fun _ _ => rfl, SameMem.refl s⟩⟩
  · have e : wg n v s = s.onT fun t => { t with regs := { t.regs with g := FMap.put t.regs.g n v } } := by
      simp [wg, hn, h]
    rw [e]
    refine ⟨by simp [rg, hn], ⟨sameRest_onT s _, by simp, fun k hk => ?_, sameMem_onT s _ rfl⟩⟩
    simp [rg, FMap.get_put, hk]

/-- p[n] written: `v` in p[n], nothing in p0, everything else kept. -/
theorem wp_spec (n : Nat) (v : Bool) (s : State) (h : n < 8) :
    rp (wp n v s) n = (n == 0 || v) ∧ OnlyP n s (wp n v s) := by
  have hm : n % 8 = n := Nat.mod_eq_of_lt h
  by_cases hn : n = 0
  · subst hn
    exact ⟨by simp [rp], ⟨SameRest.refl s, rfl, fun _ _ _ => rfl, SameMem.refl s⟩⟩
  · have e : wp n v s = s.onT fun t => { t with regs := { t.regs with p := FMap.set false t.regs.p n v } } := by
      simp [wp, hm, hn]
    rw [e]
    refine ⟨by simp [rp, NSet.mem, hm], ⟨sameRest_onT s _, by simp, fun k hk hkn => ?_, sameMem_onT s _ rfl⟩⟩
    simp [rp, NSet.mem, FMap.get_set, Nat.mod_eq_of_lt hk, hkn]

/-- q[n] written: `v` in q[n], nothing in q0, everything else kept. -/
theorem wq_spec (n : Nat) (v : BitVec 16) (s : State) (h : n < 8) :
    rq (wq n v s) n = (if n = 0 then 0xFFFF else v) ∧ OnlyQ n s (wq n v s) := by
  have hm : n % 8 = n := Nat.mod_eq_of_lt h
  by_cases hn : n = 0
  · subst hn
    exact ⟨by simp [rq], ⟨SameRest.refl s, rfl, fun _ _ _ => rfl, SameMem.refl s⟩⟩
  · have e : wq n v s = s.onT fun t => { t with regs := { t.regs with q := FMap.put t.regs.q n v } } := by
      simp [wq, hm, hn]
    rw [e]
    refine ⟨by simp [rq, hm, hn], ⟨sameRest_onT s _, by simp, fun k hk hkn => ?_, sameMem_onT s _ rfl⟩⟩
    simp [rq, FMap.get_put, Nat.mod_eq_of_lt hk, hkn]

/-! ## Ports and movers -/

/-- Flits put before a port change that port alone. -/
theorem putFlits_spec (q : Nat) (l : List LinkPkt) (s : State) :
    putFlits q l s = { s with ports := (putFlits q l s).ports } ∧ ∀ v, v ≠ q → welim (putFlits q l s) v = welim s v :=
  ⟨rfl, fun v hv => by simp [putFlits, flush, setWelim, welim, FMap.get_put, hv]⟩

/-- So does a control packet. -/
theorem sendCtl_spec (q ty k : Nat) (s : State) :
    sendCtl q ty k s = { s with ports := (sendCtl q ty k s).ports } ∧ ∀ v, v ≠ q → welim (sendCtl q ty k s) v = welim s v :=
  ⟨rfl, fun v hv => by simp [sendCtl, setWelim, welim, FMap.get_put, hv]⟩

@[simp] theorem noteMove_tile (a : Agent) (s : State) (p : Nat) : (noteMove a s).tile p = s.tile p := rfl
@[simp] theorem noteMove_fab (a : Agent) (s : State) : (noteMove a s).fab = s.fab := rfl
@[simp] theorem noteMove_agenda (a : Agent) (s : State) : (noteMove a s).agenda = s.agenda := rfl

end Sys2Proof.Machine
end

