-- ==== Sys2Proof/Tests/Slice0.lean ====
section
/-!
SUPPORT. Sys2Proof/Tests/Slice0.lean: checks of this model's own: words decoded, ill-formed terms refused, a few steps against values
worked out from the spec, and for the statements of Certificates/Slice0/Obligations.lean states and operands that meet their
hypotheses.
-/

namespace Sys2Proof.Tests

open Sys2Proof Sys2Proof.Machine

/-- A device whose tile 0 is `t`. -/
def on (t : Tile) : State := { tiles := [(0, t)] }

/-- Four tiles at places 0 to 3, all of one group. -/
def quad : Group := { kind := 1, size := 4, base := 0, shape := 0x100000002, nb := 16, coll := true }

/-- Context 1's pages: the first 1 GiB of its addresses, from 1 GiB of device memory on, with the rights and flags of word 0. -/
def space (w0 : Byte) (x : Ctx) : State :=
  { ctxs := [(1, { x with root := 0x1000 })]
    fab := { hbm := [(0x1000, 1), (0x1009, 0x20), (0x2000, 1), (0x2009, 0x30), (0x3000, w0), (0x3009, 0x40)] } }

/-- A running tile of context 1 at rank 0 of group 1. -/
def peer (t : Tile) : Tile :=
  { t with life := .running, resident := true, place := some 0, sys := { t.sys with cid := 1 },
           comm := { t.comm with bound := [(1, true)], slots := [(0, { grp := 1, rank := 0, desc := quad })] } }

/-- Such a tile with messages on their way and context 1's table. -/
def netted (t : Tile) (l : List Msg) : State :=
  { on (peer t) with fab := { net := l }, ctxs := [(1, { st := .residentRunning, groups := [(1, quad)] })] }

/-- Context 1 with queue 0 active, and one packet of it in the pump house. -/
def queued (w0 : Byte) (p : HPkt) : State :=
  { space w0 { st := .residentRunning, job := 1, queues := [(0, { st := .active, base := 0x10000, size := 4, tail := 1, seen := 1 })] } with
    pump := { pkts := [{ p with cid := 1 }] } }

/-- Context 1 without a queue, and one packet of it in the pump house. -/
def paged (w0 : Byte) (p : HPkt) : State :=
  { space w0 { st := .residentRunning, job := 1 } with pump := { pkts := [{ p with cid := 1 }] } }

/-- A packet of a type, running, with words 4 to 7. -/
def packet (ty : Nat) (w : List Nat) : HPkt := { id := 1, cid := 1, st := .running, words := [ty, 0, 0, 0] ++ w }

/-- Whether a result is there and passes a test. -/
def okAnd {α : Type} (r : Except Nat α) (f : α → Bool) : Bool := match r with | .ok x => f x | .error _ => false

theorem okAnd_iff {α : Type} (r : Except Nat α) (f : α → Bool) : okAnd r f = true ↔ ∃ x, r = .ok x ∧ f x = true := by
  cases r <;> simp [okAnd]

/-- Whether a result is an error other than a wait. -/
def fails {α : Type} (r : Except Nat α) : Bool := match r with | .ok _ => false | .error e => e != 0

/-- A device with some ports open to context 1, and with the firewalls as firmware sets them. -/
def opened (l : List Nat) (s : State) : State :=
  { s with fab := { s.fab with member := l.map fun q => (q * 4096 + 1, true), firewall := (List.range 4).map fun d => (d, firewallBoot) } }

/-! ## Ill-formed terms -/

/-- R45: every field's range is checked. -/
theorem test_wf_R : Instr.wf (.add { g := 8 }) = false ∧ Instr.wf (.add { m := 8 }) = false ∧ Instr.wf (.add { d := 32 }) = false ∧
    Instr.wf (.add { a := 32 }) = false ∧ Instr.wf (.add { b := 32 }) = false ∧
    Instr.wf (.add { g := 7, m := 7, d := 31, a := 31, b := 31 }) = true := by decide

theorem test_wf_I : Instr.wf (.addi { g := 8 }) = false ∧ Instr.wf (.addi { d := 32 }) = false ∧ Instr.wf (.addi { a := 32 }) = false ∧
    Instr.wf (.addi { imm := 256 }) = false ∧ Instr.wf (.addi { imm := -257 }) = false ∧
    Instr.wf (.addi { imm := 255 }) = true ∧ Instr.wf (.addi { imm := -256 }) = true := by decide

theorem test_wf_M : Instr.wf (.movi { g := 8 }) = false ∧ Instr.wf (.movi { d := 32 }) = false ∧ Instr.wf (.movi { imm := 8192 }) = false ∧
    Instr.wf (.movi { imm := -8193 }) = false ∧ Instr.wf (.movi { imm := 8191 }) = true := by decide

theorem test_wf_Br : Instr.wf (.br { g := 8 }) = false ∧ Instr.wf (.br { off := 262144 }) = false ∧ Instr.wf (.br { off := -262145 }) = false ∧
    Instr.wf (.br { off := -262144 }) = true := by decide

theorem test_wf_Bg : Instr.wf (.bz { g := 8 }) = false ∧ Instr.wf (.bz { a := 32 }) = false ∧ Instr.wf (.bz { off := 8192 }) = false ∧
    Instr.wf (.bz { off := -8193 }) = false ∧ Instr.wf (.bz { off := 8191 }) = true := by decide

theorem test_wf_V : Instr.wf (.vadd { q := 8 }) = false ∧ Instr.wf (.vadd { t := 8 }) = false ∧ Instr.wf (.vadd { d := 32 }) = false ∧
    Instr.wf (.vadd { a := 32 }) = false ∧ Instr.wf (.vadd { b := 32 }) = false ∧ Instr.wf (.vadd { q := 7, t := 7 }) = true := by decide

theorem test_wf_X : Instr.wf (.mma { g := 8 }) = false ∧ Instr.wf (.mma { c := 16 }) = false ∧ Instr.wf (.mma { a := 32 }) = false ∧
    Instr.wf (.mma { b := 32 }) = false ∧ Instr.wf (.mma { c := 15 }) = true := by decide

theorem test_wf_L : Instr.wf (.addiL { g := 8 }) = false ∧ Instr.wf (.addiL { d := 32 }) = false ∧ Instr.wf (.addiL { a := 32 }) = false ∧
    Instr.wf (.addiL { b := 32 }) = false ∧ Instr.wf (.addiL { imm := 2 ^ 32 }) = false ∧
    Instr.wf (.addiL { imm := 2 ^ 32 - 1 }) = true := by decide

/-- R47, R74, R148: a row's own limits: AND has no W form, a shift by an immediate goes to 63, VABS has no unsigned types. -/
theorem test_legal : Instr.legal (.and { m := 1 }) = false ∧ Instr.legal (.slli { imm := 64 }) = false ∧
    Instr.legal (.vabs { t := 6 }) = false ∧ Instr.legal (.clz { b := 1 }) = false ∧ Instr.legal (.get { m := 3 }) = false ∧
    Instr.legal (.and { m := 0 }) = true ∧ Instr.legal (.slli { imm := 63 }) = true := by decide

/-! ## Words -/

/-- R48, R51: no row, and a row whose zero field is not zero. -/
theorem test_decode_refuses :
    decode 0x800F0000 0 = .error .unassigned ∧ decode 0x90048001 0 = .error .illegal := by
  constructor <;> rfl


/-- R49: words packed by R45 from the table of the major opcode. -/
theorem test_decode_A_R_0 :
    decode 0x83C054D7 0 = .ok (.add { e := true, g := 3, n := true, d := 21, a := 6, b := 23, m := 1 }) ∧
    decode 0x03C0D4D7 0 = .ok (.sub { e := false, g := 3, n := true, d := 21, a := 6, b := 23, m := 1 }) ∧
    decode 0x838154D7 0 = .ok (.and { e := true, g := 3, n := true, d := 21, a := 6, b := 23, m := 0 }) ∧
    decode 0x0381D4D7 0 = .ok (.or { e := false, g := 3, n := true, d := 21, a := 6, b := 23, m := 0 }) ∧
    decode 0x838254D7 0 = .ok (.xor { e := true, g := 3, n := true, d := 21, a := 6, b := 23, m := 0 }) ∧
    decode 0x0382D4D7 0 = .ok (.andn { e := false, g := 3, n := true, d := 21, a := 6, b := 23, m := 0 }) ∧
    decode 0x838354D7 0 = .ok (.orn { e := true, g := 3, n := true, d := 21, a := 6, b := 23, m := 0 }) ∧
    decode 0x03C3D4D7 0 = .ok (.sll { e := false, g := 3, n := true, d := 21, a := 6, b := 23, m := 1 }) ∧
    decode 0x83C454D7 0 = .ok (.srl { e := true, g := 3, n := true, d := 21, a := 6, b := 23, m := 1 }) ∧
    decode 0x03C4D4D7 0 = .ok (.sra { e := false, g := 3, n := true, d := 21, a := 6, b := 23, m := 1 }) ∧
    decode 0x83C554D7 0 = .ok (.ror { e := true, g := 3, n := true, d := 21, a := 6, b := 23, m := 1 }) ∧
    decode 0x03C5D4D7 0 = .ok (.min { e := false, g := 3, n := true, d := 21, a := 6, b := 23, m := 1 }) ∧
    decode 0x83C654D7 0 = .ok (.max { e := true, g := 3, n := true, d := 21, a := 6, b := 23, m := 1 }) ∧
    decode 0x03C6D4D7 0 = .ok (.minn { e := false, g := 3, n := true, d := 21, a := 6, b := 23, m := 1 }) ∧
    decode 0x83C754D7 0 = .ok (.maxn { e := true, g := 3, n := true, d := 21, a := 6, b := 23, m := 1 }) := by
  repeat' (first | rfl | apply And.intro)

/-- R49: words packed by R45 from the table of the major opcode. -/
theorem test_decode_A_R_1 :
    decode 0x03C794D7 0 = .ok (.ceq { e := false, g := 3, n := true, d := 5, a := 6, b := 23, m := 1 }) ∧
    decode 0x83C814D7 0 = .ok (.cne { e := true, g := 3, n := true, d := 5, a := 6, b := 23, m := 1 }) ∧
    decode 0x03C894D7 0 = .ok (.clt { e := false, g := 3, n := true, d := 5, a := 6, b := 23, m := 1 }) ∧
    decode 0x83C914D7 0 = .ok (.cle { e := true, g := 3, n := true, d := 5, a := 6, b := 23, m := 1 }) ∧
    decode 0x03C994D7 0 = .ok (.cltn { e := false, g := 3, n := true, d := 5, a := 6, b := 23, m := 1 }) ∧
    decode 0x83CA14D7 0 = .ok (.clen { e := true, g := 3, n := true, d := 5, a := 6, b := 23, m := 1 }) ∧
    decode 0x038A94C3 0 = .ok (.pand { e := false, g := 3, n := true, d := 5, a := 6, b := 3, m := 0 }) ∧
    decode 0x838B14C3 0 = .ok (.por { e := true, g := 3, n := true, d := 5, a := 6, b := 3, m := 0 }) ∧
    decode 0x038B94C3 0 = .ok (.pxor { e := false, g := 3, n := true, d := 5, a := 6, b := 3, m := 0 }) ∧
    decode 0x838C14C3 0 = .ok (.pandn { e := true, g := 3, n := true, d := 5, a := 6, b := 3, m := 0 }) ∧
    decode 0x038CD4C0 0 = .ok (.movp { e := false, g := 3, n := true, d := 21, a := 6, b := 0, m := 0 }) ∧
    decode 0x838D14C0 0 = .ok (.pmovg { e := true, g := 3, n := true, d := 5, a := 6, b := 0, m := 0 }) ∧
    decode 0x038DD4D7 0 = .ok (.ext { e := false, g := 3, n := true, d := 21, a := 6, b := 23, m := 0 }) ∧
    decode 0x838E54D7 0 = .ok (.exts { e := true, g := 3, n := true, d := 21, a := 6, b := 23, m := 0 }) ∧
    decode 0x038ED4D7 0 = .ok (.ins { e := false, g := 3, n := true, d := 21, a := 6, b := 23, m := 0 }) := by
  repeat' (first | rfl | apply And.intro)

/-- R50: words packed by R45 from the table of the major opcode. -/
theorem test_decode_A_I_0 :
    decode 0x8B854DFB 0 = .ok (.addi { e := true, g := 3, n := true, d := 21, a := 6, imm := -5 }) ∧
    decode 0x0B8D4DFB 0 = .ok (.andi { e := false, g := 3, n := true, d := 21, a := 6, imm := -5 }) ∧
    decode 0x8B954DFB 0 = .ok (.ori { e := true, g := 3, n := true, d := 21, a := 6, imm := -5 }) ∧
    decode 0x0B9D4DFB 0 = .ok (.xori { e := false, g := 3, n := true, d := 21, a := 6, imm := -5 }) ∧
    decode 0x8BA54C09 0 = .ok (.slli { e := true, g := 3, n := true, d := 21, a := 6, imm := 9 }) ∧
    decode 0x0BAD4C09 0 = .ok (.srli { e := false, g := 3, n := true, d := 21, a := 6, imm := 9 }) ∧
    decode 0x8BB54C09 0 = .ok (.srai { e := true, g := 3, n := true, d := 21, a := 6, imm := 9 }) ∧
    decode 0x0BB94DFB 0 = .ok (.ceqi { e := false, g := 3, n := true, d := 5, a := 6, imm := -5 }) ∧
    decode 0x8BC14DFB 0 = .ok (.cnei { e := true, g := 3, n := true, d := 5, a := 6, imm := -5 }) ∧
    decode 0x0BC94DFB 0 = .ok (.clti { e := false, g := 3, n := true, d := 5, a := 6, imm := -5 }) ∧
    decode 0x8BD14DFB 0 = .ok (.clei { e := true, g := 3, n := true, d := 5, a := 6, imm := -5 }) ∧
    decode 0x0BD94DFB 0 = .ok (.cltni { e := false, g := 3, n := true, d := 5, a := 6, imm := -5 }) ∧
    decode 0x8BE14DFB 0 = .ok (.cleni { e := true, g := 3, n := true, d := 5, a := 6, imm := -5 }) ∧
    decode 0x0BED4DFB 0 = .ok (.addwi { e := false, g := 3, n := true, d := 21, a := 6, imm := -5 }) ∧
    decode 0x8BF57FFB 0 = .ok (.movi { e := true, g := 3, n := true, d := 21, imm := -5 }) := by
  repeat' (first | rfl | apply And.intro)

/-- R51: words packed by R45 from the table of the major opcode. -/
theorem test_decode_A_M_0 :
    decode 0x13C054D7 0 = .ok (.mul { e := false, g := 3, n := true, d := 21, a := 6, b := 23, m := 1 }) ∧
    decode 0x93C0D4D7 0 = .ok (.mulh { e := true, g := 3, n := true, d := 21, a := 6, b := 23, m := 1 }) ∧
    decode 0x13C154D7 0 = .ok (.mulhn { e := false, g := 3, n := true, d := 21, a := 6, b := 23, m := 1 }) ∧
    decode 0x93C1D4D7 0 = .ok (.div { e := true, g := 3, n := true, d := 21, a := 6, b := 23, m := 1 }) ∧
    decode 0x13C254D7 0 = .ok (.divn { e := false, g := 3, n := true, d := 21, a := 6, b := 23, m := 1 }) ∧
    decode 0x93C2D4D7 0 = .ok (.rem { e := true, g := 3, n := true, d := 21, a := 6, b := 23, m := 1 }) ∧
    decode 0x13C354D7 0 = .ok (.remn { e := false, g := 3, n := true, d := 21, a := 6, b := 23, m := 1 }) ∧
    decode 0x93C3D4D7 0 = .ok (.madd { e := true, g := 3, n := true, d := 21, a := 6, b := 23, m := 1 }) ∧
    decode 0x13C454D7 0 = .ok (.msub { e := false, g := 3, n := true, d := 21, a := 6, b := 23, m := 1 }) ∧
    decode 0x9384D4C0 0 = .ok (.clz { e := true, g := 3, n := true, d := 21, a := 6, b := 0, m := 0 }) ∧
    decode 0x138554C0 0 = .ok (.ctz { e := false, g := 3, n := true, d := 21, a := 6, b := 0, m := 0 }) ∧
    decode 0x9385D4C0 0 = .ok (.popc { e := true, g := 3, n := true, d := 21, a := 6, b := 0, m := 0 }) ∧
    decode 0x138654C0 0 = .ok (.brev { e := false, g := 3, n := true, d := 21, a := 6, b := 0, m := 0 }) ∧
    decode 0x9386D4C0 0 = .ok (.bswap { e := true, g := 3, n := true, d := 21, a := 6, b := 0, m := 0 }) := by
  repeat' (first | rfl | apply And.intro)

/-- R52: words packed by R45 from the table of the major opcode. -/
theorem test_decode_B_0 :
    decode 0x1B87FFFD 0 = .ok (.br { e := false, g := 3, n := true, off := -3 }) ∧
    decode 0x9B8FFFFD 0 = .ok (.call { e := true, g := 3, n := true, off := -3 }) ∧
    decode 0x1B91BFFD 0 = .ok (.bz { e := false, g := 3, n := true, a := 6, off := -3 }) ∧
    decode 0x9B99BFFD 0 = .ok (.bnz { e := true, g := 3, n := true, a := 6, off := -3 }) ∧
    decode 0x1BA1BFFD 0 = .ok (.loop { e := false, g := 3, n := true, a := 6, off := -3 }) ∧
    decode 0x9BA98000 0 = .ok (.brr { e := true, g := 3, n := true, a := 6, off := 0 }) ∧
    decode 0x1BB18000 0 = .ok (.callr { e := false, g := 3, n := true, a := 6, off := 0 }) ∧
    decode 0x9BB80000 0 = .ok (.ret { e := true, g := 3, n := true, a := 0, off := 0 }) := by
  repeat' (first | rfl | apply And.intro)

/-- R53: words packed by R45 from the table of the major opcode. -/
theorem test_decode_L_S_0 :
    decode 0x23854DFB 0 = .ok (.ldb { e := false, g := 3, n := true, d := 21, a := 6, imm := -5 }) ∧
    decode 0xA38D4DFB 0 = .ok (.ldbn { e := true, g := 3, n := true, d := 21, a := 6, imm := -5 }) ∧
    decode 0x23954DFB 0 = .ok (.ldh { e := false, g := 3, n := true, d := 21, a := 6, imm := -5 }) ∧
    decode 0xA39D4DFB 0 = .ok (.ldhn { e := true, g := 3, n := true, d := 21, a := 6, imm := -5 }) ∧
    decode 0x23A54DFB 0 = .ok (.ldw { e := false, g := 3, n := true, d := 21, a := 6, imm := -5 }) ∧
    decode 0xA3AD4DFB 0 = .ok (.ldwn { e := true, g := 3, n := true, d := 21, a := 6, imm := -5 }) ∧
    decode 0x23B54DFB 0 = .ok (.ldd { e := false, g := 3, n := true, d := 21, a := 6, imm := -5 }) ∧
    decode 0xA3BD4DFB 0 = .ok (.stb { e := true, g := 3, n := true, d := 21, a := 6, imm := -5 }) ∧
    decode 0x23C54DFB 0 = .ok (.sth { e := false, g := 3, n := true, d := 21, a := 6, imm := -5 }) ∧
    decode 0xA3CD4DFB 0 = .ok (.stw { e := true, g := 3, n := true, d := 21, a := 6, imm := -5 }) ∧
    decode 0x23D54DFB 0 = .ok (.std { e := false, g := 3, n := true, d := 21, a := 6, imm := -5 }) ∧
    decode 0xA3DD4DFB 0 = .ok (.ldf { e := true, g := 3, n := true, d := 21, a := 6, imm := -5 }) ∧
    decode 0x23E54DFB 0 = .ok (.ldfc { e := false, g := 3, n := true, d := 21, a := 6, imm := -5 }) ∧
    decode 0xA3ED4DFB 0 = .ok (.stf { e := true, g := 3, n := true, d := 21, a := 6, imm := -5 }) ∧
    decode 0x23F00DFB 0 = .ok (.fclr { e := false, g := 3, n := true, d := 0, a := 6, imm := -5 }) := by
  repeat' (first | rfl | apply And.intro)

/-- R53: words packed by R45 from the table of the major opcode. -/
theorem test_decode_L_S_1 :
    decode 0xA3F80DFB 0 = .ok (.fset { e := true, g := 3, n := true, d := 0, a := 6, imm := -5 }) := by
  repeat' (first | rfl | apply And.intro)

/-- R54: words packed by R45 from the table of the major opcode. -/
theorem test_decode_L_V_0 :
    decode 0x2B0050D7 0 = .ok (.vld { e := false, q := 3, t := 0, d := 20, a := 6, b := 23 }) ∧
    decode 0xAB00D0D7 0 = .ok (.vst { e := true, q := 3, t := 0, d := 20, a := 6, b := 23 }) ∧
    decode 0x2B0150D7 0 = .ok (.vldb { e := false, q := 3, t := 0, d := 20, a := 6, b := 23 }) ∧
    decode 0xAB01D0D7 0 = .ok (.vlds { e := true, q := 3, t := 0, d := 20, a := 6, b := 23 }) ∧
    decode 0x2B0250D7 0 = .ok (.vsts { e := false, q := 3, t := 0, d := 20, a := 6, b := 23 }) ∧
    decode 0xAB02D0D7 0 = .ok (.vldx { e := true, q := 3, t := 0, d := 20, a := 6, b := 23 }) ∧
    decode 0x2B0350D7 0 = .ok (.vstx { e := false, q := 3, t := 0, d := 20, a := 6, b := 23 }) ∧
    decode 0xAB03D0D7 0 = .ok (.vldt { e := true, q := 3, t := 0, d := 20, a := 6, b := 23 }) ∧
    decode 0x2B0450D7 0 = .ok (.vstt { e := false, q := 3, t := 0, d := 20, a := 6, b := 23 }) ∧
    decode 0xAB04D0D7 0 = .ok (.vldf { e := true, q := 3, t := 0, d := 20, a := 6, b := 23 }) ∧
    decode 0x280550C0 0 = .ok (.vspl { e := false, q := 0, t := 0, d := 20, a := 6, b := 0 }) ∧
    decode 0xA805D0C0 0 = .ok (.vfil { e := true, q := 0, t := 0, d := 20, a := 6, b := 0 }) := by
  repeat' (first | rfl | apply And.intro)

/-- R55: words packed by R45 from the table of the major opcode. -/
theorem test_decode_V_R_0 :
    decode 0x336050D7 0 = .ok (.vadd { e := false, q := 3, t := 3, d := 20, a := 6, b := 23 }) ∧
    decode 0xB360D0D7 0 = .ok (.vsub { e := true, q := 3, t := 3, d := 20, a := 6, b := 23 }) ∧
    decode 0x336150D7 0 = .ok (.vmul { e := false, q := 3, t := 3, d := 20, a := 6, b := 23 }) ∧
    decode 0xB361D0D7 0 = .ok (.vfma { e := true, q := 3, t := 3, d := 20, a := 6, b := 23 }) ∧
    decode 0x336250D7 0 = .ok (.vfms { e := false, q := 3, t := 3, d := 20, a := 6, b := 23 }) ∧
    decode 0xB362D0D7 0 = .ok (.vmin { e := true, q := 3, t := 3, d := 20, a := 6, b := 23 }) ∧
    decode 0x336350D7 0 = .ok (.vmax { e := false, q := 3, t := 3, d := 20, a := 6, b := 23 }) ∧
    decode 0xB363D0C0 0 = .ok (.vabs { e := true, q := 3, t := 3, d := 20, a := 6, b := 0 }) ∧
    decode 0x336450C0 0 = .ok (.vneg { e := false, q := 3, t := 3, d := 20, a := 6, b := 0 }) ∧
    decode 0xB304D0D7 0 = .ok (.vand { e := true, q := 3, t := 0, d := 20, a := 6, b := 23 }) ∧
    decode 0x330550D7 0 = .ok (.vor { e := false, q := 3, t := 0, d := 20, a := 6, b := 23 }) ∧
    decode 0xB305D0D7 0 = .ok (.vxor { e := true, q := 3, t := 0, d := 20, a := 6, b := 23 }) ∧
    decode 0x330650D7 0 = .ok (.vandn { e := false, q := 3, t := 0, d := 20, a := 6, b := 23 }) ∧
    decode 0xB366D0D7 0 = .ok (.vsll { e := true, q := 3, t := 3, d := 20, a := 6, b := 23 }) ∧
    decode 0x336750D7 0 = .ok (.vsrl { e := false, q := 3, t := 3, d := 20, a := 6, b := 23 }) := by
  repeat' (first | rfl | apply And.intro)

/-- R55: words packed by R45 from the table of the major opcode. -/
theorem test_decode_V_R_1 :
    decode 0xB367D0D7 0 = .ok (.vsra { e := true, q := 3, t := 3, d := 20, a := 6, b := 23 }) ∧
    decode 0x336850D7 0 = .ok (.vadds { e := false, q := 3, t := 3, d := 20, a := 6, b := 23 }) ∧
    decode 0xB368D0D7 0 = .ok (.vsubs { e := true, q := 3, t := 3, d := 20, a := 6, b := 23 }) ∧
    decode 0x336950D7 0 = .ok (.vmulh { e := false, q := 3, t := 3, d := 20, a := 6, b := 23 }) ∧
    decode 0xB3A9D0D7 0 = .ok (.vdot4 { e := true, q := 3, t := 5, d := 20, a := 6, b := 23 }) ∧
    decode 0x332A50D7 0 = .ok (.vdot2 { e := false, q := 3, t := 1, d := 20, a := 6, b := 23 }) ∧
    decode 0xB36AD0D7 0 = .ok (.vmulw { e := true, q := 3, t := 3, d := 20, a := 6, b := 23 }) ∧
    decode 0x330B50C0 0 = .ok (.vcopy { e := false, q := 3, t := 0, d := 20, a := 6, b := 0 }) := by
  repeat' (first | rfl | apply And.intro)

/-- R56: words packed by R45 from the table of the major opcode. -/
theorem test_decode_V_F_0 :
    decode 0xBB6050C7 0 = .ok (.vcvt { e := true, q := 3, t := 3, d := 20, a := 6, b := 7 }) ∧
    decode 0x3B20D0D7 0 = .ok (.vdiv { e := false, q := 3, t := 1, d := 20, a := 6, b := 23 }) ∧
    decode 0xBB2150C0 0 = .ok (.vsqrt { e := true, q := 3, t := 1, d := 20, a := 6, b := 0 }) ∧
    decode 0x3B21D0C0 0 = .ok (.vrcp { e := false, q := 3, t := 1, d := 20, a := 6, b := 0 }) ∧
    decode 0xBB2250C0 0 = .ok (.vrsq { e := true, q := 3, t := 1, d := 20, a := 6, b := 0 }) ∧
    decode 0x3B22D0C0 0 = .ok (.vexp2 { e := false, q := 3, t := 1, d := 20, a := 6, b := 0 }) ∧
    decode 0xBB2350C0 0 = .ok (.vlog2 { e := true, q := 3, t := 1, d := 20, a := 6, b := 0 }) ∧
    decode 0x3B23D0C3 0 = .ok (.vround { e := false, q := 3, t := 1, d := 20, a := 6, b := 3 }) ∧
    decode 0xBB6450C0 0 = .ok (.vrsum { e := true, q := 3, t := 3, d := 20, a := 6, b := 0 }) ∧
    decode 0x3B64D0C0 0 = .ok (.vrmax { e := false, q := 3, t := 3, d := 20, a := 6, b := 0 }) ∧
    decode 0xBB6550C0 0 = .ok (.vrmin { e := true, q := 3, t := 3, d := 20, a := 6, b := 0 }) ∧
    decode 0x3B25D0D7 0 = .ok (.vscale { e := false, q := 3, t := 1, d := 20, a := 6, b := 23 }) ∧
    decode 0xBB2650C0 0 = .ok (.vclass { e := true, q := 3, t := 1, d := 20, a := 6, b := 0 }) ∧
    decode 0x3B06D0C7 0 = .ok (.venc8 { e := false, q := 3, t := 0, d := 20, a := 6, b := 7 }) ∧
    decode 0xBB0750C7 0 = .ok (.vdec8 { e := true, q := 3, t := 0, d := 20, a := 6, b := 7 }) := by
  repeat' (first | rfl | apply And.intro)

/-- R56: words packed by R45 from the table of the major opcode. -/
theorem test_decode_V_F_1 :
    decode 0x3B07D0D7 0 = .ok (.venc4 { e := false, q := 3, t := 0, d := 20, a := 6, b := 23 }) ∧
    decode 0xBB0850D7 0 = .ok (.vdec4 { e := true, q := 3, t := 0, d := 20, a := 6, b := 23 }) ∧
    decode 0x3B08D0C0 0 = .ok (.vbscl { e := false, q := 3, t := 0, d := 20, a := 6, b := 0 }) := by
  repeat' (first | rfl | apply And.intro)

/-- R57: words packed by R45 from the table of the major opcode. -/
theorem test_decode_V_P_0 :
    decode 0xC36050D7 0 = .ok (.vceq { e := true, q := 3, t := 3, d := 20, a := 6, b := 23 }) ∧
    decode 0x4360D0D7 0 = .ok (.vcne { e := false, q := 3, t := 3, d := 20, a := 6, b := 23 }) ∧
    decode 0xC36150D7 0 = .ok (.vclt { e := true, q := 3, t := 3, d := 20, a := 6, b := 23 }) ∧
    decode 0x4361D0D7 0 = .ok (.vcle { e := false, q := 3, t := 3, d := 20, a := 6, b := 23 }) ∧
    decode 0xC36250D7 0 = .ok (.vcltn { e := true, q := 3, t := 3, d := 20, a := 6, b := 23 }) ∧
    decode 0x4362D0D7 0 = .ok (.vclen { e := false, q := 3, t := 3, d := 20, a := 6, b := 23 }) ∧
    decode 0xC00350D7 0 = .ok (.qand { e := true, q := 0, t := 0, d := 20, a := 6, b := 23 }) ∧
    decode 0x4003D0D7 0 = .ok (.qor { e := false, q := 0, t := 0, d := 20, a := 6, b := 23 }) ∧
    decode 0xC00450D7 0 = .ok (.qxor { e := true, q := 0, t := 0, d := 20, a := 6, b := 23 }) ∧
    decode 0x4004D0D7 0 = .ok (.qandn { e := false, q := 0, t := 0, d := 20, a := 6, b := 23 }) ∧
    decode 0xC00550C0 0 = .ok (.qmovg { e := true, q := 0, t := 0, d := 20, a := 6, b := 0 }) ∧
    decode 0x4005D0C0 0 = .ok (.gmovq { e := false, q := 0, t := 0, d := 20, a := 6, b := 0 }) ∧
    decode 0xC36650C0 0 = .ok (.vsplat { e := true, q := 3, t := 3, d := 20, a := 6, b := 0 }) ∧
    decode 0x4006D0D7 0 = .ok (.vins { e := false, q := 0, t := 0, d := 20, a := 6, b := 23 }) ∧
    decode 0xC06750D7 0 = .ok (.vext { e := true, q := 0, t := 3, d := 20, a := 6, b := 23 }) := by
  repeat' (first | rfl | apply And.intro)

/-- R57: words packed by R45 from the table of the major opcode. -/
theorem test_decode_V_P_1 :
    decode 0x4307D0D7 0 = .ok (.vperm { e := false, q := 3, t := 0, d := 20, a := 6, b := 23 }) ∧
    decode 0xC30850C0 0 = .ok (.vcompr { e := true, q := 3, t := 0, d := 20, a := 6, b := 0 }) ∧
    decode 0x4308D0D7 0 = .ok (.vsel { e := false, q := 3, t := 0, d := 20, a := 6, b := 23 }) ∧
    decode 0xC30950C0 0 = .ok (.viota { e := true, q := 3, t := 0, d := 20, a := 6, b := 0 }) ∧
    decode 0x4009D0C0 0 = .ok (.qpopc { e := false, q := 0, t := 0, d := 20, a := 6, b := 0 }) := by
  repeat' (first | rfl | apply And.intro)

/-- R58: words packed by R45 from the table of the major opcode. -/
theorem test_decode_X_0 :
    decode 0xCB8000D7 0 = .ok (.mcfg { e := true, g := 3, n := true, c := 0, a := 6, b := 23 }) ∧
    decode 0xCB8320D7 0 = .ok (.mma { e := true, g := 3, n := true, c := 9, a := 6, b := 23 }) ∧
    decode 0x4B8324D7 0 = .ok (.mmat { e := false, g := 3, n := true, c := 9, a := 6, b := 23 }) ∧
    decode 0xCB8328D7 0 = .ok (.mms { e := true, g := 3, n := true, c := 9, a := 6, b := 23 }) ∧
    decode 0x4B832CD7 0 = .ok (.mmst { e := false, g := 3, n := true, c := 9, a := 6, b := 23 }) ∧
    decode 0xCB8520D7 0 = .ok (.mmaz { e := true, g := 3, n := true, c := 9, a := 6, b := 23 }) ∧
    decode 0x4B8524D7 0 = .ok (.mmazt { e := false, g := 3, n := true, c := 9, a := 6, b := 23 }) ∧
    decode 0xCB8528D7 0 = .ok (.mmsz { e := true, g := 3, n := true, c := 9, a := 6, b := 23 }) ∧
    decode 0x4B852CD7 0 = .ok (.mmszt { e := false, g := 3, n := true, c := 9, a := 6, b := 23 }) ∧
    decode 0xCB872000 0 = .ok (.mzero { e := true, g := 3, n := true, c := 9, a := 0, b := 0 }) ∧
    decode 0x4B8920C0 0 = .ok (.mldac { e := false, g := 3, n := true, c := 9, a := 6, b := 0 }) ∧
    decode 0xCB8924C0 0 = .ok (.mldacf { e := true, g := 3, n := true, c := 9, a := 6, b := 0 }) ∧
    decode 0x4B8B20C0 0 = .ok (.mstac { e := false, g := 3, n := true, c := 9, a := 6, b := 0 }) ∧
    decode 0xCB8B24C0 0 = .ok (.mstacf { e := true, g := 3, n := true, c := 9, a := 6, b := 0 }) ∧
    decode 0x4B8D20D7 0 = .ok (.mdrn { e := false, g := 3, n := true, c := 9, a := 6, b := 23 }) := by
  repeat' (first | rfl | apply And.intro)

/-- R58: words packed by R45 from the table of the major opcode. -/
theorem test_decode_X_1 :
    decode 0xCB8F20C0 0 = .ok (.mhad { e := true, g := 3, n := true, c := 9, a := 6, b := 0 }) ∧
    decode 0x4B9120C0 0 = .ok (.msclc { e := false, g := 3, n := true, c := 9, a := 6, b := 0 }) ∧
    decode 0xCB9320C0 0 = .ok (.maddr { e := true, g := 3, n := true, c := 9, a := 6, b := 0 }) ∧
    decode 0x4B9520C0 0 = .ok (.mrdf { e := false, g := 3, n := true, c := 9, a := 6, b := 0 }) ∧
    decode 0xCB972000 0 = .ok (.mclrf { e := true, g := 3, n := true, c := 9, a := 0, b := 0 }) ∧
    decode 0x4B980000 0 = .ok (.mwait { e := false, g := 3, n := true, c := 0, a := 0, b := 0 }) ∧
    decode 0xCB992400 0 = .ok (.mwaitAc { e := true, g := 3, n := true, c := 9, a := 0, b := 0 }) ∧
    decode 0x4B9A00D7 0 = .ok (.mjob { e := false, g := 3, n := true, c := 0, a := 6, b := 23 }) ∧
    decode 0xCB9C00D7 0 = .ok (.mtstj { e := true, g := 3, n := true, c := 0, a := 6, b := 23 }) := by
  repeat' (first | rfl | apply And.intro)

/-- R59: words packed by R45 from the table of the major opcode. -/
theorem test_decode_N_M_0 :
    decode 0x538114D7 0 = .ok (.send { e := false, g := 3, n := true, d := 5, a := 6, b := 23, m := 1 }) ∧
    decode 0xD38194D7 0 = .ok (.sende { e := true, g := 3, n := true, d := 5, a := 6, b := 23, m := 1 }) ∧
    decode 0x5388D4D7 0 = .ok (.recv { e := false, g := 3, n := true, d := 21, a := 6, b := 23, m := 1 }) ∧
    decode 0xD390D4D7 0 = .ok (.probe { e := true, g := 3, n := true, d := 21, a := 6, b := 23, m := 1 }) ∧
    decode 0x539854C0 0 = .ok (.rcancel { e := false, g := 3, n := true, d := 21, a := 6, b := 0, m := 0 }) ∧
    decode 0xD3A054C0 0 = .ok (.rtest { e := true, g := 3, n := true, d := 21, a := 6, b := 0, m := 0 }) ∧
    decode 0x53A854C0 0 = .ok (.rwait { e := false, g := 3, n := true, d := 21, a := 6, b := 0, m := 0 }) ∧
    decode 0xD3B054D7 0 = .ok (.xchg { e := true, g := 3, n := true, d := 21, a := 6, b := 23, m := 0 }) ∧
    decode 0x53B85403 0 = .ok (.squery { e := false, g := 3, n := true, d := 21, a := 0, b := 3, m := 0 }) ∧
    decode 0xD3C014D7 0 = .ok (.sendv { e := true, g := 3, n := true, d := 5, a := 6, b := 23, m := 0 }) ∧
    decode 0x53C814D7 0 = .ok (.csend { e := false, g := 3, n := true, d := 5, a := 6, b := 23, m := 0 }) := by
  repeat' (first | rfl | apply And.intro)

/-- R60: words packed by R45 from the table of the major opcode. -/
theorem test_decode_N_T_0 :
    decode 0x5B8054D7 0 = .ok (.tbind { e := false, g := 3, n := true, d := 21, a := 6, b := 23, m := 0 }) ∧
    decode 0xDB80D4D7 0 = .ok (.tarm { e := true, g := 3, n := true, d := 21, a := 6, b := 23, m := 0 }) ∧
    decode 0x5B8100C0 0 = .ok (.tkick { e := false, g := 3, n := true, d := 0, a := 6, b := 0, m := 0 }) ∧
    decode 0xDB81D4C0 0 = .ok (.tspawn { e := true, g := 3, n := true, d := 21, a := 6, b := 0, m := 0 }) ∧
    decode 0x5B820000 0 = .ok (.tend { e := false, g := 3, n := true, d := 0, a := 0, b := 0, m := 0 }) ∧
    decode 0xDB828000 0 = .ok (.tcommit { e := true, g := 3, n := true, d := 0, a := 0, b := 0, m := 0 }) ∧
    decode 0x5B8300C0 0 = .ok (.tyield { e := false, g := 3, n := true, d := 0, a := 6, b := 0, m := 0 }) ∧
    decode 0xDB83D4C0 0 = .ok (.tunbind { e := true, g := 3, n := true, d := 21, a := 6, b := 0, m := 0 }) ∧
    decode 0x5B8454C3 0 = .ok (.tstat { e := false, g := 3, n := true, d := 21, a := 6, b := 3, m := 0 }) ∧
    decode 0xDB8854C0 0 = .ok (.grank { e := true, g := 3, n := true, d := 21, a := 6, b := 0, m := 0 }) ∧
    decode 0x5B88D4C0 0 = .ok (.gsize { e := false, g := 3, n := true, d := 21, a := 6, b := 0, m := 0 }) ∧
    decode 0xDB8954D7 0 = .ok (.gplace { e := true, g := 3, n := true, d := 21, a := 6, b := 23, m := 0 }) ∧
    decode 0x5B9054C0 0 = .ok (.barr { e := false, g := 3, n := true, d := 21, a := 6, b := 0, m := 0 }) ∧
    decode 0xDB90D4D7 0 = .ok (.bbind { e := true, g := 3, n := true, d := 21, a := 6, b := 23, m := 0 }) ∧
    decode 0x5B9154D7 0 = .ok (.bwait { e := false, g := 3, n := true, d := 21, a := 6, b := 23, m := 0 }) := by
  repeat' (first | rfl | apply And.intro)

/-- R60: words packed by R45 from the table of the major opcode. -/
theorem test_decode_N_T_1 :
    decode 0xDB91D4C0 0 = .ok (.bcancel { e := true, g := 3, n := true, d := 21, a := 6, b := 0, m := 0 }) ∧
    decode 0x5B9854C0 0 = .ok (.cred { e := false, g := 3, n := true, d := 21, a := 6, b := 0, m := 0 }) ∧
    decode 0xDB98D4C0 0 = .ok (.cared { e := true, g := 3, n := true, d := 21, a := 6, b := 0, m := 0 }) ∧
    decode 0x5B9954C0 0 = .ok (.cbcast { e := false, g := 3, n := true, d := 21, a := 6, b := 0, m := 0 }) ∧
    decode 0xDB99D4C0 0 = .ok (.cstart { e := true, g := 3, n := true, d := 21, a := 6, b := 0, m := 0 }) ∧
    decode 0x5B9A54C0 0 = .ok (.cabort { e := false, g := 3, n := true, d := 21, a := 6, b := 0, m := 0 }) ∧
    decode 0xDBA00000 0 = .ok (.ktrig { e := true, g := 3, n := true, d := 0, a := 0, b := 0, m := 0 }) ∧
    decode 0x5BA08000 0 = .ok (.kdone { e := false, g := 3, n := true, d := 0, a := 0, b := 0, m := 0 }) := by
  repeat' (first | rfl | apply And.intro)

/-- R61: words packed by R45 from the table of the major opcode. -/
theorem test_decode_N_P_0 :
    decode 0xE39014D7 0 = .ok (.get { e := true, g := 3, n := true, d := 5, a := 6, b := 23, m := 1 }) ∧
    decode 0x639094D7 0 = .ok (.put { e := false, g := 3, n := true, d := 5, a := 6, b := 23, m := 1 }) ∧
    decode 0xE39114D7 0 = .ok (.getd { e := true, g := 3, n := true, d := 5, a := 6, b := 23, m := 1 }) ∧
    decode 0x639194D7 0 = .ok (.putd { e := false, g := 3, n := true, d := 5, a := 6, b := 23, m := 1 }) ∧
    decode 0xE38214C0 0 = .ok (.bmv { e := true, g := 3, n := true, d := 5, a := 6, b := 0, m := 0 }) ∧
    decode 0x638294C0 0 = .ok (.bmvt { e := false, g := 3, n := true, d := 5, a := 6, b := 0, m := 0 }) ∧
    decode 0xE38314D7 0 = .ok (.bfence { e := true, g := 3, n := true, d := 5, a := 6, b := 23, m := 0 }) ∧
    decode 0x63838000 0 = .ok (.fence { e := false, g := 3, n := true, d := 0, a := 0, b := 0, m := 0 }) ∧
    decode 0xE38454C0 0 = .ok (.pqry { e := true, g := 3, n := true, d := 21, a := 6, b := 0, m := 0 }) ∧
    decode 0x638494D7 0 = .ok (.geti { e := false, g := 3, n := true, d := 5, a := 6, b := 23, m := 0 }) ∧
    decode 0xE39854D7 0 = .ok (.maadd { e := true, g := 3, n := true, d := 21, a := 6, b := 23, m := 1 }) ∧
    decode 0x6398D4D7 0 = .ok (.maand { e := false, g := 3, n := true, d := 21, a := 6, b := 23, m := 1 }) ∧
    decode 0xE39954D7 0 = .ok (.maor { e := true, g := 3, n := true, d := 21, a := 6, b := 23, m := 1 }) ∧
    decode 0x6399D4D7 0 = .ok (.maxor { e := false, g := 3, n := true, d := 21, a := 6, b := 23, m := 1 }) ∧
    decode 0xE39A54D7 0 = .ok (.mamin { e := true, g := 3, n := true, d := 21, a := 6, b := 23, m := 1 }) := by
  repeat' (first | rfl | apply And.intro)

/-- R61: words packed by R45 from the table of the major opcode. -/
theorem test_decode_N_P_1 :
    decode 0x639AD4D7 0 = .ok (.mamax { e := false, g := 3, n := true, d := 21, a := 6, b := 23, m := 1 }) ∧
    decode 0xE39B54D7 0 = .ok (.maswap { e := true, g := 3, n := true, d := 21, a := 6, b := 23, m := 1 }) ∧
    decode 0x639BD4D7 0 = .ok (.macas { e := false, g := 3, n := true, d := 21, a := 6, b := 23, m := 1 }) ∧
    decode 0xE3DC54D7 0 = .ok (.mafadd { e := true, g := 3, n := true, d := 21, a := 6, b := 23, m := 5 }) ∧
    decode 0x639C94D7 0 = .ok (.msadd { e := false, g := 3, n := true, d := 5, a := 6, b := 23, m := 1 }) ∧
    decode 0xE39D14D7 0 = .ok (.msmax { e := true, g := 3, n := true, d := 5, a := 6, b := 23, m := 1 }) := by
  repeat' (first | rfl | apply And.intro)

/-- R62: words packed by R45 from the table of the major opcode. -/
theorem test_decode_S_0 :
    decode 0x6B8054D7 0 = .ok (.mfs { e := false, g := 3, n := true, d := 21, a := 6, b := 23, m := 0 }) ∧
    decode 0xEB80D4D7 0 = .ok (.mts { e := true, g := 3, n := true, d := 21, a := 6, b := 23, m := 0 }) ∧
    decode 0x6B8100D7 0 = .ok (.trap { e := false, g := 3, n := true, d := 0, a := 6, b := 23, m := 0 }) ∧
    decode 0xEB81D4D7 0 = .ok (.wdset { e := true, g := 3, n := true, d := 21, a := 6, b := 23, m := 0 }) ∧
    decode 0x6B8254D7 0 = .ok (.tload { e := false, g := 3, n := true, d := 21, a := 6, b := 23, m := 0 }) ∧
    decode 0xEB82D4D7 0 = .ok (.sleep { e := true, g := 3, n := true, d := 21, a := 6, b := 23, m := 0 }) ∧
    decode 0x6B830000 0 = .ok (.bkpt { e := false, g := 3, n := true, d := 0, a := 0, b := 0, m := 0 }) ∧
    decode 0xEB83D4D7 0 = .ok (.yoke { e := true, g := 3, n := true, d := 21, a := 6, b := 23, m := 0 }) ∧
    decode 0x6B845400 0 = .ok (.unyoke { e := false, g := 3, n := true, d := 21, a := 0, b := 0, m := 0 }) ∧
    decode 0xEB84D4C0 0 = .ok (.aallot { e := true, g := 3, n := true, d := 21, a := 6, b := 0, m := 0 }) ∧
    decode 0x6B8554C0 0 = .ok (.vallot { e := false, g := 3, n := true, d := 21, a := 6, b := 0, m := 0 }) := by
  repeat' (first | rfl | apply And.intro)

/-- R63: words packed by R45 from the table of the major opcode. -/
theorem test_decode_L_A_0 :
    decode 0xF3C054D7 0 = .ok (.laadd { e := true, g := 3, n := true, d := 21, a := 6, b := 23, m := 1 }) ∧
    decode 0x73C0D4D7 0 = .ok (.laand { e := false, g := 3, n := true, d := 21, a := 6, b := 23, m := 1 }) ∧
    decode 0xF3C154D7 0 = .ok (.laor { e := true, g := 3, n := true, d := 21, a := 6, b := 23, m := 1 }) ∧
    decode 0x73C1D4D7 0 = .ok (.laxor { e := false, g := 3, n := true, d := 21, a := 6, b := 23, m := 1 }) ∧
    decode 0xF3C254D7 0 = .ok (.lamin { e := true, g := 3, n := true, d := 21, a := 6, b := 23, m := 1 }) ∧
    decode 0x73C2D4D7 0 = .ok (.lamax { e := false, g := 3, n := true, d := 21, a := 6, b := 23, m := 1 }) ∧
    decode 0xF3C354D7 0 = .ok (.laminn { e := true, g := 3, n := true, d := 21, a := 6, b := 23, m := 1 }) ∧
    decode 0x73C3D4D7 0 = .ok (.lamaxn { e := false, g := 3, n := true, d := 21, a := 6, b := 23, m := 1 }) ∧
    decode 0xF3C454D7 0 = .ok (.laswap { e := true, g := 3, n := true, d := 21, a := 6, b := 23, m := 1 }) ∧
    decode 0x73C4D4D7 0 = .ok (.lacas { e := false, g := 3, n := true, d := 21, a := 6, b := 23, m := 1 }) := by
  repeat' (first | rfl | apply And.intro)

/-- R64: words packed by R45 from the table of the major opcode. -/
theorem test_decode_L_0 :
    decode 0x7B8854C0 0xFEDCBA98 = .ok (.addiL { e := false, g := 3, n := true, d := 21, a := 6, b := 0, imm := 4275878552 }) ∧
    decode 0xFB88D4C0 0xFEDCBA98 = .ok (.andiL { e := true, g := 3, n := true, d := 21, a := 6, b := 0, imm := 4275878552 }) ∧
    decode 0x7B8954C0 0xFEDCBA98 = .ok (.oriL { e := false, g := 3, n := true, d := 21, a := 6, b := 0, imm := 4275878552 }) ∧
    decode 0xFB89D4C0 0xFEDCBA98 = .ok (.xoriL { e := true, g := 3, n := true, d := 21, a := 6, b := 0, imm := 4275878552 }) ∧
    decode 0x7B8A54C0 0x00000009 = .ok (.slliL { e := false, g := 3, n := true, d := 21, a := 6, b := 0, imm := 9 }) ∧
    decode 0xFB8AD4C0 0x00000009 = .ok (.srliL { e := true, g := 3, n := true, d := 21, a := 6, b := 0, imm := 9 }) ∧
    decode 0x7B8B54C0 0x00000009 = .ok (.sraiL { e := false, g := 3, n := true, d := 21, a := 6, b := 0, imm := 9 }) ∧
    decode 0xFB8B94C0 0xFEDCBA98 = .ok (.ceqiL { e := true, g := 3, n := true, d := 5, a := 6, b := 0, imm := 4275878552 }) ∧
    decode 0x7B8C14C0 0xFEDCBA98 = .ok (.cneiL { e := false, g := 3, n := true, d := 5, a := 6, b := 0, imm := 4275878552 }) ∧
    decode 0xFB8C94C0 0xFEDCBA98 = .ok (.cltiL { e := true, g := 3, n := true, d := 5, a := 6, b := 0, imm := 4275878552 }) ∧
    decode 0x7B8D14C0 0xFEDCBA98 = .ok (.cleiL { e := false, g := 3, n := true, d := 5, a := 6, b := 0, imm := 4275878552 }) ∧
    decode 0xFB8D94C0 0xFEDCBA98 = .ok (.cltniL { e := true, g := 3, n := true, d := 5, a := 6, b := 0, imm := 4275878552 }) ∧
    decode 0x7B8E14C0 0xFEDCBA98 = .ok (.cleniL { e := false, g := 3, n := true, d := 5, a := 6, b := 0, imm := 4275878552 }) ∧
    decode 0xFB8ED4C0 0xFEDCBA98 = .ok (.addwiL { e := true, g := 3, n := true, d := 21, a := 6, b := 0, imm := 4275878552 }) ∧
    decode 0x7B8F5400 0xFEDCBA98 = .ok (.moviL { e := false, g := 3, n := true, d := 21, a := 0, b := 0, imm := 4275878552 }) := by
  repeat' (first | rfl | apply And.intro)

/-- R64: words packed by R45 from the table of the major opcode. -/
theorem test_decode_L_1 :
    decode 0xFB8FD400 0xFEDCBA98 = .ok (.movhiL { e := true, g := 3, n := true, d := 21, a := 0, b := 0, imm := 4275878552 }) ∧
    decode 0x7BA054C0 0xFEDCBA98 = .ok (.ldbL { e := false, g := 3, n := true, d := 21, a := 6, b := 0, imm := 4275878552 }) ∧
    decode 0xFBA0D4C0 0xFEDCBA98 = .ok (.ldbnL { e := true, g := 3, n := true, d := 21, a := 6, b := 0, imm := 4275878552 }) ∧
    decode 0x7BA154C0 0xFEDCBA98 = .ok (.ldhL { e := false, g := 3, n := true, d := 21, a := 6, b := 0, imm := 4275878552 }) ∧
    decode 0xFBA1D4C0 0xFEDCBA98 = .ok (.ldhnL { e := true, g := 3, n := true, d := 21, a := 6, b := 0, imm := 4275878552 }) ∧
    decode 0x7BA254C0 0xFEDCBA98 = .ok (.ldwL { e := false, g := 3, n := true, d := 21, a := 6, b := 0, imm := 4275878552 }) ∧
    decode 0xFBA2D4C0 0xFEDCBA98 = .ok (.ldwnL { e := true, g := 3, n := true, d := 21, a := 6, b := 0, imm := 4275878552 }) ∧
    decode 0x7BA354C0 0xFEDCBA98 = .ok (.lddL { e := false, g := 3, n := true, d := 21, a := 6, b := 0, imm := 4275878552 }) ∧
    decode 0xFBA3D4C0 0xFEDCBA98 = .ok (.stbL { e := true, g := 3, n := true, d := 21, a := 6, b := 0, imm := 4275878552 }) ∧
    decode 0x7BA454C0 0xFEDCBA98 = .ok (.sthL { e := false, g := 3, n := true, d := 21, a := 6, b := 0, imm := 4275878552 }) ∧
    decode 0xFBA4D4C0 0xFEDCBA98 = .ok (.stwL { e := true, g := 3, n := true, d := 21, a := 6, b := 0, imm := 4275878552 }) ∧
    decode 0x7BA554C0 0xFEDCBA98 = .ok (.stdL { e := false, g := 3, n := true, d := 21, a := 6, b := 0, imm := 4275878552 }) ∧
    decode 0xFBA5D4C0 0xFEDCBA98 = .ok (.ldfL { e := true, g := 3, n := true, d := 21, a := 6, b := 0, imm := 4275878552 }) ∧
    decode 0x7BA654C0 0xFEDCBA98 = .ok (.ldfcL { e := false, g := 3, n := true, d := 21, a := 6, b := 0, imm := 4275878552 }) ∧
    decode 0xFBA6D4C0 0xFEDCBA98 = .ok (.stfL { e := true, g := 3, n := true, d := 21, a := 6, b := 0, imm := 4275878552 }) := by
  repeat' (first | rfl | apply And.intro)

/-- R64: words packed by R45 from the table of the major opcode. -/
theorem test_decode_L_2 :
    decode 0x7BA700C0 0xFEDCBA98 = .ok (.fclrL { e := false, g := 3, n := true, d := 0, a := 6, b := 0, imm := 4275878552 }) ∧
    decode 0xFBA780C0 0xFEDCBA98 = .ok (.fsetL { e := true, g := 3, n := true, d := 0, a := 6, b := 0, imm := 4275878552 }) ∧
    decode 0x7BC800D7 0xFEDCBA98 = .ok (.mcfgL { e := false, g := 3, n := true, d := 0, a := 6, b := 23, imm := 4275878552 }) ∧
    decode 0xFBD054D7 0xFEDCBA98 = .ok (.recvm { e := true, g := 3, n := true, d := 21, a := 6, b := 23, imm := 4275878552 }) ∧
    decode 0x7BD0D4D7 0xFEDCBA98 = .ok (.probem { e := false, g := 3, n := true, d := 21, a := 6, b := 23, imm := 4275878552 }) ∧
    decode 0xFBD154D7 0xFEDCBA98 = .ok (.recvmFe { e := true, g := 3, n := true, d := 21, a := 6, b := 23, imm := 4275878552 }) ∧
    decode 0xF8681400 0xFEDCBA98 = .ok (.blkh { e := true, g := 0, n := false, d := 5, a := 0, b := 0, imm := 4275878552 }) ∧
    decode 0x78688000 0xFEDCBA98 = .ok (.blkv { e := false, g := 0, n := false, d := 0, a := 0, b := 0, imm := 4275878552 }) := by
  repeat' (first | rfl | apply And.intro)

/-! ## States and operands that meet the hypotheses of the statements -/

theorem witness_AluAndCompareResults :
    let s := on { regs := { g := [(6, 5), (7, 64)] } }
    let x : R := { m := 0, d := 7, a := 6, b := 7 }
    GuardOn x.g x.n s ∧ maskedG s x.d = false ∧ x.m = 0 ∧ x.d < 8 := by decide

theorem witness_FieldMultiplyCountResults :
    let s := on { regs := { g := [(6, 5), (7, 0x803F)] } }
    let x : R := { m := 1, d := 31, a := 6, b := 7 }
    GuardOn x.g x.n s ∧ maskedG s x.d = false := by decide

theorem witness_ImmediateResults :
    let s := on {}
    (∀ x ∈ ([{ imm := -256 }, { imm := 255, d := 7 }, { imm := 63 }, { imm := 0 }] : List I),
      GuardOn x.g x.n s ∧ -256 ≤ x.imm ∧ x.imm < 256 ∧ maskedG s x.d = false ∧ x.d < 8) ∧
    (0 ≤ (63 : Int) ∧ (63 : Int) < 64) ∧
    (∀ x ∈ ([{ imm := -8192 }, { imm := 8191, d := 31 }] : List M),
      GuardOn x.g x.n s ∧ maskedG s x.d = false ∧ -8192 ≤ x.imm ∧ x.imm < 8192) ∧
    ∀ x ∈ ([{ imm := 2 ^ 32 - 1 }, { imm := 63, d := 7 }] : List L),
      GuardOn x.g x.n s ∧ x.imm < 2 ^ 32 ∧ maskedG s x.d = false ∧ x.d < 8 := by decide

theorem witness_BranchResults :
    let s (a : Nat) := on { bun := { addr := a }, regs := { g := [(1, 0x7FFF), (6, 0x7FFF), (7, 0x8000)] } }
    (∀ x ∈ ([{ off := 0 }] : List Br), GuardOn x.g x.n (s 0) ∧ 0 ≤ ((s 0).t.bun.addr : Int) + x.off ∧ maskedG (s 0) 1 = false) ∧
    ((s 0x7FFE).t.bun.addr : Int) + 1 = 0x7FFF ∧ ((s 0).t.bun.addr : Int) + -1 < 0 ∧ 0x7FFF < ((s 0x7FFF).t.bun.addr : Int) + 1 ∧
    rg (s 0) 0 = 0 ∧ rg (s 0) 6 ≠ 0 ∧ (rg (s 0) 6).toNat ≤ 0x7FFF ∧ 0x7FFF < (rg (s 0) 7).toNat ∧ (rg (s 0) 1).toNat ≤ 0x7FFF ∧
    0x7FFF < (rg (on { regs := { g := [(1, 0x8000)] } }) 1).toNat ∧ ¬GuardOn 1 false (s 0) := by decide

theorem witness_LoopResults :
    let s := on { bun := { addr := 4, len := 1 }, regs := { g := [(6, 3)] }, imem := [(5, 0x80000000)] }
    let e (x : Bg) : Int := (s.t.bun.addr : Int) + x.off
    e { off := 0 } < (s.t.bun.addr + s.t.bun.len : Nat) ∧ (s.t.bun.addr + s.t.bun.len : Nat) ≤ e { off := 1 } ∧ e { off := 0x7FFB } = 0x7FFF ∧
    GuardOn 0 false s ∧ s.t.bun.blk = none ∧ rg s 6 ≠ 0 ∧ rg s 0 = 0 ∧
    fetchBad { s.t with coden := 8 } (e { off := 1 }).toNat = false ∧
    s.t.bun.allot = none ∧ s.t.bun.fin = none ∧ s.t.dbg.stepping = false := by decide

/-- The end of a loop's body, its last pass and one before. -/
theorem witness_LoopResults_end :
    let s (n : Nat) := on { bun := { addr := 4 }, sys := { lcount := BitVec.ofNat 64 n, lend := 4, lstart := 2 } }
    (∀ n ∈ [1, 2], (s n).t.sys.lcount ≠ 0 ∧ (s n).t.bun.addr = (s n).t.sys.lend.toNat ∧ (s n).t.bun.taken = false ∧
      (s n).t.bun.allot = none ∧ (s n).t.bun.fin = none) ∧ (s 1).t.sys.lcount = 1 ∧ (s 0).t.sys.lcount = 0 := by decide

/-- R129: the last byte of the SRAM windows. -/
theorem witness_ScalarMemoryResults :
    let s := on { regs := { g := [(6, 0x1FFFFF), (7, 0x1FFFF8)] } }
    let x : I := { d := 5, a := 6 }
    GuardOn x.g x.n s ∧ maskedG s x.d = false ∧ LoadOk s ((rg s 6).toNat + x.imm) 1 false ∧ StoreOk s ((rg s 6).toNat + x.imm) 1 false ∧
    LoadOk s (rg s 7).toNat 8 false ∧ LoadOk s (rg s 7).toNat 4 true ∧ LoadOk s (rg s 7).toNat 2 false ∧
    StoreOk s (rg s 7).toNat 8 false ∧ StoreOk s (rg s 7).toNat 4 true ∧ StoreOk s (rg s 7).toNat 2 false ∧
    s.t.bun.blk = none ∧ bits 0x1FFFF8 31 28 = 0 ∧ wFmt (wdOf s.t (bits 0x1FFFF8 27 24)) = 0 ∧ sext 0x1FFFF8 32 = 0x1FFFF8 := by decide

/-- R129: a store to the control space (R26): a task slot's last word. -/
theorem witness_ScalarMemoryResults_control :
    let s := on { sys := { fw := true } }
    StoreOk s 0x10001000 8 false ∧ bits 0x10001000 31 28 = 1 := by decide

theorem witness_FullBitResults :
    let s (f : NSet) := on { full := f, regs := { g := [(6, 0x1FFFE0)] } }
    Pass (scalarChecks (s []) 0x1FFFE0 8 false false true) ∧ Pass (scalarChecks (s []) 0x1FFFE0 8 false true true) ∧ Pass (fullBitChecks (s []) 0x1FFFE0) ∧
    bits 0x1FFFE0 31 28 = 0 ∧ fullLoc (s []) (s []).cur 65535 = false ∧ fullLoc (s [(65535, true)]) 0 65535 = true ∧
    (s []).t.poisoned (bits 0x1FFFE0 20 0) 8 = false ∧ maskedG (s []) 31 = false ∧ (s []).t.bun.blk = none ∧ GuardOn 0 false (s []) := by decide

theorem witness_LocalAtomicResults :
    let s := on { regs := { g := [(6, 0x1FFFF8)] } }
    let x : R := { m := 1, d := 0, a := 6, b := 7 }
    let ta := (rg s x.a).toNat
    GuardOn x.g x.n s ∧ s.t.bun.blk = none ∧ x.m < 2 ∧ maskedG s x.d = false ∧ ta < 2 ^ 32 ∧ bits ta 31 28 = 0 ∧ bits ta 23 21 = 0 ∧
    wFmt (wdOf s.t (bits ta 27 24)) = 0 ∧ bits ta 20 0 + 8 ≤ 0x200000 ∧ ta % 8 = 0 ∧ s.t.poisoned (bits ta 20 0) 8 = false := by decide

/-! ## The vector unit -/

theorem witness_VectorIntegerResults :
    let s := on {}
    ∀ t ∈ [3, 7], let x : V := { t := t, d := 7 }; x.t < 8 ∧ isF x.t = false ∧ maskedV s x.d = false := by decide

theorem witness_VectorFloatResults :
    let s := on {}
    (∀ t ∈ [0, 2], let x : V := { t := t, d := 7 }; isF x.t = true ∧ maskedV s x.d = false) ∧
    (∀ f ∈ [f32, f16, bf16], 2 ^ (f.m + f.e + 1) - 1 < 2 ^ (f.m + f.e + 1)) ∧
    (f32.unpack 0x3F800000 = .fin false 1 0 ∨ ∃ m e, f32.unpack 0x3F800000 = .fin false m e ∧ m ≠ 0) ∧
    (∃ n, f16.unpack 0xFC00 = .inf n) ∧ ∃ g, bf16.unpack 0xFFFF = .nan g := by
  refine ⟨by decide, by decide, .inr ⟨_, _, rfl, by decide⟩, ⟨_, rfl⟩, ⟨_, rfl⟩⟩

theorem witness_VectorLaneResults :
    let s := on {}
    let x : V := { t := 6, d := 6 }
    maskedV s x.d = false ∧ maskedG s x.d = false ∧ maskedV s (x.d + 1) = false ∧ x.d % 2 = 0 ∧ (x.t = 3 ∨ x.t = 4 ∨ x.t = 6) := by decide

/-- R120: a table of zeros fails VENC's test only where its order is not strict; with all codes 0x80000000 but two it passes. -/
theorem witness_ReductionAndCodeResults :
    let s := on {}
    maskedV s 7 = false ∧ isF 0 = true ∧ isF 2 = true ∧ tableOk (preSys s.t) 3 false = false := by decide

theorem witness_MaskResults :
    let s := on {}
    (7 : Nat) < 8 ∧ maskedG s 31 = false ∧ lane s 0 15 = true := by decide

/-- R132: lanes 0 and 15 of a load that ends with the SRAM. -/
theorem witness_VectorLoadResults :
    let s := on { regs := { g := [(6, 0x1FFFC0), (7, 4)] } }
    let w := winFor s 0x1FFFC0
    maskedV s 7 = false ∧ Pass (vecChecks s w 0x1FFFC0 (elsSeq s 0 w 0x1FFFC0) false false true false) ∧
    Pass (vecChecks s w 0x1FFFC0 (elsBcast s 0 0x1FFFC0) false false true true) ∧
    Pass (vecChecks s w 0x1FFFC0 (elsStride s 0 w 0x1FFFC0 4) false false true false) ∧
    Pass (vecChecks s w 0x1FFFC0 (elsIndex s 0 0x1FFFC0 3) (fmtScaled (wFmt w)) false true false) ∧
    Pass (vecChecks s w 0x1FFFC0 (elsSeq s 0 w 0x1FFFC0) false true false false) ∧
    [65534, 65535].all (fullLoc s s.cur) = false := by decide

theorem witness_VectorLoadResults_raw :
    let s := on {}
    let base : Int := 0x1FFFC0
    s.t.bun.blk = none ∧ 0 ≤ base ∧ base < 2 ^ 32 ∧ bits base.toNat 31 28 = 0 ∧ bits base.toNat 23 21 = 0 ∧
    wFmt (wdOf s.t (bits base.toNat 27 24)) = 0 ∧
    ∀ k, k < 16 → lane s 0 k = true → 0 ≤ base + 4 * (k : Int) ∧ (base + 4 * (k : Int)).toNat / 2 ^ 21 = base.toNat / 2 ^ 21 ∧
      (base + 4 * (k : Int)).toNat % 4 = 0 ∧ s.t.poisoned (bits (base + 4 * (k : Int)).toNat 20 0) 4 = false := by decide

theorem witness_VectorStoreAndSpillResults :
    let s := on { regs := { g := [(6, 0x1FFC00), (7, 64), (8, 255), (9, 256)] }, spill := [(255, spFree (on {}).t)] }
    let x : V := { d := 0, a := 6, b := 7 }
    let w := winFor s 0x1FFC00
    s.t.bun.blk = none ∧ Pass (tableCheck s w 0x1FFC00 :: vecChecks s w 0x1FFC00 (elsSeq s 0 w 0x1FFC00) false false false false) ∧
    Pass (rowChecks s x false) ∧ Pass (rowChecks s x true) ∧ (∀ j, j < 16 → maskedV s (x.d + j) = false) ∧
    (rg s 8).toNat ≤ 255 ∧ 255 < (rg s 9).toNat ∧ spValid (FMap.get 0 s.t.spill 255) = true ∧ spValid (FMap.get 0 s.t.spill 0) = false := by decide

/-! ## Traps and system registers -/

theorem witness_RaisingATrap :
    (on {}).t.bun.coll = false ∧ (on {}).t.bun.blk = none ∧ (on { bun := { coll := true } }).t.bun.coll = true ∧
    (∃ x, firstTrap [(false, tr 1), (true, tr 6), (true, tr 5)] = some x ∧ x.cause = 5) := by
  refine ⟨by decide, by decide, by decide, ⟨_, rfl, rfl⟩⟩

theorem witness_TakingATrap : ((on {}).tile 0).yk.st = .single ∧ GuardOn 0 false (on {}) ∧ Alone (on {}) ∧ ¬GuardOn 1 false (on {}) := by decide

theorem witness_MfsResults :
    let s := on {}
    sysAssigned 0x1FF = true ∧ sysReadPriv 0x1FF = false ∧ sysAssigned 0x200 = false ∧ GuardOn 0 false s ∧ maskedG s 31 = false ∧
    ∃ n, n < 1024 ∧ sysAssigned n = true ∧ sysReadPriv n = true := by
  refine ⟨by decide, by decide, by decide, by decide, by decide, ?_⟩
  exact ⟨0x67, by decide⟩

/-- R28: a register at each end of the limits; a user task's other registers; a window that overlaps nothing and one with reserved bits. -/
theorem witness_MtsResults :
    let s := on {}
    let f := on { sys := { fw := true } }
    (∀ n ∈ [8, 9, 0x11, 0x1F, 0x40, 0x42, 0x50, 0x53, 0xA0, 0x20], sysAssigned n = true ∧ sysLimit s.t n 0 = false ∧ sysWritePriv n = false) ∧
    (∀ n ∈ [0x30, 0x31, 0x32, 0x33, 0x34, 0x1FF], sysAssigned n = true ∧ sysLimit f.t n 0x4000 = false ∧ (sysWritePriv n && !f.t.sys.fw) = false) ∧
    sysLimit s.t 0x50 4096 = false ∧ sysLimit s.t 0x50 4100 = true ∧ sysLimit s.t 0x41 0x7FFF = false ∧ sysLimit s.t 0x41 0x8000 = true ∧
    (sysWritePriv 0x30 && !s.t.sys.fw) = true ∧ sysLimit s.t 0x30 0x1F0000 = false ∧ wdOk 0 = true ∧ wdOk 10 = false ∧
    s.t.bun.raised = 0 ∧ GuardOn 0 false s ∧ 0xFFF8 % 8 = 0 ∧ 0xFFF8 < 2 ^ 16 ∧ bits 0x1500 12 8 ≤ 21 := by decide

theorem witness_AllotAndTableResults :
    let s (g : FMap W64) := on { regs := { g := g } }
    GuardOn 0 false (s []) ∧ maskedG (s []) 31 = false ∧ Alone (s []) ∧
    wokenVal (on { woken := [(0, 5)] }) = some 5 ∧ wokenVal (s []) = none ∧ (rg (s []) 6).toNat ≤ (s []).gtime ∧ rg (s []) 6 ≠ BitVec.allOnes 64 ∧
    (s []).gtime < (rg (s [(6, 1)]) 6).toNat ∧ rg (s [(6, 0xFFFFFFFFFFFFFFFF)]) 6 = BitVec.allOnes 64 ∧
    queueNames (s []).t (Nat.min 16 (s []).t.sys.aa) (Nat.max 16 (s []).t.sys.aa) = false ∧
    (let q := on { sys := { aa := 1 }, mx := { queue := [{ c := 0 }] } }
     queueNames q.t (Nat.min 0 q.t.sys.aa) (Nat.max 0 q.t.sys.aa) = true ∧ Alone q) ∧
    (rg (s [(6, 17)]) 6).toNat = 17 ∧ wdOk 0 = true ∧ wdOk 10 = false ∧
    tloadBad 3 = false ∧ Pass (win0Checks (s [(6, 0x1FF000)]) 0x1FF000 1024 4 true) ∧ Pass (win0Checks (s []) 0x1FFFC0 64 4 true) ∧
    queueTable (s []).t 3 = false ∧ tloadBad 4 = false := by decide

theorem witness_AllotAndTableResults_busy : queueTable (on { mx := { queue := [{ op := 1, wa := 0x31 }] } }).t 3 = true := by decide

theorem witness_TaskInstructionResults :
    let img : Mem := [(0, 1), (4, 1)]
    let s := on { sram := img, regs := { g := [(6, 63), (7, 64), (8, 0x7FFF), (9, 0x8000)] },
                  task := { slots := [(63, { bound := true })] } }
    GuardOn 0 false s ∧ maskedG s 31 = false ∧ (rg s 6).toNat < 64 ∧ 64 ≤ (rg s 7).toNat ∧
    Pass (win0Checks s 0 24 8 true) ∧ imageOk s.t.task (Mem.le (preSram s.t) 0 8) (Mem.le (preSram s.t) 8 8) = true ∧
    bits 1023 7 6 = 3 ∧ bits 0x33F 7 6 = 0 ∧ 0x33F < 1024 ∧ (FMap.get {} s.t.task.slots 0).bound = false ∧
    (FMap.get {} s.t.task.slots 63).bound = true ∧ freeKey s.t.task.recs 128 = some 0 ∧ Alone s ∧ (rg s 8).toNat ≤ 0x7FFF ∧
    0x7FFF < (rg s 9).toNat := by decide

/-- All 128 records in use. -/
theorem witness_TaskInstructionResults_full : freeKey ((List.range 128).map fun k => (k, ({} : Rec))) 128 = none := by decide

theorem witness_TaskInstructionResults_counters :
    let k : Task := { ctrs := [(0, { count := 2 }), (1, { count := 1 }), (2, { count := 1, pending := true })], slots := [(1, { bound := true })] }
    2 ≤ (FMap.get {} k.ctrs 0).count ∧ (FMap.get {} k.ctrs 63).count = 0 ∧ (FMap.get {} k.ctrs 1).count = 1 ∧
    (FMap.get {} k.ctrs 1).pending = false ∧ (FMap.get {} k.ctrs 2).pending = true ∧ (FMap.get {} k.slots 1).bound = true ∧
    (FMap.get {} k.slots 2).bound = false ∧ freeKey k.recs 128 = some 0 := by decide

theorem witness_DispatchStartsTask :
    let s := on { life := .idle, resident := true, task := { recs := [(3, { entry := 8, slot := 2, prio := 1 })] } }
    canDispatch (s.tile 0) = true ∧
    chooseRec (s.tile 0).task.dc (s.tile 0).task.seq ((s.tile 0).task.recs.filter fun e => !e.2.hold && !e.2.run)
      = some (3, { entry := 8, slot := 2, prio := 1 }) := by decide

theorem witness_TileLifeEvents :
    (on {}).t.life = .off ∧ (on { life := .reset }).t.life = .reset ∧ mayGate (on { life := .idle }).t = true ∧
    FMap.get [] (on {}).fab.trace (0 / 16) = [] ∧
    (let s : State := { on { life := .idle, pend := { gate := true } } with fab := { trace := [(0, [[1]])] }, now := 20000 }
     mayGate s.t = true ∧ FMap.get [] s.fab.trace (0 / 16) ≠ [] ∧ s.t.pend.gate = true ∧ s.t.pend.gateSince + 20000 ≤ s.now) ∧
    (on { life := .idle }).t.pend.gate = false ∧
    (let s := on { life := .running, imemBad := [(4, true)], task := { recs := [(0, { hold := true, imem := true })] } }
     s.t.life ≠ .off ∧ s.t.life ≠ .faulted ∧ s.t.life = .running ∧ s.t.task.run.budget * 1024 ≤ ranCycles s s.t ∧ s.t.async = [] ∧
     s.t.imemBad ≠ [] ∧ (s.t.task.recs.any fun e => e.2.hold && e.2.imem) = true ∧
     (s.t.imemBad.map fun e => e.1).all (repairable s s.t) = false) := by decide

/-- An image whose CODEN is not 0: its first block can be repaired (R27). -/
theorem witness_TileLifeEvents_repair :
    let img : List Byte := List.replicate 64 1
    let s : State := { on { life := .running, imemBad := [(0, true)], coden := 1, kernel := some 1,
                            task := { recs := [(0, { hold := true, imem := true })] } } with pump := { kernels := [(1, { img := img })] } }
    (s.t.imemBad.map fun e => e.1).all (repairable s s.t) = true := by decide

theorem witness_TileLifeEvents_pager :
    let s (c : Nat) : State :=
      { on { resident := true, sys := { cid := 1 }, task := { recs := [(0, { hold := true, trapc := c })] } } with
        ctxs := [(1, { inbox := [(0, [0, 0, 0, 0, 0, 0, 0, 0])] })] }
    pagerEntry (s cBudget) 0 0 0 ≠ none ∧ heldRec (s cBudget).t 0 0 = some { hold := true, trapc := cBudget } ∧
    mayRestart (s cBudget) (s cBudget).t { hold := true, trapc := cBudget } = true ∧
    mayRestart (s cAlign) (s cAlign).t { hold := true, trapc := cAlign } = false ∧ debugCause cAlign = false ∧ cAlign ≠ cEccLocal ∧
    (s cAlign).t.resident = true ∧
    (let o : State := { on { sys := { cid := 1 } } with ctxs := [(1, { inbox := [(0, [0, 0, 0, 0, 0, 0, 0xFFFFFFFF, 0])] })] }
     pagerEntry o 0 0xFFFFFFFF 0 ≠ none ∧ heldRec o.t 0xFFFFFFFF 0 = none) := by decide

/-! ## The matrix unit -/

theorem witness_MatrixIssueResults :
    let s := on { regs := { g := [(6, 0x1000000), (7, 0x1080000), (8, 0x1FE000)] },
                  sys := { aa := 16, wd := [(1, 1)], kdim := 4, msa := 64, msb := 64, msd := 128 } }
    GuardOn 0 false s ∧ Pass (mmaChecks s 0 { c := 15, a := 6, b := 7 }) ∧ Pass (mmaChecks s 1 { c := 15, a := 6, b := 7 }) ∧
    Pass (rawChecks s false { a := 8 }) ∧ Pass (rawChecks s true { a := 0 }) ∧ Pass (mdrnChecks s { a := 0 }) ∧ Pass (srcRowChecks s { a := 8 }) ∧
    (rg s 6).toNat < 2 ^ 38 ∧ s.t.mx.queue.length < 16 ∧ (preSys s.t).kdim.toNat ≠ 0 := by decide

theorem witness_MatrixIssueResults_full : 16 ≤ (on { mx := { queue := List.replicate 16 {} } }).t.mx.queue.length := by decide

theorem witness_MatrixControlResults :
    let s := on { regs := { g := [(6, 4096), (7, 0x1FFFFF), (8, 0xFF), (9, 0x80)] } }
    let q := on { mx := { queue := [{ c := 3, job := 0 }] }, regs := { g := [(9, 0x80)] } }
    let a := (rg s 6).toNat
    let b := (rg s 7).toNat
    GuardOn 0 false s ∧ bits a 31 13 = 0 ∧ bits a 63 53 = 0 ∧ bits b 31 21 = 0 ∧ bits b 63 53 = 0 ∧ bits a 12 0 ≤ 4096 ∧ bits a 12 0 % 4 = 0 ∧
    (rg s 7).toNat < 2 ^ 21 ∧ maskedG s 31 = false ∧ accBusy s.t 3 = false ∧ accBusy q.t 3 = true ∧ s.t.mx.queue = [] ∧ q.t.mx.queue ≠ [] ∧
    (rg s 8).toNat < 256 ∧ bit 0x80 6 = false ∧ bit 0x80 7 = true ∧ jobBusy s.t s.t.mx.job = false ∧ jobBusy q.t q.t.mx.job = true ∧
    bit 0 7 = false := by decide

theorem witness_MatrixControlResults_waits :
    let ends (w : Wait) (t : Tile) (f : Wait → Bool) := ((on { t with wait := [(0, w)] }).t.wait.any fun e => f e.2) = true
    ends (.mwait none) {} (fun w => match w with | .mwait none => true | _ => false) ∧
    ends (.mrdf 3) {} (fun w => match w with | .mrdf c => !accBusy {} c | _ => false) ∧
    ends .mqueue {} (fun w => match w with | .mqueue => decide (({} : Tile).mx.queue.length < 16) | _ => false) ∧
    ends (.allot 0 16) {} (fun w => match w with | .allot lo hi => !queueNames {} lo hi | _ => false) ∧
    ends (.tload 3) {} (fun w => match w with | .tload n => !queueTable {} n | _ => false) ∧
    ends (.full []) {} (fun w => match w with | .full l => l.all (NSet.mem []) | _ => false) ∧
    (0 ≤ (on {}).gtime ∧ 0 ≠ 2 ^ 64 - 1) ∧
    findIdx (fun j : Nat × Bool × Nat => !jobBusy {} j.1) [(0, true, 63)] 0 = some (0, (0, true, 63)) := by decide

theorem witness_MatrixCompletions :
    (∀ p ∈ [(1, [1, 2]), (2, [1, 2]), (3, [3]), (4, [4]), (7, [7]), (8, [8]), (9, [9]), (11, [11]), (5, [5]), (6, [6])],
      let s := on { life := .running, mx := { queue := [{ op := p.1, c := 15 }] } }
      (s.tile 0).mx.queue.head? = some { op := p.1, c := 15 } ∧ p.1 ∈ p.2 ∧ engLive (s.tile 0) = true) ∧
    (let m : MCmd := { op := 2, wa := 1, wb := 1, kdim := 4 }
     ∀ n, n ≤ m.kdim / 4 → (0 : Int) ≤ 2 ^ 31) := by decide

/-! ## Groups and messages -/

theorem witness_GroupResults :
    let s := on (peer {})
    maskedG s 31 = false ∧ GuardOn 0 false s ∧ (decide (0 ≤ 255) && NSet.mem s.t.comm.bound 0) = false ∧
    (let n := on { comm := { bound := [(255, true)] } }
     (decide (255 ≤ 255) && NSet.mem n.t.comm.bound 255) = true ∧ memberOf n.t 255 = none) ∧
    memberOf s.t 1 = some (0, { grp := 1, rank := 0, desc := quad }) ∧ quad.size ≤ 4 ∧ 3 < quad.size ∧ quad.kind = 1 ∧
    wokenVal (on { woken := [(0, 2 ^ 32 - 1)] }) = some (2 ^ 32 - 1) ∧ (affine 0 0x100000002 3).2 = true := by decide

theorem witness_GroupResults_listed :
    let d : Group := { kind := 2, size := 4, listva := 0x20 }
    let s : State := { space 0x2F { st := .residentRunning } with
      tiles := [(0, { sys := { cid := 1 }, comm := { slots := [(0, { grp := 1, desc := d })] }, wait := [(0, .gplace 1 3)] })] }
    memberOf (s.tile 0) 1 = some (0, { grp := 1, desc := d }) ∧ d.kind = 2 ∧ 3 < d.size ∧ d.listva % 4 = 0 ∧ resolve s 0 1 3 = none ∧
    wantsRank s 0 1 3 = true ∧ (∃ l, vread s 1 ((d.listva + 4 * 3) / 32 * 32) 32 true false false = .ok l) := by
  refine ⟨by decide, by decide, by decide, by decide, by decide, by decide, ⟨_, rfl⟩⟩

theorem witness_GroupResults_resolved :
    let s : State := on (peer { wait := [(0, .gplace 1 3)] })
    (s.tile 0).wait = [(0, .gplace 1 3)] ∧ resolve s 0 1 3 = some 3 := by decide

theorem witness_MessageResults :
    let ew := 0x100003
    let bw := 0x000008_001FFFF8
    let s := on (peer { regs := { g := [(6, BitVec.ofNat 64 bw), (7, BitVec.ofNat 64 ew)] }, sys := { fw := true } })
    GuardOn 0 false s ∧ maskedG s 31 = false ∧ maskedG s 6 = false ∧ Pass (bwChecks bw) ∧ ewBad s.t ew true false = false ∧
    ewBad s.t ew false false = false ∧ ewBad s.t 0x1FFFFF true false = false ∧ ewBad s.t 0x100004 false false = true ∧
    matchUnexp s.t ew 0xFFFFFFFF = none ∧ entryOf s.t 0 = none ∧ s.t.sys.fw = true ∧ (on (peer {})).t.sys.fw = false ∧
    freeRecvs s.t ≠ [] ∧ freeSend s.t = some 0 ∧ s.t.task.run.exposed = false ∧ bwLen bw ≠ 0 := by decide

/-- A waiting message of each kind, and receives in their states. -/
theorem witness_MessageResults_waiting :
    (∀ st ∈ [1, 2], let s := on (peer { net := { unexp := [(5, { ew := 0x100003, length := 8, state := st })] } })
      matchUnexp s.t 0x100003 0xFFFFFFFF = some (5, { ew := 0x100003, length := 8, state := st }) ∧ Nat.min 8 (bwLen (8 * 2 ^ 32)) ≠ 0) ∧
    (∀ st ∈ [0, 1, 3, 4, 6], let s := on (peer { net := { recvs := [(9, { state := st, gen := 255 })] } })
      entryOf s.t (255 * 256 + 9) = some (9, { state := st, gen := 255 })) := by decide

set_option maxRecDepth 20000 in
/-- No posted-receive entry free, no send descriptor free (R185, R202). -/
theorem witness_MessageResults_full :
    freeSend { net := { sends := (List.range 64).map fun k => (k, {}) } } = none ∧
    freeRecvs { net := { recvs := (List.range 256).map fun k => (k, { state := 0 }) } } = [] := by
  constructor
  · decide
  · rfl

/-- The arrivals at tile 0, each from place 1, for the descriptor or the entry it names. -/
theorem witness_MessageEvents :
    let m (k : MKind) : Msg := { kind := k, cid := 1, src := 1, dst := 0, grp := 1, srank := 1, len := 8, payload := List.replicate 8 1 }
    let at_ (t : Tile) (k : MKind) (a : Nat) : Prop := arrival (netted t [{ m k with acc := a }]) 0 (· == k) = some (0, { m k with acc := a })
    let snd (st : Nat) : Tile := { net := { sends := [(0, { state := st, bw := 256 * 2 ^ 32 })] } }
    at_ (snd 3) .eack 0 ∧ at_ (snd 4) .dack 0 ∧ at_ (snd 3) .rack 0 ∧ at_ (snd 3) .cts 0 ∧ at_ (snd 3) .cts 256 ∧ at_ (snd 3) .poolFull 0 ∧
    at_ {} .eager 0 ∧ at_ {} .rts 0 ∧ (m .eager).resume = false ∧ (m .eager).replay = 0 ∧
    (m .eager).wrote = [] ∧ arrival (netted {} [{ m .eager with wrote := [(0, false)] }]) 0 (· == .eager) = some (0, { m .eager with wrote := [(0, false)] }) ∧
    FMap.get 0 (peer {}).net.refusal 1 = 0 ∧ (peer {}).net.overflow = 0 ∧
    matchRecv (peer {}) (msgEw (m .eager)) = none ∧ freeKey (peer {}).net.unexp 128 = some 0 ∧
    matchRecv (peer { net := { recvs := [(3, { state := 0, ew := 0x1FFFFF, bw := 8 * 2 ^ 32 })] } }) (msgEw (m .rts))
      = some (3, { state := 0, ew := 0x1FFFFF, bw := 8 * 2 ^ 32 }) ∧ Nat.min 8 (bwLen (8 * 2 ^ 32)) ≠ 0 := by decide

set_option maxRecDepth 20000 in
theorem witness_MessageEvents_cells : cellsFor 8 ≤ (freeCells (peer {})).length := by decide

/-- Refusals (R194), and one part of a longer message's data (R196). -/
theorem witness_MessageEvents_data :
    hasRoom (peer { net := { unexp := (List.range 128).map fun k => (k, {}) } }) { kind := .eager, len := 8 } = false ∧
    (let r : Recv := { state := 2, bw := 64 * 2 ^ 32, length := 64, gen := 1 }
     let t := peer { net := { recvs := [(3, r)] } }
     let m : Msg := { kind := .data, cid := 1, src := 1, dst := 0, handle := 259, off := 32, payload := List.replicate 32 1 }
     arrival (netted { net := { recvs := [(3, r)] } } [m]) 0 (· == .data) = some (0, m) ∧ entryOf t m.handle = some (3, r) ∧ r.held = [] ∧
     sectorsOf (bwOff r.bw + m.off) m.payload.length = [1] ∧ blockPart 32 r 1 = (m.off, m.payload.length) ∧ m.wrote = [] ∧ r.src < 2 ^ 32 ∧
     m.off + m.payload.length ≤ bwLen r.bw ∧ r.done + m.payload.length < Nat.min r.length (bwLen r.bw)) := by decide

theorem witness_MessageEvents_send :
    let t (st : Nat) : Tile := peer { net := { sends := [(0, { state := st, res := true, dest := 1, ew := 0x100001, resume := true })], outq := [.send 0] } }
    Machine.sends (t 2) = true ∧ (t 2).net.outq.contains (.send 0) = true ∧ fenceHolds (t 2) 0 = false ∧ bfenceHolds (t 2) 0 = false ∧
    NSet.mem (t 2).net.blocked 1 = false ∧ sendBefore (t 2) 0 1 = false ∧ (FMap.get ({} : Send) (t 5).net.sends 0).state = 5 ∧
    (FMap.get ({} : Send) (t 5).net.sends 0).resume = true ∧ (FMap.get ({} : Send) (t 5).net.sends 0).retry ≤ (on (t 5)).gtime ∧
    bit (2 ^ 31) 31 = true ∧ (FMap.get ({} : Unexp) [(0, { state := 3 })] 0).state = 3 ∧ (FMap.get ({} : Unexp) [(0, { state := 3 })] 0).wrote = [] ∧
    (FMap.get ({} : Send) (peer { net := { sends := [(0, { state := 3, dest := 0x80000180 })] } }).net.sends 0).resume = false ∧ ueRef 0x80000180 = true ∧ recvOver (t 2) 7 = true := by decide

theorem witness_MessageEvents_park :
    let m : Msg := { kind := .eager, cid := 1, src := 1, dst := 0 }
    let s (u : Nat) : State := { ctxs := [(1, { st := .savedStored, overflowUnits := u })], fab := { net := [m] } }
    let r (u : Nat) : State := { s u with fab := { pkts := [{ place := 0, cid := 1, st := .answered, len := 8 }] } }
    parkable (s 1) 0 = some (.msg m) ∧ parkRoom ((s 1).ctx 1) (.msg m) = true ∧ parkable (s 0) 0 = some (.msg m) ∧
    parkRoom ((s 0).ctx 1) (.msg m) = false ∧
    parkable (r 1) 0 = some (.reply { place := 0, cid := 1, st := .answered, len := 8 }) ∧
    parkRoom ((r 1).ctx 1) (.reply { place := 0, cid := 1, st := .answered, len := 8 }) = true ∧
    ((s 0).ctx 1).overflowUnits < ((s 0).ctx 1).ovfsize ∧ 0 < (s 0).fab.net.length ∧
    0 < ({ s 0 with svc := { units := 1 } } : State).svc.units ∧ parkable { s 0 with svc := { units := 0 } } 0 = some (.msg m) ∧
    ((s 0).fab.net.length ≤ 1 ∧ parkable { r 1 with fab := { (s 0).fab with pkts := (r 1).fab.pkts } } 1 =
      some (.reply { place := 0, cid := 1, st := .answered, len := 8 })) := by decide

/-! ## Barriers and collectives -/

theorem witness_BarrierResults :
    let s (r : BarRec) := on (peer { comm := { bars := [(15, r)] }, regs := { g := [(6, 0xF01)] } })
    let a : W64 := 0xF01
    GuardOn 0 false (s {}) ∧ maskedG (s {}) 31 = false ∧ Pass (barChecks (s {}) a) ∧ barKeyOf (s {}).t a = 15 ∧ a.toNat < 4096 ∧
    groupBad (s {}).t (barGrp 0xF02) = true ∧ groupNb (on {}).t 1 ≤ barNum a ∧ (barRec (s { status := 1 }).t 15).status ≠ 0 ∧
    (barRec (s { arrived := 1 }).t 15).arrived ≠ 0 ∧ (barRec (s {}).t 15).status = 0 ∧ (barRec (s {}).t 15).gen = 2 ^ 32 % 2 ^ 32 ∧
    (barRec (s { gen := 5 }).t 15).gen ≠ 4 % 2 ^ 32 ∧ Pass (bindChecks 0x1FFFF8) ∧ Pass (bindChecks 0) := by decide

/-- The cluster switch of places 0 to 3: an arrival there that is the last, one that is not, and a cancel. -/
theorem witness_BarrierResults_switch :
    let m (k : MKind) : Msg := { kind := k, cid := 1, grp := 1, num := 15, src := 0, dst := 0 }
    let s (c : Nat) (k : MKind) : State :=
      { netted {} [m k] with fab := { net := [m k], comb := [(combKey 1 1 15 0, { exp := 4, c0 := c })] } }
    (combEnt (s 3 .arrive) 1 1 15 0).exp ≠ 0 ∧ (combEnt (s 3 .arrive) 1 1 15 0).cancelled = false ∧
    atSwitch (s 3 .arrive) 0 (· == .arrive) = some (m .arrive) ∧ (combEnt (s 3 .arrive) 1 1 15 0).c0 + 1 = 4 ∧
    (combEnt (s 0 .arrive) 1 1 15 0).c0 + 1 ≠ 4 ∧ groupRoot (s 3 .arrive) (ctxGroup (s 3 .arrive) 1 1) = 0 ∧
    atSwitch (s 0 .cancel) 0 (· == .cancel) = some (m .cancel) := by decide

theorem witness_BarrierResults_release :
    let m : Msg := { kind := .release, cid := 1, grp := 1, num := 15, dst := 0 }
    let s := netted { wait := [(0, .bwait 15 1)] } [m]
    arrival s 0 (· == .release) = some (0, m) ∧ memberOf (s.tile 0) 1 = some (0, { grp := 1, rank := 0, desc := quad }) ∧ m.num < quad.nb ∧
    ((s.tile 0).wait.any fun e => (match e.2 with
      | .bwait k gen => (barRec (s.tile 0) k).gen != gen || (barRec (s.tile 0) k).status != 0
      | _ => false)) = true := by decide

/-- CRED of one word on group 1, its status word at 8 (R334). -/
theorem witness_CollectiveResults :
    let d : Mem := [(2, 1), (3, 63), (4, 1), (12, 0x20), (25, 1)]
    let s := on (peer { sram := d })
    let w (k : Nat) : Nat := descWord s 0 k
    GuardOn 0 false s ∧ maskedG s 31 = false ∧ memberOf s.t (bits (w 0) 23 16) = some (0, { grp := 1, rank := 0, desc := quad }) ∧
    Pass (win0Checks s 0 32 32 true) ∧
    (groupBad s.t (bits (w 0) 23 16) || !quad.coll || quad.ue || decide (quad.size ≤ bits (w 2) 19 0)) = false ∧
    collBad 0 (w 0) (w 1) (w 2) (w 3) = false ∧ collBad 1 (w 0) (w 1) (w 2) (w 3) = false ∧ collBad 2 (w 0) (w 1) (w 2) (w 3) = false ∧
    collBad 0 0 0 0 0 = true ∧ (collRec s.t 63).st = .idle ∧
    (collRec (peer { comm := { colls := [(63, { st := .combining })] } }) 63).st ≠ .idle := by decide

theorem witness_CollectiveResults_start :
    let s := on (peer { sram := [(8, 1), (10, 0x10), (13, 0x20)] })
    let w (k : Nat) : Nat := descWord s 0 k
    memberOf s.t (bits (w 1) 27 20) = some (0, { grp := 1, rank := 0, desc := quad }) ∧ Pass (win0Checks s 0 64 64 true) ∧
    groupBad s.t (bits (w 1) 27 20) = false ∧ schedBad w = false ∧ (collRec s.t (bits (w 1) 33 28)).st = .idle := by decide

theorem witness_CollectiveResults_abort :
    let s := on (peer { comm := { colls := [(63, { st := .contributing })] } })
    (0x3F01 : Nat) < 2 ^ 14 ∧ memberOf s.t (bits 0x3F01 7 0) = some (0, { grp := 1, rank := 0, desc := quad }) ∧ groupBad s.t 1 = false ∧
    quad.coll = true ∧ (collRec s.t 63).st = .contributing ∧ schedOf s s.cur 1 63 = none ∧
    memberAt s.t (63 / 64) = { grp := 1, rank := 0, desc := quad } ∧ (collRec s.t 0).st = .idle := by decide

/-- Tiles at places 0, 128, 256 and 384: one below each switch of level 1 of a die. -/
def wide : Group := { kind := 1, size := 4, base := 0, shape := 0x10000000200, nb := 1, coll := true }

/-- A message at a switch of group 1, with the partials that it already holds. -/
def combining (m : Msg) (parts : FMap (List (Nat × List Nat × Nat × Bool))) : State :=
  { ctxs := [(1, { st := .residentRunning, groups := [(1, wide)] })]
    fab := { net := [m], comb := [(combKey 1 1 16 m.sw, { exp := 4 })],
             ccomb := [(ccombKey 1 1 0 m.sw, { parts := parts, collected := 3 })] } }

/-- At the switch of level 1, from its only child; at the root, from the last of four children, and from the first. -/
theorem witness_CollectiveEvents_up :
    let m : Msg := { kind := .up, cid := 1, grp := 1, src := 2 ^ 32, sw := 2 ^ 32, vals := [1] }
    let r : Msg := { m with src := 2 ^ 32 + 2 ^ 32, sw := 2 * 2 ^ 32 }
    let others := [1, 2, 3].map fun k => (2 ^ 32 + k, [1], 0, false)
    let l (x : Msg) (p : List (Nat × List Nat × Nat × Bool)) := p ++ [(childFrom x, x.vals, x.flags, x.poison)]
    (∀ x ∈ [m, r], (combEnt (combining x []) 1 1 16 x.sw).exp ≠ 0 ∧ atSwitch (combining x []) 0 (· == .up) = some x ∧ swLevel x.sw ≠ 0 ∧
      (ccomb (combining x []) 1 1 0 (groupRoot (combining x []) wide)).aborted = false) ∧
    m.sw ≠ groupRoot (combining m []) wide ∧ r.sw = groupRoot (combining r []) wide ∧
    downPorts (combining m []) wide m.sw = [0] ∧ readyParts [0] (l m []) = some ([([1], 0, false)], []) ∧
    downPorts (combining r []) wide r.sw = [2 ^ 32, 2 ^ 32 + 1, 2 ^ 32 + 2, 2 ^ 32 + 3] ∧
    readyParts [2 ^ 32, 2 ^ 32 + 1, 2 ^ 32 + 2, 2 ^ 32 + 3] (l r []) = none ∧
    readyParts [2 ^ 32, 2 ^ 32 + 1, 2 ^ 32 + 2, 2 ^ 32 + 3] (l r others) =
      some ([([1], 0, false), ([1], 0, false), ([1], 0, false), ([1], 0, false)], []) := by
  refine ⟨by decide, by decide, by decide, by decide, rfl, by decide, rfl, rfl⟩

theorem witness_CollectiveEvents_abort :
    let m (k : MKind) : Msg := { kind := k, cid := 1, grp := 1, sw := 2 * 2 ^ 32 }
    atSwitch (combining (m .abort) []) 0 (· == .abort) = some (m .abort) ∧ (ccomb (combining (m .abort) []) 1 1 0 (2 * 2 ^ 32)).aborted = false ∧
    atSwitch (combining (m .collected) []) 0 (· == .collected) = some (m .collected) ∧
    (ccomb (combining (m .collected) []) 1 1 0 (2 * 2 ^ 32)).collected + 1 = wide.size ∧
    (ccomb (combining (m .collected) []) 1 1 0 (2 ^ 32)).collected + 1 ≠ wide.size := by decide

theorem witness_CollectiveEvents_tile :
    let m (k : MKind) : Msg := { kind := k, cid := 1, grp := 1, num := 63, dst := 0, port := 1, vals := [1] }
    let t (st : CState) : Tile := { comm := { colls := [(63, { st := st, count := 33 })] } }
    let p (st : CState) : Tile := peer { comm := { colls := [(63, { st := st, count := 33 })] } }
    let s (st : CState) (k : MKind) : State := netted (t st) [m k]
    memberOf (p .idle) 1 = some (0, { grp := 1, rank := 0, desc := quad }) ∧
    arrival (s .combining .down) 0 (· == .down) = some (0, m .down) ∧ (collRec (p .combining) 63).st = .combining ∧
    (FMap.put (collRec (p .combining) 63).got 0 [1]).length ≠ chunksOf 33 ∧ (collRec (p .delivering) 63).st = .delivering ∧
    arrival (s .contributing .abort) 0 (· == .abort) = some (0, m .abort) ∧ (collRec (p .contributing) 63).st = .contributing ∧
    memberAt (p .contributing) (63 / 64) = { grp := 1, rank := 0, desc := quad } ∧
    arrival (s .aborted .collRelease) 0 (· == .collRelease) = some (0, m .collRelease) ∧ (collRec (p .aborted) 63).st = .aborted := by decide

/-- A schedule of one entry, the entry being of kind 1, in flight and not; a schedule at its end; a chunk on its way to it. -/
theorem witness_CollectiveEvents_schedule :
    let x (n : Nat) (r : List Nat) : Sched := { cid := 1, grp := 1, id := 5, sched := 0x100, nent := 1, clog := 8, next := n, running := r, src := 0x10000, dst := 0x20000 }
    let sp := space 0x2F { st := .residentRunning, groups := [(1, quad)] }
    let s (n : Nat) (r : List Nat) : State := { sp with tiles := [(0, peer {})], fab := { sp.fab with
      hbm := sp.fab.hbm ++ [(0x40000100, 1)], scheds := [(0, x n r)] } }
    FMap.get none ((s 0 []).fab.scheds.map fun e => (e.1, some e.2)) 0 = some (x 0 []) ∧ (x 0 []).next < (x 0 []).nent ∧
    schedEntry (s 0 []) (x 0 []) 0 = .ok (1, 0) ∧ seBad (1, 0) = false ∧ seKind (1, 0) ≠ 0 ∧ depMet (x 0 []) 0 (1, 0) = true ∧
    (x 1 []).nent ≤ (x 1 []).next ∧ (x 1 []).running = [] ∧ memberOf ((s 1 []).tile 0) 1 = some (0, { grp := 1, rank := 0, desc := quad }) ∧
    ((x 0 [0]).running.contains 0 = true ∧ chunkBusy (s 0 [0]) (x 0 [0]) 0 0 = false ∧ seKind (1, 0) = 1 ∧ (x 0 [0]).next < (x 0 [0]).nent) ∧
    (∃ d, vread (s 0 [0]) 1 0x20000 (2 ^ 8) true false false = .ok d) := by
  refine ⟨by decide, by decide, rfl, by decide, by decide, by decide, by decide, by decide, by decide, by decide, ⟨_, rfl⟩⟩

theorem witness_CollectiveEvents_chunk :
    let x : Sched := { cid := 1, grp := 1, id := 5 }
    let m : Msg := { kind := .chunk, cid := 1, grp := 1, num := 5, dst := 0 }
    let s : State := { fab := { net := [m], scheds := [(3, x)] } }
    elemAt s.fab.net 0 = some m ∧ m.path = [] ∧ m.dst / 2048 = s.dev ∧ (s.fab.net.take 0).any (blocksArrival m) = false ∧
    schedFor s m = some (3, x) := by decide

/-! ## Requests, the memory edge, the pager -/

theorem witness_RequestResults :
    let va : W64 := 0xFFFFFFFFFFFFF8
    let bw := 0x000020_001FFFE0
    let s : State := { on { regs := { g := [(6, BitVec.ofNat 64 bw), (7, va)] }, sys := { cid := 1 } } with ctxs := [(1, { overlayOk := true })] }
    GuardOn 0 false s ∧ maskedG s 7 = false ∧ (7 : Nat) < 8 ∧ (vaBad va).1 = false ∧ (vaBad 0x100000000000000).1 = true ∧ Pass (bwChecks bw) ∧
    bwLen bw ≠ 0 ∧ Pass (atomicChecks { m := 6 } va false) ∧ Pass (atomicChecks { m := 2 } va false) ∧ (4 : Nat) % 8 ≠ 0 ∧
    Pass (getiChecks s 0x10000 4) ∧ bits 0x800000000001 47 0 ≠ 0 ∧ bits 0x800000000001 55 48 = 0 ∧ cntfBad (bits 1 63 56) = false ∧
    wokenVal s = none ∧ freeReq s.t = some 0 ∧ bwLen 0 = 0 ∧ Pass (bwChecks 0) ∧ Pass (win0Checks s 0x1FFFE0 32 8 true) := by decide

/-- A 2-D descriptor (R283): 2 rows of 4 bytes; a bank descriptor (R286): 32 rows of 64 columns. -/
theorem witness_RequestResults_descriptors :
    rowsBad 0x1000 (2 * 2 ^ 32 + 4) 8 8 0x100 = false ∧
    bankBad (bankDesc false (64 * 2 ^ 32 + 32) 0 0) 0x1000 (64 * 2 ^ 32 + 32) 0 0 0 [0, 0, 0] = false ∧
    bankBad (bankDesc true (64 * 2 ^ 32 + 32) 0 0) 0x1000 (64 * 2 ^ 32 + 32) 0 0 0 [0, 0, 0] = false ∧
    Pass (win0Checks (on {}) 0x1FFFC0 64 64 true) := by decide

/-- No request slot free (R277). -/
theorem witness_RequestResults_full : freeReq { mreq := { reqs := (List.range 64).map fun k => (k, {}) } } = none := by decide

theorem witness_RequestReplies :
    let m (k : RKind) : Pkt := { place := 0, cid := 1, slot := 63, kind := k, st := .answered, len := 8, off := 32 }
    let r : Req := { left := 1, spans := [{ off := 32, len := 8 }] }
    let s (k : RKind) : State := { on (peer { mreq := { reqs := [(63, r)] }, wait := [(0, .atomic 63)] }) with fab := { pkts := [m k] } }
    (∀ k ∈ [RKind.put, .get, .fetch, .pqry, .geti, .bfence], requestOf (s k) 0 (m k) = some r ∧ r.left = 1 ∧ r.fault = none ∧
      replyFor (s k) 0 (· == k) = some (0, m k)) ∧ replyFor (s .put) 0 plainKind = some (0, m .put) ∧ isRead .put = false ∧
    replyFor (s .get) 0 plainKind = some (0, m .get) ∧ isRead .get = true ∧ r.spans = [{ va := (m .get).va, off := (m .get).off, len := (m .get).len }] ∧
    sectorsOf 32 8 = [1] := by decide

theorem witness_RequestReplies_fault :
    let r (a : Nat) : Req := { left := 0, fault := some (1, 0, 0), asn := a }
    let t (a : Nat) : Tile := peer { mreq := { reqs := [(63, r a)], fences := [{ seq := 5 }] } }
    (∀ a ∈ [0, 1], (t a).mreq.reqs.find? (fun e => e.2.left == 0 && e.2.fault.isSome) = some (63, r a) ∧ (r a).fault = some (1, 0, 0)) ∧
    stillRuns (t 0) (r 0) = true ∧ stillRuns (t 1) (r 1) = false ∧ Machine.sends (t 0) = true ∧
    findIdx (fenceMet (on (t 0)) 0) (t 0).mreq.fences 0 = some (0, { seq := 5 }) := by decide

/-- A packet that reads one sector, at each of its places. -/
theorem witness_EdgeEvents :
    let m (st : PSt) (k : RKind) : Pkt := { place := 0, cid := 1, kind := k, st := st, va := 0x20, len := 8, todo := [(0, 8)], loc := .hbm 0x40000020, w0 := 0x2F }
    let s (w0 : Byte) (p : Pkt) : State := let x := space w0 { st := .residentRunning }
      { x with tiles := [(0, peer {})], fab := { x.fab with pkts := [p] } }
    let a := s 0x2F (m .atStation .get)
    elemAt a.fab.pkts 0 = some (m .atStation .get) ∧ mayLeave a (m .atStation .get) = true ∧
    loadPkt a (m .atStation .get) = (m .atStation .get, a) ∧ tlbHit (FMap.get [] a.fab.tlb (stationOf (dieOf a (m .atStation .get)) 0x20)) 1 0x20 = none ∧
    (a.fab.pkts.filter fun o => o.st == .walking && o.station == 0).length < 64 ∧
    tlbHit [{ cid := 1, va := 0, sh := 30, w0 := 0x2F, w1 := 0x4000 }] 1 0x20 = some { cid := 1, va := 0, sh := 30, w0 := 0x2F, w1 := 0x4000 } ∧
    checkPkt a (m .atStation .get) 30 0x2F 0x4000 = .go (.hbm 0x40000020) ∧
    walk a 1 0x20 = .leaf 30 0x2F 0x4000 0x3000 ∧ walk (s 0x2E (m .walking .get)) 1 0x20 = .none 30 0x3000 ∧
    walk (s 0xEF (m .walking .get)) 1 0x20 = .bad 0x3000 ∧ RKind.get ≠ .pqry ∧ isBank .get = false ∧
    pktsWhere (s 0x2F (m .parked .get)) (fun o => o.st == .parked && o.station == 0 && o.cid == 1 && o.va / 65536 == 0 && o.reason == 0) = [0] ∧
    ((s 0x2F (m .routed .get)).fab.pkts.take 0).any (spanBefore (m .routed .get)) = false ∧ farHome (s 0x2F (m .routed .get)) (m .routed .get) = false ∧
    (let f : Pkt := { m .routed .get with w0 := 0x1002F }
     elemAt (s 0x2F f).fab.pkts 0 = some f ∧ ((s 0x2F f).fab.pkts.take 0).any (spanBefore f) = false ∧ farHome (s 0x2F f) f = true ∧
     linkLeft (s 0x2F f) = false) ∧
    (m .routed .get).todo = [(0, 8)] ∧ isAtomic .get = false ∧ isRead .put = false ∧ isAtomic .fetch = true ∧
    (hbmRead a.fab 0x40000020 8).2 = false ∧ (hbmRead { a.fab with hpoison := [(0x2000001, true)] } 0x40000020 8).2 = true := by decide

theorem witness_BankEvents :
    let m : Pkt := { cid := 1, kind := .bmv, st := .routed, va := 0, sh := 30, w0 := 0x313F, w1 := 0x4000, todo := [(0, 1)], loc := .hbm 0x40000000, desc := [32, 32] }
    let s : State := { space 0x2F { st := .residentRunning } with fab := { (space 0x2F {}).fab with pkts := [m] } }
    elemAt s.fab.pkts 0 = some m ∧ isBank m.kind = true ∧ cdtCopy s 0 1 (bits m.w1 39 36) = none ∧ usesCdt m.w0 = false ∧
    (FMap.get [] s.fab.rows (cisternOf m.w0 (pageUnit m 0))) = [] ∧
    (let c : Pkt := { m with w0 := 0x113F }
     let q : State := { s with fab := { s.fab with pkts := [c] } }
     wantsCdt q 0 1 0 = true) := by decide

theorem witness_BankEvents_table :
    let s := space 0x2F { st := .residentRunning }
    ∃ d, plainRead s 1 (cdtVa (s.ctx 1) 0 + 8) 1024 = some d := ⟨_, rfl⟩

theorem witness_BankEvents_combine :
    let r : Req := { kind := .bmv, left := 1, desc := [32, 32, 0, 0, 0, 0, 0, 0] }
    let m : Pkt := { place := 0, cid := 1, kind := .bmv, st := .answered, len := 8 }
    let f (st : PSt) : Pkt := { place := 0, cid := 1, kind := .bfence, st := st, len := 8 }
    let s : State := { on (peer { mreq := { reqs := [(63, r)] } }) with fab := { pkts := [m] } }
    (s.tile 0).mreq.reqs.find? (fun e => e.1 == 63 && isBank e.2.kind && e.2.left != 0) = some (63, r) ∧ r.left = 1 ∧ r.fault = none ∧
    FMap.get {} (s.tile 0).mreq.reqs 63 = r ∧ takes (s.tile 0) 1 = true ∧ pktsOf s 1 (s.placeOf 0) r.seq = [m] ∧
    (∀ st ∈ [PSt.routed, .fenced], elemAt [f st] 0 = some (f st) ∧ ([f st].any fun o => o.cid == 1 && o.kind != .bfence) = false) := by decide

theorem witness_PagerEvents :
    let x : MapChange := { va := 0, sh := 30, dropped := (List.range 12).map fun k => (k, 0), key := some 0x40000000 }
    let g (st : MigSt) : Migration := { sh := 16, at_ := 0x3000, st := st, home := 0, stack := 1, frame := 0 }
    let s (st : MigSt) : State := space 0x2F { st := .residentRunning, changes := [x], migs := [g st] }
    (11 : Nat) < 12 ∧ elemAt ((s .freeze).ctx 1).changes 0 = some x ∧ 12 ≤ x.dropped.length ∧ (s .freeze).fab.pkts.any (underOld x 1) = false ∧
    (∀ st ∈ [MigSt.freeze, .drain, .copy, .switch], elemAt ((s st).ctx 1).migs 0 = some (g st) ∧
      (s st).fab.pkts.any (fun m => inPage 1 0 16 m && (m.st == .routed || m.st == .fenced)) = false ∧ Memory.wf (s st).fab.hbm = true ∧
      pktsWhere (s st) (fun m => m.st == .frozen && inPage 1 0 16 m) = []) ∧
    (12 * 2 ^ 36 - 1) / 2 ^ 36 < 12 ∧
    (let q : State := space 0x2F { st := .residentRunning, gst := [(255, .releasing)] }
     FMap.get .unbound (q.ctx 1).gst 255 = .releasing ∧ groupDrained q 1 255 = true) := by decide

/-- A page that is marked poisoned (R281). -/
theorem witness_PagerEvents_poison :
    let s : State := { (space 0x2F { st := .residentRunning }) with
      fab := { hbm := [(0x1000, 1), (0x1009, 0x20), (0x2000, 1), (0x2009, 0x30), (0x3000, 0x2F), (0x3009, 0x40), (0x300C, 2)] } }
    walk s 1 0 = .leaf 30 0x2F 0x200004000 0x3000 ∧ ePoison 0x200004000 = true ∧ eStack 0x2F < 12 ∧ s.fab.hpoison = [] := by decide

/-- Barriers and collectives: a release of held sends (R252), an abort that has been through its LCA (R336), and a SEND entry whose chunk is read (R341). -/
theorem witness_BarrierResults_held :
    let s := on (peer { net := { heldq := [.arrive 15 3] } })
    holdsArrival s.t 15 = true ∧ holdsArrival (peer {}) 15 = false ∧ (barRec s.t 15).gen = 2 ^ 32 % 2 ^ 32 ∧
    (peer {}).net.outq = [] ∧ (barRec (peer { comm := { bars := [(15, { arrived := 1 })] } }) 15).arrived ≠ 2 := by decide

theorem witness_CollectiveEvents_abort_end :
    let m (q : Nat) : Msg := { kind := .abort, cid := 1, grp := 1, num := 63, dst := 0, port := q }
    let s (q : Nat) : State := netted { comm := { colls := [(63, { st := .aborted })] } } [m q]
    (∀ q ∈ [1, 2], arrival (s q) 0 (· == .abort) = some (0, m q)) ∧ (collRec ((s 1).tile 0) 63).st = .aborted ∧ quad.coll = true := by decide

theorem witness_CollectiveEvents_read :
    let x : Sched := { cid := 1, grp := 1, id := 5, sched := 0x100, nent := 1, clog := 8, next := 0, running := [0, 1], src := 0x10000, dst := 0x20000 }
    let s : State := { space 0x2F { st := .residentRunning, groups := [(1, quad)] } with tiles := [(0, peer {})] }
    (∃ d, chunkRead s x.cid (x.dst + 0 * 2 ^ x.clog) (2 ^ x.clog) = .ok d) ∧ x.running.filter (· != 0) ≠ [] := by
  refine ⟨(okAnd_iff _ fun _ => true).1 ?_ |>.imp fun _ h => h.1, by decide⟩
  decide +kernel

/-- One way, open to the context and closed: the reply to tile 0, its request's way to the station, and the way from there to the page's home. -/
theorem witness_RequestReplies_port :
    let m : Pkt := { place := 0, cid := 1, st := .answered, len := 8, loc := .hbm 0x40000020, w0 := 0x2F }
    let s : State := { on (peer {}) with fab := { pkts := [m] } }
    replyFor s 0 plainKind = some (0, m) ∧ replyStop s m = some 0 ∧ m.wrote = [] ∧ m.pieces = [] ∧ m.idx = 0 ∧
    replyStop (opened [0, 2 ^ 32, 2 ^ 33, 2147483664, 2147483712] s) m = none := by decide

theorem witness_EdgeEvents_port :
    let m (st : PSt) : Pkt := { place := 0, cid := 1, st := st, va := 0x20, len := 8, todo := [(0, 8)], loc := .hbm 0x40000020, w0 := 0x2F }
    let s (st : PSt) : State := let x := space 0x2F { st := .residentRunning }
      { x with tiles := [(0, peer {})], fab := { x.fab with pkts := [m st] } }
    let ways := pathOf 1 1 (partyPlace (s .atStation) (m .atStation)) (stationPlace 0 0)
    let o (st : PSt) : State := opened [0, 2 ^ 32, 2 ^ 33, 2147483664, 2147483712] (s st)
    stopPort (s .atStation).fab ways 1 false = some 0 ∧ stopPort (o .atStation).fab ways 1 false = none ∧
    (∀ st ∈ [PSt.atStation, .walking, .parked], behind (o st) 30 (m st) = false ∧
      (exitPorts (o st) { m st with station := 0 } 30 0x2F (.hbm 0x40000020)).all (fun q => portPasses (o st).fab q 1 false) = true) ∧
    (m .walking).place ≠ hostParty ∧ inDoor (o .atStation) (m .atStation) = false ∧
    (pktsWhere (o .parked) fun p => (p.st == .parked || p.st == .frozen) && p.gen == (m .parked).gen) = [0] := by decide

/-- A packet for another device: no port, a port that is down, and one port up. -/
theorem witness_EdgeEvents_far :
    let m : Pkt := { place := 0, cid := 1, st := .routed, va := 0x20, len := 8, todo := [(0, 8)], loc := .hbm 0x40000020, w0 := 0x1002F }
    let s (l : List (Nat × Welim)) : State := let x := opened [welimPlace 0 3] (space 0x2F { st := .residentRunning })
      { x with tiles := [(0, peer {})], ports := l, fab := { x.fab with pkts := [m] } }
    let p : Welim := { st := .up, hashed := true }
    farHome (s []) m = true ∧ m.sent = false ∧ linkLeft (s []) = false ∧ linkLeft (s [(3, { st := .down })]) = false ∧
    portPasses (s []).fab (portOfPlace (welimPlace 0 3)) 1 false = true ∧
    upPortOf (s [(3, p)]) (reqVc m) (homePlace (s [(3, p)]) m m.sh m.w0 m.loc) = some 3 := by
  refine ⟨by decide, by decide, by decide, by decide, by decide, ?_⟩
  show some (([3] : List Nat).getD (_ % 1) 3) = some 3
  simp [Nat.mod_one]

/-- The answers of a bank request (R289) with its way open. -/
theorem witness_BankEvents_port :
    let m : Pkt := { place := 0, cid := 1, kind := .bmv, st := .answered, len := 8, loc := .hbm 0x40000020, w0 := 0x2F }
    let s : State := opened [0, 2 ^ 32, 2 ^ 33, 2147483664, 2147483712] { on (peer {}) with fab := { pkts := [m] } }
    stopPort s.fab (replyPorts s m) 1 false = none ∧ m.wrote = [] ∧ replayFirst s 1 m.place m.replay = false := by decide

/-! ## Queues, kernels and contexts -/

theorem witness_QueueEvents_doorbell :
    let s := queued 0x2F {}
    let m (v : Nat) : Msg := { kind := .queueNotice, cid := 1, num := 0, val := v, dst := 2 ^ 31 }
    let n (v : Nat) : State := { s with fab := { s.fab with net := [m v] } }
    (queueOf s 1 0).st ≠ .free ∧ (s.ctx 1).st ≠ .free ∧ (m 16).dst = queueRole (n 16) ∧ elemAt (n 16).fab.net 0 = some (m 16) ∧ (m 16).val ≠ (queueOf (n 16) 1 0).seen ∧
    (m 16).val ≤ (queueOf (n 16) 1 0).head + 2 ^ (queueOf (n 16) 1 0).size ∧
    (queueOf (n 17) 1 0).head + 2 ^ (queueOf (n 17) 1 0).size < (m 17).val ∧ (queueOf (n 17) 1 0).st ≠ .suspended ∧
    ctxInSlot { s with svc := { boot := .ready } } 0 (24 / 4096) = some 1 ∧ ctxInSlot s 0 (0x1018 / 4096) = none := by decide +kernel

/-- A read away from the doorbell page, in a page of device memory. -/
theorem vread_far {s : State} {cid va n sh w0 w1 x k : Nat} {r w a : Bool} (h : atDoor s cid va = false) (h1 : segs va n = [(va, n)])
    (h2 : walk s cid va = .leaf sh w0 w1 x) (hl : lacks w0 r w a = none) (hm : (eMigrating w1 || inMigration s cid va) = false)
    (hk : locate s cid w va sh w0 w1 = .ok (.hbm k)) (hp : (hbmRead s.fab k n).2 = false) :
    vread s cid va n r w a = .ok (hbmRead s.fab k n).1 := by
  simp only [Bool.or_eq_false_iff] at hm
  simp [vread, h1, vpiece, place, h, h2, hl, hm.1, hm.2, hk, hp]

/-- One of two places is not the doorbell page of context 1. -/
theorem spot_far : ∃ a ∈ [0x10000, 0x20000], doorPage 1 ≠ a := by
  by_cases h : doorPage 1 = 0x10000
  · exact ⟨0x20000, by decide, by rw [h]; decide⟩
  · exact ⟨0x10000, by decide, h⟩

theorem atDoor_spot {s : State} {a : Nat} (h : doorPage 1 ≠ a) (ha : a / 4096 * 4096 = a) : atDoor s 1 a = false := by
  simp [atDoor, ha, Ne.symm h]

/-- Context 1's queue 0 with its ring at a place, whose first slot begins with a byte. -/
def ringAt (base : Nat) (b : Byte) : State :=
  { space 0x2F { st := .residentRunning, queues := [(0, { st := .active, base := base, size := 4, tail := 1, seen := 1 })] } with
    fab := { (space 0x2F {}).fab with hbm := Mem.setBytes (space 0x2F {}).fab.hbm (0x40000000 + base) [b] } }

/-- A packet of that slot. -/
def slotPkt (d : List Byte) : HPkt := { id := 1, cid := 1, q := 0, slot := 0, words := (List.range 8).map fun i => leNat ((d.drop (8 * i)).take 8), order := 1 }

/-- A slot of zeros is a NOP without options; with a byte 1 and word 6 zero it is a LAUNCH, with a byte 15 its type is none. -/
theorem witness_QueueEvents_admit : ∃ base, ∀ b ∈ [(0, true, 0), (1, true, 1), (15, false, 15)], let s := ringAt base (BitVec.ofNat 8 b.1)
    (queueOf s 1 0).st = .active ∧ (queueOf s 1 0).destroy = false ∧ (queueOf s 1 0).head ≠ (queueOf s 1 0).seen ∧ (queueOf s 1 0).lsns = [] ∧
    ∃ d, vread s 1 base 64 true false false = .ok d ∧ admits s (slotPkt d) = true ∧ packetOk (slotPkt d) = b.2.1 ∧ pDep (slotPkt d) = false ∧
      pType (slotPkt d) = b.2.2 := by
  obtain ⟨a, ha, h⟩ := spot_far
  have far (s : State) : atDoor s 1 a = false := atDoor_spot h (by simp at ha; rcases ha with rfl | rfl <;> decide)
  refine ⟨a, fun b hb => ?_⟩
  simp only [List.mem_cons, List.not_mem_nil, or_false] at ha hb
  rcases ha with rfl | rfl <;> rcases hb with rfl | rfl | rfl <;>
    exact ⟨by decide +kernel, by decide +kernel, by decide +kernel, by decide +kernel, _,
      vread_far (far _) (by decide +kernel) rfl (by decide +kernel) (by decide +kernel) rfl (by decide +kernel),
      by decide +kernel, by decide +kernel, by decide +kernel, by decide +kernel⟩

/-- A WAIT for 1 that finds 0 in a queue that is Active. -/
theorem witness_QueueEvents_wait : ∃ va, let p : HPkt := packet 5 [va, 0, 1, 0]; let s : State := { ringAt 0 0 with pump := { pkts := [p] } }
    runningPkt s 0 5 = some p ∧ (queueOf s 1 0).st = .active ∧
    ∃ v, vnum s 1 (pw p 4) 8 true false false = .ok v ∧ waitMet p v = false := by
  obtain ⟨a, ha, h⟩ := spot_far
  have far (s : State) : atDoor s 1 a = false := atDoor_spot h (by simp at ha; rcases ha with rfl | rfl <;> decide)
  simp only [List.mem_cons, List.not_mem_nil, or_false] at ha
  refine ⟨a, ?_⟩
  rcases ha with rfl | rfl <;>
    exact ⟨by decide +kernel, by decide +kernel, _, congrArg (Except.map leNat)
      (vread_far (far _) (by decide +kernel) rfl (by decide +kernel) (by decide +kernel) rfl (by decide +kernel)), by decide +kernel⟩

theorem witness_QueueEvents_states :
    let p : HPkt := { packet 5 [0x20000, 0, 0, 1] with st := .waiting }
    let s (x : HPkt) : State := { queued 0x2F x with now := 1000 }
    let w (w0 : Byte) : State := { paged w0 p with now := 1000, pump := { pkts := [p], signals := [(sigKey 1 0x20000, [1])] } }
    (∀ o ∈ (s { id := 1 }).pump.pkts, o.st = .ready → (queueOf (s { id := 1 }) o.cid o.q).prio = (queueOf (s { id := 1 }) 1 0).prio) ∧
    okAnd (vnum (w 0x2F) 1 (pw p 4) 8 true false false) (fun v => waitMet p v) = true ∧ waiters (w 0x2F) 1 (pw p 4) = [p] ∧
    fails (vnum (w 0x6F) 1 (pw p 4) 8 true false false) = true ∧
    pw p 7 ≠ 0 ∧ p.since + 1000 * pw p 7 ≤ (w 0x2F).now ∧
    (∀ e ∈ [0, 9], let d : HPkt := { packet 0 [0, 0, 0, 0] with st := .done, status := e }
      elemAt (s d).pump.pkts 0 = some d ∧ changing (s d) d = false ∧ pDecva d = 0 ∧ pSigva d = 0 ∧ pIrq d = false ∧
      (queueOf (s d) d.cid d.q).st ≠ .free ∧ (queueOf (s d) d.cid d.q).st ≠ .suspended) := by decide +kernel

/-- A LAUNCH that has failed, with its kernel Queued. -/
theorem witness_QueueEvents_closed :
    let d : HPkt := { packet 1 [0, 0, 0, 0] with st := .done, status := 11 }
    let y : Kern := { cid := 1, pkt := 1, st := .queued }
    let s : State := { queued 0x2F d with pump := { pkts := [d], kernels := [(1, y)] } }
    elemAt s.pump.pkts 0 = some d ∧ changing s d = false ∧ d.status ≠ 0 ∧ pSigva d = 0 ∧ pIrq d = false ∧
    (s.pump.kernels.find? fun e => e.1 == d.id) = some (d.id, y) ∧ y.st = .queued := by decide +kernel

theorem witness_QueueEvents_copies :
    let c := packet 2 [0x20000, 0x20010, 32]
    let f := packet 3 [0x20000, 8, 7]
    okAnd (vread (paged 0x2F c) 1 (pw c 4) (pw c 6) true false false) (fun d =>
      okAnd (vwrite 1 (pw c 5) d false true false (paged 0x2F c)) fun _ => true) = true ∧
    fails (vread (paged 0x6F c) 1 (pw c 4) (pw c 6) true false false) = true ∧
    okAnd (vwrite 1 (pw f 4) (natLe 8 7) false true false (paged 0x2F f)) (fun _ => true) = true ∧
    fails (vwrite 1 (pw f 4) (natLe 8 7) false true false (paged 0x6F f)) = true ∧
    pType c = 2 ∧ pType f = 3 ∧ elemAt (paged 0x2F c).pump.pkts 0 = some c := by decide +kernel

theorem witness_QueueEvents_signals :
    let p (op : Nat) : HPkt := packet 4 [0x20000, op, 2 ^ 31 - 1, 0]
    let w (c : Nat) : HPkt := packet 5 [0x20000, c, 1, 0]
    (∀ op ∈ [0, 1, 2], pType (p op) = 4 ∧ pw (p op) 5 = op) ∧ waiters (paged 0x2F (p 0)) 1 0x20000 = [] ∧
    okAnd (vnum (paged 0x2F (p 1)) 1 0x20000 8 true true false) (fun v =>
      okAnd (vput 1 0x20000 8 ((v + (2 ^ 31 - 1)) % 2 ^ 64) true true false (paged 0x2F (p 1))) fun s' => (waiters s' 1 0x20000).isEmpty) = true ∧
    pw (p 3) 5 = 3 ∧ pw (p 3) 6 ≠ 0 ∧
    okAnd (vnum (paged 0x2F (p 3)) 1 0x20000 8 true true true) (fun v =>
      okAnd (vput 1 0x20000 8 (v / 2 ^ 32 * 2 ^ 32 + (2 ^ 31 - 1)) true true true (paged 0x2F (p 3))) fun s' => decide (releaseEarly 1 0x20000 s' = s')) = true ∧
    okAnd (vnum (paged 0x2F (w 1)) 1 0x20000 8 true false false) (fun v => waitMet (w 1) v && !waitMet (w 0) v) = true := by decide +kernel

theorem witness_QueueEvents_measures :
    let m := packet 6 [0x20000, 1, 3, 0]
    let r := packet 7 [0x20000, 0x30000, 0, 0]
    let t : HPkt := packet 12 [0x20000, 15, 0, 0]
    let s (b : Byte) : State := let q := paged 0x2F t; { q with fab := { q.fab with hbm := Mem.setBytes q.fab.hbm 0x40020000 [b] } }
    (paged 0x2F m).pump.hashes = [] ∧ pw m 5 ≠ 0 ∧
    okAnd (vread (paged 0x2F r) 1 0x20000 32 true false false) (fun _ => true) = true ∧
    okAnd (vplaces (paged 0x2F r) 1 0x30000 3629 false true false) (fun _ => true) = true ∧
    okAnd (vread (s 0) 1 0x20000 8 true false false) (fun d => leNat d % 4 == 0 && !tloadBad (leNat d)) = true ∧
    okAnd (vread (s 0x20) 1 0x20000 8 true false false) (fun d => tloadBad (leNat d)) = true := by decide +kernel

/-- What a packet of the pager comes to: none for a new state, else the status. -/
def outcome (r : Except Nat State) : Option Nat := match r with | .ok _ => none | .error e => some e

/-- A page mapped where none was, one not aligned, a range of a context without pages, one not aligned, and a page moved within device memory
and out of it. -/
theorem witness_QueueEvents_pages :
    let s := paged 0x2F {}
    outcome (mapPages 1 1 (2 ^ 30) 1 30 0x27 0x8000 false s) = none ∧ outcome (mapPages 1 1 1 1 16 0x27 5 false s) = some stMalformed ∧
    outcome (unmapRange 2 1 (2 ^ 31) 65536 s) = none ∧ outcome (unmapRange 1 1 1 65536 s) = some stMalformed ∧
    outcome (migratePages 1 1 0 1 0 0 0x8000 s) = none ∧ outcome (migratePages 1 1 0 1 0 12 0x8000 s) = some stRefused := by decide +kernel

/-- A checkpoint of context 2 through endpoint 0 of context 1's table at VA 0x40000, with the UE ports open and shut, and one that its function may
not have. -/
theorem witness_QueueEvents_checkpoint :
    let p := packet 11 [2, 0, 0x100, 0]
    let f (k : Nat) : State := let q := paged 0x2F p
      { q with ctxs := (q.ctxs.map fun e => (e.1, { e.2 with func := k, eptab := 0x40000 })) ++ [(2, { st := .savedStored })]
               fab := { q.fab with hbm := q.fab.hbm ++ [(0x40040000, 1), (0x40040037, 0x80)] } }
    let o := opened (uePorts (f 0)) (f 0)
    ((f 1).ctx 1).func ≠ 0 ∧ bits (pw p 4) 11 0 ≠ p.cid ∧ (o.ctx 1).func = 0 ∧ bits (pw p 4) 11 0 ≠ 0xFFF ∧
    (o.ctx 2).st = .savedStored ∧ (∀ d ∈ checkpointOf o p, (o.ctx d).st = .savedStored ∧ (o.ctx d).migs = []) ∧ p.aux = 0 ∧
    (ueEndpoint o 1 (pw p 5)).isSome = true ∧ (o.ctx 1).job ≠ 0 ∧ stopPort o.fab (uePorts o) 1 false = none ∧
    (stopPort (f 0).fab (uePorts (f 0)) 1 false).isSome = true ∧ pType { p with aux := 2 } = 11 := by decide +kernel

theorem witness_QueueEvents_hashes :
    let h : Hashing := { cid := 1, va := 0x20000, len := 2 ^ 20 + 1, n := 2 }
    let k : Hashing := { cid := 1, va := 0x20000, len := 2 ^ 20 + 1, n := 2, leaves := [(0, []), (1, [])], fin := 1, batch := 1 }
    let s (x : Hashing) : State := let q := paged 0x2F {}; { q with pump := { hashes := [x] } }
    elemAt (s h).pump.hashes 0 = some h ∧ (h.leaves.any fun e => e.1 == 1) = false ∧ okAnd (leafBytes (s h) h 1) (fun _ => true) = true ∧
    (FMap.put h.leaves 1 []).length < h.n ∧ ((s k).pump.hashes.filter fun o => o.batch == k.batch) = [k] ∧ k.fin ≠ 0 ∧
    earlierEvent (s k) k.cid k.batch k.fin = false := by decide +kernel

/-- Role 1 with a primary and a standby; its packets' role is another; the queue role stands elsewhere. -/
theorem witness_QueueEvents_pumpTile :
    (let s : State := { queued 0x2F { st := .running } with svc := { roles := [(0, 1), (2, 3)] } }
     elemAt s.svc.roles 1 = some (2, 3) ∧ (∀ p ∈ s.pump.pkts, roleOf (pType p) = 1 → p.st = .running → p.effects = true) ∧
     ∀ e, elemAt s.svc.roles 0 = some e → e.1 ≠ 2) ∧
    (∀ p ∈ (queued 0x2F { st := .ready }).pump.pkts, (roleOf (pType p) = 0 → p.st = .running → p.effects = true) ∧
      mayFault ((queued 0x2F { st := .ready }).ctx p.cid).st = true) ∧
    (queueOf (queued 0x2F {}) 1 0).st ≠ .free ∧ (queueOf (queued 0x2F {}) 1 0).st ≠ .suspended :=
  ⟨⟨rfl, by decide +kernel, fun e h => by cases h; decide⟩, by decide +kernel, by decide +kernel, by decide +kernel⟩

/-- An image of one instruction, a task on slot 5 that starts, and 15 free windows. -/
def image : List Byte :=
  [0x46, 0x4B, 0x49, 0x4D, 1, 0, 0, 0, 9, 0, 0, 0, 0, 0, 0, 0, 96, 0, 0, 0, 1, 0, 1, 0, 64, 0, 0, 0] ++ List.replicate 9 0 ++ [8, 0, 0, 104] ++
    List.replicate 27 0 ++ [1] ++ List.replicate 19 0 ++ [5, 1] ++ List.replicate 134 0

/-- A LAUNCH of it on places 0 to 15, at DEVICE scope. -/
def launching (w0 scope : Nat) : State :=
  let q := paged (BitVec.ofNat 8 w0) { packet 1 [0x20000, 0x30000, scope * 2 ^ 48, 0] with effects := false }
  { q with ctxs := q.ctxs.map fun e => (e.1, { e.2 with tiles := List.range 16 })
           fab := { q.fab with hbm := Mem.setBytes q.fab.hbm 0x40020000 image }
           pump := { q.pump with kernels := [(1, { cid := 1, pkt := 1, st := .checking, tiles := List.range 16 })] } }

/-- The same, with its kernel Queued. -/
def accepted (w0 scope : Nat) : State :=
  let q := launching w0 scope
  { q with pump := { q.pump with kernels := [(1, { cid := 1, pkt := 1, st := .queued })] } }

theorem witness_KernelEvents_queued :
    let p := packet 1 [0x20000, 0x30000, 2 ^ 48, 0]
    let y : Kern := { cid := 1, pkt := 1, st := .queued }
    runningPkt (accepted 0x2F 1) 0 1 = some p ∧ ((accepted 0x2F 1).pump.kernels.find? fun e => e.1 == p.id) = some (p.id, y) ∧
    kernOf (accepted 0x2F 1) p.id = y ∧ y.st = .queued ∧
    (match launchChecks (accepted 0x2F 1) p with | .ok e => e.1 == image && (iGroups e.1).isEmpty | .error _ => false) = true := by decide +kernel

/-- A LAUNCH whose LSN 0 has been accepted before, as kernel 7 that is complete, and one whose LSN nobody bore. -/
theorem witness_KernelEvents_repeat :
    let p := packet 1 [0x20000, 0x30000, 2 ^ 48, 0]
    let s (l : FMap Nat) : State := { ctxs := [(1, { queues := [(0, { lsns := l })] })], pump := { pkts := [p], kernels := [(7, { st := .complete })] } }
    runningPkt (s [(0, 7)]) 0 1 = some p ∧ ((s []).pump.kernels.find? fun e => e.1 == p.id) = none ∧
    ((queueOf (s [(0, 7)]) 1 0).lsns.find? fun e => e.1 == pSeq p) = some (0, 7) ∧ kernOver (kernOf (s [(0, 7)]) 7) = true ∧
    ((queueOf (s [(5, 7)]) 1 0).lsns.find? fun e => e.1 == pSeq p) = none := by decide +kernel

/-- A LAUNCH whose definitions name the same tile twice. -/
theorem witness_KernelEvents_groups :
    let d : GroupDef := { k := 1, w := [2 * 2 ^ 32 + 1, 0, 0x100001, 0] }
    bindReason (launching 0x2F 1) 1 [d] ≠ 0 ∧ bindReason (launching 0x2F 1) 1 [d] ≠ 255 := by decide +kernel

theorem witness_KernelEvents_launch :
    let p := packet 1 [0x20000, 0x30000, 2 ^ 48, 0]
    let z := packet 1 [0x20000, 0x30000, 0, 0]
    let y : Kern := { cid := 1, pkt := 1, st := .checking, tiles := List.range 16 }
    runningPkt (launching 0x2F 1) 0 1 = some p ∧ ((launching 0x2F 1).pump.kernels.find? fun e => e.1 == p.id) = some (p.id, y) ∧
    kernOf (launching 0x2F 1) p.id = y ∧ y.st = .checking ∧ y.checked = false ∧
    (match launchChecks (launching 0x2F 1) p with | .ok e => e.1 == image && (iGroups e.1).isEmpty | .error _ => false) = true ∧
    bindReason (launching 0x2F 1) 1 [] = 0 ∧ present (launching 0x2F 1) 1 = true ∧ runningPkt (launching 0x2F 0) 0 1 = some z ∧
    (match launchChecks (launching 0x2F 0) z with | .ok _ => false | .error e => e == (5, 0)) = true := by decide +kernel

set_option maxRecDepth 20000 in
/-- A kernel at tile 0, place 0: before its load, before its kick, and with its trigger and acknowledgement on their way. -/
theorem witness_KernelEvents_tile :
    let t : Tile := { life := .idle, resident := true, place := some 0, sys := { cid := 1 } }
    let s (y : Kern) : State := { tiles := [(0, t)], ctxs := [(1, { st := .residentRunning })],
                                  pump := { pkts := [packet 1 [0, 0, 0, 0]], kernels := [(1, { y with cid := 1, pkt := 1, img := image, tiles := [0] })] } }
    let l : Kern := { st := .loading }
    let g : Kern := { st := .loading, loaded := [(0, true)] }
    let r : Kern := { st := .running, loaded := [(0, true)], kicked := [(0, true)], trig := [(0, true)] }
    let d : Kern := { r with st := .triggered, trigArr := [(0, true)], done := [(0, true)] }
    let o : State := opened (pathOf (s r).svc.bw (s r).svc.rw 0 (rolePlace (s r) 1)) (s r)
    (s l).placeOf 0 = 0 ∧ NSet.mem (kernOf (s l) 1).loaded 0 = false ∧ measured (s l) 1 = true ∧ kernTile ((s l).tile 0) (kernOf (s l) 1) = true ∧
    quiet ((s l).tile 0) = true ∧ NSet.mem (kernOf (s g) 1).loaded 0 = true ∧ NSet.mem (kernOf (s g) 1).kicked 0 = false ∧
    takes ((s g).tile 0) 1 = true ∧ (List.range (iNtask image)).filter (iTaskStart image) = [0] ∧
    allIn (kernOf (s r) 1) (kernOf (s r) 1).kicked = true ∧ allIn (kernOf (s r) 1) (NSet.add (kernOf (s r) 1).trigArr 0) = true ∧
    ((s r).pump.pkts.find? fun o => o.id == (kernOf (s r) 1).pkt) = some (packet 1 [0, 0, 0, 0]) ∧ pDecva (packet 1 [0, 0, 0, 0]) = 0 ∧
    allIn (kernOf (s r) 1) (kernOf (s r) 1).doneArr = false ∧ NSet.mem (kernOf (s d) 1).done 0 = true ∧
    allIn (kernOf (s d) 1) (NSet.add (kernOf (s d) 1).doneArr 0) = true ∧ loaderStop o 1 0 = none ∧ kernLive (kernOf (s r) 1) = true ∧
    (loaderStop (s r) 1 0).isSome = true := by decide +kernel

theorem witness_KernelEvents_instructions :
    GuardOn 0 false (on {}) ∧ (on {}).t.kernel = none ∧
    (∀ b ∈ [true, false], (on { kernel := some 1, ktrig := b }).t.kernel = some 1 ∧ (on { kernel := some 1, ktrig := b }).t.ktrig = b) ∧
    (on { kernel := some 1, kdone := true }).t.kdone = true := by decide

/-! ### Contexts -/

set_option maxRecDepth 20000 in
/-- A partition of one cluster at physical places 16 to 31. -/
theorem witness_ContextEvents_grant :
    let s : State := { ctxs := [(1, { st := .created, shape := 0x00 })], svc := { clustersOk := 2 } }
    mayFault (s.ctx 1).st = true ∧ mayFault (s.ctx 2).st = false ∧ shapeLog (s.ctx 1).shape = some 0 ∧ 16 % (16 * 2 ^ 0) = 0 ∧
    (((List.range 16).map (16 + ·)).filter fun a => a / 2048 == s.dev) = (List.range 16).map (16 + ·) ∧
    fullHouse s = false ∧ shapeFits s (s.ctx 1).shape = true ∧ sitesMeet s 1 16 16 = [] ∧ assign s 16 16 = some ((List.range 16).map (16 + ·)) := by
  decide +kernel

/-- The same places held by another context, resident or held. -/
theorem witness_ContextEvents_room :
    ∀ st ∈ [CtxSt.residentIdle, .residentRunning, .savedHeld],
      let s : State := { ctxs := [(1, { st := .created, shape := 0x00 }), (2, { st := st, site := some (16, 16) })], svc := { clustersOk := 2 } }
      sitesMeet s 1 16 16 = [2] ∧ (s.ctx 2).st = st ∧ fullHouse s = false := by decide +kernel

/-- Context 1 in a state, with one tile, and what its fields add. -/
def saving (x : Ctx) (t : Tile) : State :=
  { tiles := [(0, { t with place := some 0, sys := { cid := 1 } })], ctxs := [(1, { x with tiles := [0] })] }

theorem witness_ContextEvents_context :
    (∀ st ∈ [CtxSt.residentIdle, .residentRunning], let x : Ctx := { st := st, slice := 5, sliceStart := 7 }
      x.slice ≠ 0 ∧ x.sliceStart + 1000 * x.slice ≤ { saving x {} with now := 5007 }.now) ∧
    (let s := saving { st := .preempting } { life := .saving, resident := false }
     (∀ p ∈ tilesOf s 1, isCut (s.tile p) = true) ∧ (s.ctx 1).channelDrained = false ∧ ∀ m ∈ s.fab.net, m.cid = 1 → vcOf m = 3 → heldChunk m = true) ∧
    (let s := saving { st := .savedHeld, schedTrap := true } {}
     (s.ctx 1).trapTaken = false ∧ checkpointed s 1 = false ∧ fullHouse s = false ∧ (s.ctx 1).evicted = []) ∧
    (saving { st := .destroyed } {}).ctx 1 = { st := .destroyed, tiles := [0] } ∧
    (let s : State := { ctxs := [(1, { st := .created, func := 3 })] }
     1 ∈ ownedBy s 3 ∧ (s.ctx 1).st ≠ .free) := by decide

theorem vaPoison_none (s : State) (c va : Nat) (h : s.fab.hpoison = []) : vaPoison s c va = false := by
  unfold vaPoison
  rw [h]
  split <;> rfl

theorem blockPoison_none (s : State) (c blk : Nat) (ev : Bool) (aa : Nat) (h : s.fab.hpoison = []) : blockPoison s c blk ev aa = false := by
  simp [blockPoison, vaPoison_none s c _ h]

theorem witness_ContextEvents_restore :
    let s : State := { space 0x2F { st := .restoring, tiles := [0] } with tiles := [(0, {})] }
    (∀ a, blockPoison s 1 (tileBlock s 1 a) (!(s.ctx 1).evicted.isEmpty) (FMap.get (s.tile (s.physOf 1 a)) (s.ctx 1).saved a).sys.aa = false) ∧
    0 ∈ localPlaces s 1 := ⟨fun _ => blockPoison_none _ _ _ _ _ rfl, by decide⟩

/-- The first sector of tile 0's state record is poisoned. -/
theorem witness_ContextEvents_restorePoison :
    let s : State := { space 0x2F { st := .restoring, tiles := [0] } with tiles := [(0, {})] }
    let b : State := { s with fab := { s.fab with hpoison := NSet.add [] ((0x40000000 + 0x100000 + 0x238000) / 32) } }
    vaPoison b 1 (tileBlock b 1 0 + 0x238000) = true ∧ 0 ∈ localPlaces b 1 := by decide +kernel

/-- A tile at its boundary, with and without commands; one captured; one evicted, and the last of two. -/
theorem witness_ContextEvents_tile :
    (let u := (saving {} { life := .idle, pend := { save := true } }).tile 0; u.life = .idle ∧ u.pend.save = true) ∧
    (let u := (saving {} { life := .saving }).tile 0; u.life = .saving ∧ (u.mx.queue.isEmpty && u.mx.closed.isEmpty) = true) ∧
    (∀ l ∈ [[0], [0, 1]], let s : State := { saving {} { life := .saving } with ctxs := [(1, { st := .preempting, channelDrained := true, tiles := l })] }
      isCut (s.tile 0) = true ∧ NSet.mem (s.ctx 1).captured (s.placeOf 0) = false ∧ localPlaces s 1 = l) ∧
    (let s := saving { st := .savedHeld, claimed := true } { life := .idle }
     (s.ctx 1).claimed = true ∧ (s.tile 0).place ≠ none ∧ (s.tile 0).life = .idle ∧ localPlaces s 1 = [0]) := by decide

/-! ## Links and the host -/

/-- A message at a port of its way: one that its CID is marked at, one that it is not, the device's root (switch level 3) and a UE port. -/
theorem witness_SwitchPortEvents :
    let m (q : Nat) (u : Option Nat) : Msg := { kind := .eager, cid := 1, src := 1, dst := 0, path := [q, 7], ue := u }
    let root := 2 ^ 32 + 3 * 2 ^ 32
    let s (x : Msg) (l : List Nat) (w : Welim) : State := { fab := { net := [x], member := NSet.addAll [] l }, ports := [(2, w)] }
    (∀ x ∈ [m 5 none, m 5 (some 0), m root none], ∀ l ∈ [[], [5 * 4096 + 1, root * 4096 + 1]],
      elemAt (s x l {}).fab.net 0 = some x ∧ doorShut (s x l {}) x (x.path.headD 0) [7] = false ∧
      portPasses (s x l {}).fab (x.path.headD 0) 1 (vcOf x == 3) = !l.isEmpty) ∧
    (2 ^ 32 ≤ root ∧ swLevel (root - 2 ^ 32) = 3 ∧ (m root none).port ≠ 2) ∧ ¬ 2 ^ 32 ≤ 5 ∧ upPorts (s (m root none) [] {}) = [] ∧
    linkLeft (s (m root none) [] {}) = false ∧ linkLeft (s (m root none) [] { st := .train }) = true ∧ upPorts (s (m root none) [] { st := .train }) = [] ∧
    (msgClass (m root none)).1 ≠ 7 ∧
    (s { m 5 none with path := [] } [] {}).fab.net = [{ m 5 none with path := [] }] := by decide

/-- A message at the door of die 0's service cluster, with its firewall as after power-good and as boot leaves it; one ordered behind it. -/
theorem witness_SwitchPortEvents_door :
    let m (ctl : Bool) : Msg := { kind := .eager, cid := 1, src := 1, dst := 2 ^ 31, ctl := ctl, path := [2 ^ 32 + 2 ^ 31, 2 ^ 31] }
    let f : State := { fab := { firewall := [(0, firewallBoot)] } }
    doorShut {} (m true) (2 ^ 32 + 2 ^ 31) [2 ^ 31] = true ∧ doorShut f (m false) (2 ^ 32 + 2 ^ 31) [2 ^ 31] = true ∧
    doorShut f (m true) (2 ^ 32 + 2 ^ 31) [2 ^ 31] = false ∧ inOrder (m true) (m false) = true := by decide

/-- The up port that the hash takes is the only one there, and it still trains; its own bitmap marks the context or not. -/
theorem witness_SwitchPortEvents_up :
    let m : Msg := { kind := .eager, cid := 1, src := 1, dst := 0, path := [2 ^ 32 + 3 * 2 ^ 32] }
    let s (l : List Nat) : State := { fab := { net := [m], member := NSet.addAll [] l }, ports := [(2, { st := .train, hashed := true })] }
    let port := portOfPlace (welimPlace 0 2)
    upPortOf (s []) (vcOf m) m.dst = some 2 ∧ sendsData (welim (s []) 2) = false ∧ portPasses (s []).fab port 1 false = false ∧
    portPasses (s [port * 4096 + 1]).fab port 1 false = true := by
  refine ⟨?_, by decide, by decide, by decide⟩
  show some (([2] : List Nat).getD (_ % 1) 2) = some 2
  rw [Nat.mod_one]
  rfl

theorem witness_LinkPacketEvents :
    let w (ty seq ack : Nat) : LinkPkt :=
      sealPkt { ty := ty, seq := seq, ack := ack, flits := if ty = 0 then [0] else [], head := b2n (ty == 0), tail := b2n (ty == 0), credit := [1, 2, 3, 4] }
    let x (st : WSt) (n : Bool) : Welim := { st := st, naked := n, acked := 9, rxseq := 4095, replay := [{ seq := 10 }, { seq := 11 }], unacked := 1 }
    let s (st : WSt) (n : Bool) : State := { ports := [(7, x st n)], now := 5000 }
    hears (welim (s .train false) 7) = false ∧ hears (welim (s .up false) 7) = true ∧ badPkt { w 0 0 0 with crc := (w 0 0 0).crc + 1 } = true ∧
    badPkt (w 0 0 0) = false ∧ badPkt (w 1 0 11) = false ∧ badPkt (w 2 0 9) = false ∧ badPkt (w 6 0 9) = false ∧ badPkt (w 1 1 0) = true ∧ ((w 0 4095 0).seq + 4096 - 4095) % 4096 = 0 ∧ ((w 0 2046 0).seq + 4096 - 4095) % 4096 = 2047 ∧
    ((w 0 2047 0).seq + 4096 - 4095) % 4096 = 2048 ∧ (welim (s .up true) 7).naked = true ∧ (w 0 4095 0).head = 1 ∧ (w 0 4095 0).tail = 2 ^ 0 ∧
    (welim (s .up false) 7).sendq = [] ∧ ((w 1 0 11).ack + 4096 - 9) % 4096 = 2 ∧ ((w 6 0 9).ack + 4096 - 9) % 4096 = 0 ∧
    ((w 1 0 12).ack + 4096 - 9) % 4096 = 3 ∧ (welim (s .up false) 7).replay.length = 2 ∧
    ((welim (s .up false) 7).naks.filter fun k => decide (5000 < k + 1000)).length < 15 ∧
    sendsData (welim (s .up false) 7) = true ∧ (welim (s .up false) 7).txAt + 5000 ≤ (s .up false).now ∧ 0 < (welim (s .up false) 7).unacked := by
  decide +kernel

/-- Lanes lost: one the port does not use, lane S, one for which S stands, and enough of them for a width to be lost. -/
theorem witness_LinkLaneEvents_loss :
    let s (x : Welim) : State := { ports := [(7, x)] }
    let up : Welim := { st := .up, width := 3, rxok := 0x1FFFF, farRx := 0x1FFFF }
    let c (x : Welim) (l : Nat) :=
      let rx := if bit x.rxok l then x.rxok - 2 ^ l else x.rxok
      chooseWidth (fun i => !NSet.mem (NSet.add x.lost l) i && bit rx i && bit x.farRx i) x.smap
    let few : Welim := { up with width := 1, lost := NSet.addAll [] [4, 8, 12, 16] }
    inService (welim (s {}) 7) = false ∧ (welim (s {}) 7).st ≠ .retrain ∧ inService (welim (s up) 7) = true ∧
    (welim (s { up with st := .retrain }) 7).st = .retrain ∧ c up 15 = (some 15, 3, 0) ∧ (c few 0).2.1 = 0 := by decide

theorem witness_LinkLaneEvents_sample :
    let s (st : WSt) : State := { ports := [(7, { st := st, width := 3 })] }
    let l : LaneSample := { margin := [1000, 149] }
    (∀ st ∈ [WSt.down, .failed, .train, .up, .degraded], (welim (s st) 7).st = st ∧ (welim (s st) 7).smap = none) ∧
    (∀ i, i < 17 → sampleLost l i = false) ∧ sampleLost { words := 10, uncorr := [1] } 0 = true ∧ NSet.mem (welim (s .up) 7).lost 16 = false ∧
    ((widthLanes 3 0).find? fun i => ((List.range 17).filter (weakLane {} l)).contains i) = some 1 ∧
    ((widthLanes 3 0).find? fun i => ((List.range 17).filter (weakLane {} {})).contains i) = none := by decide

theorem witness_LinkLaneEvents_swap :
    let s (k : Option Nat) : State := { ports := [(7, { st := .swap, width := 3, swapLane := some 5, swapQ := k, txseq := 10 })], now := 200000 }
    let w (l : Nat) : LinkPkt := sealPkt { ty := 4, tstamp := l + 9 * 2 ^ 16 }
    (welim (s none) 7).swapLane = some 5 ∧ (welim (s none) 7).swapQ = none ∧ (welim (s none) 7).swapRep + 10000 ≤ (s none).now ∧
    badPkt (w 5) = false ∧ bits (w 5).tstamp 4 0 = 5 ∧ hears (welim (s none) 7) = true ∧ (welim (s none) 7).swapLane ≠ some (bits (w 6).tstamp 4 0) ∧
    ((welim (s (some 9)) 7).txseq + 4095 - 9) % 4096 < 2048 ∧ 2048 ≤ ((welim (s (some 10)) 7).txseq + 4095 - 10) % 4096 ∧
    (welim (s none) 7).swapAt + 200000 ≤ (s none).now := by decide +kernel

theorem witness_LinkLaneEvents_train :
    let s (st : WSt) (r : Nat) : State := { ports := [(7, { st := st, rxok := r })], now := 2000000 }
    let z (x : TrainSet) : TrainSet := { x with crc := crc32 (trainBytes x) }
    let t : TrainSet := z { lane := 16, vers := 2, rxok := 2 ^ 17 - 1 }
    let r : Welim := { st := .retrain, rxok := 0x1FFFF, farRx := 0x1FFFF, lost := NSet.addAll [] [16] }
    (welim (s .retrain 0) 7).trainAt + 40000 ≤ 2000000 ∧ (welim (s .train 0) 7).trainAt + 2000000 ≤ (s .train 0).now ∧
    goodSet t = true ∧ goodSet { t with vers := 3 } = false ∧ goodSet (z { phase := 2, rxok := 0xFFFE }) = true ∧ t.lane ≤ 16 ∧ ((List.range 17).filter fun i => bit (Nat.lor 7 (2 ^ 16)) i).length = 4 ∧
    ((List.range 17).filter fun i => bit (Nat.lor 3 (2 ^ 16)) i).length < 4 ∧ bit t.vers 1 = true ∧
    (chooseWidth (fun i => bit (Nat.land (Nat.lor 0xFFFF (2 ^ 16)) t.rxok) i) none).2.1 ≠ 0 ∧ bit 1 1 = false ∧
    r.farRx ≠ 0xFFFE % 2 ^ 17 ∧ (chooseWidth (fun i => !NSet.mem r.lost i && bit r.rxok i && bit (0xFFFE % 2 ^ 17) i) r.smap).2 = (2, 1) := by
  decide +kernel

/-- The sixteenth DONE set of the last lane of a port four lanes wide. -/
theorem witness_LinkLaneEvents_done :
    let x : Welim := { st := .train, width := 1, version := 1, doneCnt := [(0, 16), (1, 16), (2, 16), (3, 15)] }
    let z : TrainSet := { phase := 2, lane := 3, chosen := 1, width := 1, smap := 0 }
    let t : TrainSet := { z with crc := crc32 (trainBytes z) }
    goodSet t = true ∧ t.lane ≤ 16 ∧ t.phase = 2 ∧
    x.width ≠ 0 ∧ t.chosen = x.version ∧ t.width = x.width + 4 * x.group ∧ t.smap = smapByte x ∧
    (∀ i ∈ widthLanes x.width x.group, physLane x.smap i ≠ t.lane → 16 ≤ FMap.get 0 x.doneCnt (physLane x.smap i)) ∧
    15 ≤ FMap.get 0 x.doneCnt t.lane ∧ x.sendq = [] := by decide +kernel

theorem witness_HostEvents :
    let w : LinkPkt := sealPkt { ty := 5, tstamp := 100 }
    let s : State := { ports := [(7, { st := .up, delay := 3 })], now := 100000000, svc := { synced := true, apertures := [(64, { v := true, cid := 1 })], jobs := [(8193, 1)] },
                       ctxs := [(1, { st := .residentIdle, func := 1, tiles := [5] })] }
    let u (c d : Nat) : UePkt := { job := 2, pid := 1, cls := c, dst := d, len := 8 }
    badPkt w = false ∧ hears (welim s 7) = true ∧ w.tstamp + (welim s 7).delay < 2 ^ 64 ∧ s.svc.syncAt + 100000000 ≤ s.now ∧
    (apertureOf s 1 0).v = true ∧ (s.ctx (apertureOf s 1 0).cid).st ≠ .free ∧ (apertureOf s 0 0).v = false ∧
    ((s.ctx 1).st ≠ .free ∧ (s.ctx 1).func = 1) ∧ bits 1 11 0 = 1 ∧ (s.ctx 2).st = .free ∧
    (s.svc.jobs.find? fun e => e.1 == (u 0 5).job * 4096 + (u 0 5).pid) = some (8193, 1) ∧ (s.svc.jobs.find? fun e => e.1 == 0) = none ∧
    (s.ctx 1).tiles.contains (u 0 5).dst = true ∧ (s.ctx 1).tiles.contains (u 0 6).dst = false ∧ ueKind (u 0 5) = some .eager ∧
    ueKind (u 7 5) = some .chunk ∧ ueKind (u 6 5) = none ∧ uePkts (u 4 0) 1 0 ≠ [] ∧ uePkts { u 4 0 with rkind := 2, op := 24 } 1 0 = [] ∧ ({ s with svc := { s.svc with boot := .ready } } : State).svc.boot = .ready ∧
    s.svc.boot ≠ .ready := by decide +kernel

/-! ## The yoke -/

/-- Tile 0 leads a yoke; the other tiles of the cluster are given. -/
def leading (y : Yoke) (t : Tile) (others : FMap Tile) : State :=
  { tiles := (0, { t with life := .running, place := some 0, yk := y }) :: others }

theorem witness_YokeInstructionResults :
    let s (b : Nat) : State := on { regs := { g := [(6, 3), (7, BitVec.ofNat 64 b)] } }
    let share := 0x10000 * 2 ^ 32 + 0x10000
    GuardOn 0 false (s share) ∧ maskedG (s share) 31 = false ∧ Alone (s share) ∧ wokenVal (on { woken := [(0, 7)] }) = some 7 ∧
    wokenVal (s share) = none ∧ bits 3 15 0 = (2 ^ 2 - 1) * 2 ^ tileNo (s share) 0 ∧ tileNo (s share) 0 % 2 = 0 ∧
    (bits 3 63 48 = 0 ∧ bits 3 31 16 = 0 ∧ bits share 63 53 = 0 ∧ bits share 31 21 = 0) ∧ bits 0x10000 31 16 ≠ 0 ∧
    (bits share 20 0 % 65536 = 0 ∧ 65536 ≤ bits share 20 0 ∧ bits share 20 0 ≤ 2 ^ 20 ∧ bits share 52 32 % 65536 = 0 ∧
      bits share 52 32 + bits share 20 0 ≤ 2 ^ 21) ∧ ¬ 65536 ≤ bits 0 20 0 ∧
    (s share).t.bun.blk = none ∧ (s share).t.yk.st = .single ∧ (on { yk := { st := .yoked } }).t.yk.st ≠ .single ∧
    (let u := leading { st := .yoked, n := 2 } {} [(1, { life := .member, place := some 1, yk := { st := .yoked } })]
     u.t.life = .running ∧ isMember u 0 1 = true ∧ yokeMembers u 0 2 = [1] ∧ (u.tile 1).pend.join = []) ∧
    (let f (l : Life) : State := formYoke 0 2 3 share (leading {} {} [(1, { life := l, place := some 1 })])
     joinFail (f .idle) 0 = none ∧ joinFail (f .off) 0 = some (1, 2)) ∧
    (∀ l ∈ [true, false], let c : BlkCtx := { last := l, gmask := 2 ^ 32 - 2 }
      let u := on { bun := { blk := some c } }
      u.t.bun.blk = some c ∧ maskedG u 31 = false ∧ maskedG u 1 = false) := by decide

theorem witness_YokeLifeEvents_join :
    let s (st : YState) (l : Life) (clk : Nat) : State :=
      { leading { st := st, leader := 0, n := 2, tmo := 1 } {} [(1, { life := l, place := some 1, pend := { join := [0] } })] with clk := clk }
    (∀ st ∈ [YState.forming, .single], ∀ l ∈ [Life.idle, .member, .running], ∀ c ∈ [0, 1024],
      (((s st l c).tile 1).pend.join.filter fun l' => ((s st l c).tile l').yk.st == .forming) = (if st = .forming then [0] else []) ∧
      ((s st l c).tile 1).pend.join = [0] ∧ ((s st l c).tile 0).life = .running ∧
      ((s st l c).tile 1).life = l ∧ ((s st l c).tile 1).yk.st = .single ∧ joinLate (s st l c) 0 = (c == 1024)) ∧
    (on {}).t.pend.join = [] := by decide

/-- The formation: each cause of failure in turn (a save request, another program, time, the trap area), all joined, one missing. -/
theorem witness_YokeLifeEvents_form :
    let y : Yoke := { st := .forming, leader := 0, n := 2, mask := 3, base := 0, size := 65536, tmo := 1 }
    let m : Tile := { life := .member, place := some 1 }
    let s (j : NSet) (t : Tile) : State := { leading { y with joined := j } {} [(1, t)] with clk := 1024 }
    joinFail (s [] { m with pend := { save := true } }) 0 = some (1, 2) ∧ joinFail (s [] { m with sys := { imgid := 1 } }) 0 = some (2, 2) ∧
    joinFail (s [] { m with life := .running }) 0 = some (3, 2) ∧ joinFail (s [] { m with sys := { trbase := 65535 } }) 0 = some (4, 2) ∧
    joinFail (s [(1, true)] m) 0 = none ∧ (∀ i, i + 1 < 2 → NSet.mem [(1, true)] (i + 1) = true) ∧ joinFail (s [] m) 0 = none ∧
    NSet.mem [] 1 = false := by
  refine ⟨by decide, by decide, by decide, by decide, by decide, fun i h => ?_, by decide, by decide⟩
  have h0 : i = 0 := by omega
  subst h0
  decide

theorem witness_YokeLifeEvents_end :
    let s (st : YState) (r : Option Nat) (l : Life) : State :=
      leading { st := st, leader := 0, n := 2, blocks := true, result := r } {} [(1, { life := l, place := some 1 })]
    (∀ st ∈ [YState.yoked, .draining], ((s st none .faulted).tile (yokeTile (s st none .faulted) 0 1)).life = .faulted ∧
      ((s st none .faulted).tile 0).yk.leader = tileNo (s st none .faulted) 0 ∧ ((s st none .faulted).tile 0).async = []) ∧
    ((s .yoked none .member).tile (yokeTile (s .yoked none .member) 0 1)).life ≠ .faulted ∧
    (∀ r ∈ [some 1, some 2], ((s .draining r .member).tile 0).life = .running ∧ ((s .draining r .member).tile 0).dbg.stepping = false ∧
      0 ∉ yokeMembers (s .draining r .member) 0 2) ∧
    (∀ e ∈ [1, 2], let b : Blk := { done := true, ends := e, next := some 9 }
      mayCommit ((leading { st := .yoked, blocks := true, win := [b] } {} []).tile 0) = true) := by decide

/-- Header words at 0 and 2 and none at 4; a window of no, some and four blocks of the header's member. -/
theorem witness_YokeBlockEvents_start :
    let m : FMap W32 := [(0, 0xF8681400), (1, 0xFFFFFFFE), (2, 0xF8681400), (3, 0xFFFFFFFE)]
    let s (n : Nat) : State := leading { st := .yoked, n := 2, blocks := true, win := List.replicate n {} } { imem := m, coden := 5 } []
    (∀ n ∈ [0, 3], opensBlock ((s n).tile 0) 0 = true ∧ (∀ b ∈ ((s n).tile 0).yk.win, b.serial = false ∧ b.ends = 0) ∧
      (((s n).tile 0).yk.win.filter fun b => blkMember 2 b.hdr == blkMember 2 0).length < 4) ∧
    (((s 4).tile 0).yk.win.filter fun b => blkMember 2 b.hdr == blkMember 2 0).length = 4 ∧
    opensBlock ((s 0).tile 0) 2 = true ∧ opensBlock ((s 0).tile 0) 4 = false := by decide

/-- Register 31 at block 1: from its home, from block 0, and not yet. -/
theorem witness_YokeBlockEvents_operand :
    let o (d : Bool) (m : Nat) : Blk := { read := true, done := d, gmask := m, arr := [(31, true)] }
    let w (d : Bool) (m : Nat) : List Blk := [o d m, { hdr := 2 }]
    (∀ d ∈ [true, false], ∀ m ∈ [0, 2 ^ 31],
      elemAt (w d m) 1 = some { hdr := 2 } ∧ (((w d m).take 1).any fun o => !o.read) = false ∧
      (((w d m).take 1).filter fun o => blkWrites o 31).getLast? = (if m = 0 then none else some (o d m)) ∧ (o d m).trap = none ∧
      NSet.mem (o d m).arr 31 = true) ∧ 31 ∈ ringRegs ∧ NSet.mem ({ hdr := 2 } : Blk).arr 31 = false := by decide

theorem witness_YokeBlockEvents_resolve :
    let m : FMap W32 := [(2, 0xF8681400), (3, 0xFFFFFFFE)]
    let x (g a e : Nat) : Blk := { done := true, pred := some g, next := some a, ends := e }
    let u : Tile := { imem := m, coden := 5 }
    (∀ g ∈ [2, 4], ∀ a ∈ [2, 4], ∀ e ∈ [0, 1], (x g a e).done = true ∧ (x g a e).trap = none ∧ (x g a e).pred = some g ∧ (x g a e).next = some a) ∧
    opensBlock u 2 = true ∧ opensBlock u 4 = false := by decide

theorem witness_YokeBlockEvents_commit :
    let b (l : List Eff) : Blk := { done := true, gmask := 2, arr := [(1, true)], regs := { g := [(1, 5)] }, effs := l }
    let s (l : List Eff) : State := leading { st := .yoked, n := 2, blocks := true, win := [b l] } {} [(1, { place := some 1 })]
    (∀ l ∈ [[], [Eff.write 1 [(0x1FFFFF, [7])] true]], mayCommit ((s l).tile 0) = true ∧ ((s l).tile 0).dbg.stepping = false) ∧
    mayCommit ((leading { st := .yoked } {} []).tile 0) = false := by decide

/-! ## Boot, service and debug -/

/-- A device that is Ready, with context 1 of function 3 in a state. -/
def ready (x : Ctx) : State := { ctxs := [(1, { x with func := 3, debugOk := true })], svc := { boot := .ready } }

theorem witness_MailboxRules :
    let m (f : Nat) : Mbx := { func := f, ops := [9] }
    let s (b : BootSt) (n : Nat) : State := { svc := { boot := b, mailboxes := [(0, { bell := n })] } }
    (s .off 0).svc.boot = .off ∧ 64 ≤ (m 64).func ∧ ((mailboxOf (s .ready 1) 0).bell = 1 ∧ (mailboxOf (s .ready 1) 0).req ≠ some (m 0)) ∧
    ((s .recovery 0).svc.boot = .recovery ∧ (mailboxOf (s .recovery 0) 0).bell ≠ 1 ∧ (mailboxOf (s .recovery 0) 63).bell ≠ 1) ∧
    wordsGood { m 0 with low := 4 } = false ∧ wordsGood { m 0 with high := 1 } = false ∧ wordsGood { m 0 with zeros := 1 } = false ∧ wordsGood (m 0) = true ∧
    Fresh (m 0) (s .ready 0) ∧ Fresh (m 63) (s .ready 0) ∧ (m 0).ops ≠ [] ∧ Fresh { func := 0 } (s .ready 2) ∧
    (mailboxOf (s .ready 2) 0).bell = 2 ∧ (mailboxOf (s .ready 0) 0).bell ≠ 2 := by decide

/-- A Ready device with tables whose first 1 GiB is one pinned page, and CTX_CREATE of one cluster with its save area at an address. -/
def creatable : State := { space 0x2F {} with ctxs := [], fab := { hbm := (space 0x2F {}).fab.hbm ++ [(0x300C, 4)] }, svc := { boot := .ready } }
def creating (v : Nat) : Mbx := { ops := [0x10000, 0x1000, v, 0, 0x60001, 0, 0, 0, 0, 0, 0, 0, 0] }

set_option maxRecDepth 20000 in
theorem creatable_walk (va : Nat) (h : va < 2 ^ 30) : walkFrom creatable va levels 0x1000 = walkFrom creatable 0 levels 0x1000 := by
  have h1 : va / 2 ^ 48 % 2 ^ 8 = 0 := by omega
  have h2 : va / 2 ^ 39 % 2 ^ 9 = 0 := by omega
  have h3 : va / 2 ^ 30 % 2 ^ 9 = 0 := by omega
  have h0 (n m : Nat) : 0 / n % m = 0 := by rw [Nat.zero_div, Nat.zero_mod]
  have a1 : creatable.fab.hbm.le (devKey creatable 0x1000) 8 = 1 := by decide
  have a2 : creatable.fab.hbm.le (devKey creatable 0x1000 + 8) 8 = 0x2000 := by decide
  have b1 : creatable.fab.hbm.le (devKey creatable 0x2000) 8 = 1 := by decide
  have b2 : creatable.fab.hbm.le (devKey creatable 0x2000 + 8) 8 = 0x3000 := by decide
  have c1 : creatable.fab.hbm.le (devKey creatable 0x3000) 8 = 0x2F := by decide
  have t2 : bits 0x2000 39 0 = 0x2000 := by decide
  have t3 : bits 0x3000 39 0 = 0x3000 := by decide
  simp only [levels, walkFrom, h1, h2, h3, h0, Nat.mul_zero, Nat.add_zero, a1, a2, b1, b2, c1, t2, t3, show bit 1 0 = true from rfl,
    show bit 0x2F 0 = true from rfl, show bit 0x2F 5 = true from rfl, Bool.not_true, if_true, Bool.false_eq_true, if_false]

theorem creatable_pinned : pinnedW creatable 0x1000 0 (saveSize 0) = true := by
  refine List.all_eq_true.mpr fun e he => ?_
  have hlt : e.1 < 2 ^ 30 := by
    obtain ⟨j, hj, rfl⟩ := List.mem_map.mp he
    have := List.mem_range.mp hj
    simp only [saveSize] at this
    refine Nat.max_lt.mpr ⟨by omega, ?_⟩
    omega
  rw [creatable_walk e.1 hlt]
  decide

set_option maxRecDepth 20000 in
theorem witness_ContextRequests_create :
    Fresh (creating 0) creatable ∧ (creating 0).ops.length = 13 ∧ createZero (creating 0) = true ∧ createOk creatable (creating 0) = true ∧
    freeCtxSlot creatable 0 = some 0 ∧ createZero (creating 1) = true ∧ createOk creatable (creating 1) = false ∧
    createZero (creating (2 ^ 56)) = false := by
  refine ⟨by decide, by decide, by decide, ?_, by decide, by decide, by decide, by decide⟩
  show (true && true && true && pinnedW creatable 0x1000 0 (saveSize 0) && true && true && true && true && true && true && true) = true
  rw [creatable_pinned]
  rfl

theorem witness_ContextRequests_free (s : State) (h : s.ctxs = []) : freeCids s ≠ [] := by
  refine List.ne_nil_of_mem (a := 1) (List.mem_filter.mpr ⟨List.mem_map.mpr ⟨0, List.mem_range.mpr (by omega), rfl⟩, ?_⟩)
  unfold State.ctx
  rw [h]
  rfl

set_option maxRecDepth 20000 in
theorem witness_ContextRequests_named :
    let m (f : Nat) (l : List Nat) : Mbx := { func := f, ops := l }
    (∀ st ∈ [CtxSt.residentIdle, .residentRunning, .preempting, .savedHeld, .savedStored, .restoring, .faulted, .created], ∀ f ∈ [0, 3],
      Fresh (m f [1]) (ready { st := st }) ∧
      Again (m f [1]) { ready { st := st } with svc := { boot := .ready, mailboxes := [(f, { bell := 1, req := some (m f [1]) })] } } ∧
      mayName (ready { st := st }) f 1 = true ∧
      ((ready { st := st }).ctx 1).st = st ∧ ((ready { st := st }).ctx 1).evicted = [] ∧ checkpointed (ready { st := st }) 1 = false ∧
      fullHouse (ready { st := st }) = false) ∧
    (m 0 [1]).ops.length = 1 ∧ bits (op (m 0 [1]) 0) 63 12 = 0 ∧ mayName (ready {}) 0 1 = false ∧ mayName (ready { st := .created }) 4 1 = false ∧
    (let g := m 0 [5 * 2 ^ 16 + 1]
     bits (op g 0) 15 12 = 0 ∧ bits (op g 0) 63 22 = 0 ∧ ((ready { st := .created }).ctx 1).func ≠ bits (op g 0) 21 16 ∧
      freeCtxSlot (ready { st := .created }) 5 = some 0) ∧
    (m 0 [1, 77]).ops.length = 2 := by decide

theorem witness_ServiceRequests_queues :
    let s (x : Queue) : State := ready { st := .residentIdle, queues := [(2, x)] }
    let m (l : List Nat) : Mbx := { func := 3, ops := l }
    let w (n : Nat) : Nat := 1 + 2 * 2 ^ 16 + n * 2 ^ 32
    (∀ n ∈ [3, 4, 16, 17], Fresh (m [w n, 0x1000]) (s {}) ∧ (m [w n, 0x1000]).ops.length = 2 ∧
      (bits (w n) 15 12 = 0 ∧ bits (w n) 23 22 = 0 ∧ bits (w n) 31 26 = 0 ∧ bits (w n) 63 37 = 0 ∧ bits 0x1000 63 56 = 0) ∧ bits (w n) 36 32 = n ∧
      bits (w n) 11 0 = 1 ∧ bits (w n) 21 16 = 2) ∧
    mayName (s {}) 3 1 = true ∧ 0x1000 % 4096 = 0 ∧ 0x1010 % 4096 ≠ 0 ∧
    (∀ st ∈ [QSt.free, .active, .error], (queueOf (s { st := st }) 1 2).st = st ∧ queuePkts (s { st := st }) 1 2 = [] ∧
      queuePkts { s { st := st } with pump := { pkts := [{ cid := 1, q := 2 }] } } 1 2 ≠ []) ∧
    ((s {}).ctx 1).st ≠ .faulted ∧ Fresh (m [w 0]) (s {}) ∧ (m [w 0]).ops.length = 1 ∧ bits (w 0) 15 12 = 0 ∧ bits (w 0) 63 22 = 0 := by decide

theorem witness_ServiceRequests_ports :
    let s (st : WSt) (r : List LinkPkt) : State := { ports := [(7, { st := st, replay := r })], svc := { boot := .ready } }
    let m (w : Nat) : Mbx := { ops := [w] }
    (∀ w ∈ [7, 7 + 2 ^ 8], Fresh (m w) (s .up []) ∧ (m w).ops.length = 1 ∧ bits w 7 3 = 0 ∧ bits w 63 9 = 0 ∧ bits w 2 0 = 7 ∧ bit w 8 = decide (w ≠ 7)) ∧
    (∀ st ∈ [WSt.down, .failed, .degraded, .up], (welim (s st []) 7).st = st ∧ (welim (s st []) 7).replay = [] ∧ (welim (s st [{}]) 7).replay ≠ []) ∧
    bits 7 63 3 = 0 ∧ ((s .up []).svc.ceiling = 2200 ∧ (1200 ≤ 2200 ∧ 2200 ≤ (s .up []).svc.ceiling) ∧ (s .up []).svc.ceiling < 2201 ∧ 1199 < 1200) ∧
    (let f : Mbx := { ops := [8, 5] }
     2 ≤ f.ops.length ∧ f.ops.length ≤ 247 ∧ op f 0 % 8 = 0 ∧ 9 % 8 ≠ 0) := by decide

theorem witness_BootAndPower :
    let b : BootIn := {}
    (b.edTable = true ∧ b.mlTable = true ∧ b.edImage = true ∧ b.mlImage = true ∧ ({} : State).svc.minVersion ≤ b.version ∧ b.tableOk = true ∧
      b.widths.length = 4 ∧ (∀ w ∈ b.widths, 4 ≤ w ∧ w ≤ 16) ∧ 1200 ≤ b.ceiling ∧ b.ceiling ≤ 2200 ∧ rolesGood b = true ∧ b.healthy % 4096 = 4095) ∧
    roleTile b 2049 = true ∧ rolesGood { b with roles := [] } = false ∧
    ({ b with healthy := 4094 } : BootIn).healthy % 4096 ≠ 4095 ∧
    (let s : State := {}
     s.svc.limit < 2201 ∧ 2200 ≤ s.svc.limit ∧ s.svc.dvfs ≤ 1600 ∧ 600 ≤ s.svc.volts ∧ s.svc.volts ≤ 750 ∧ 105 ≤ 105 ∧ ¬ 105 ≤ 104 ∧ 114 < 115) := by decide

/-- R415: with nothing fused the digests are those of no byte, by R384's function; a newer minimum refuses version 0. -/
theorem witness_BootAndPower_signed :
    let b : BootIn := {}
    (({} : State).svc.rootDigests = (sha3 b.edKey, sha3 b.mlKey)) ∧ ¬ ({ svc := { minVersion := 1 } } : State).svc.minVersion ≤ b.version := by
  decide +kernel

/-- Cluster 1 in use, off, and idle. -/
theorem witness_BootAndPower_clusters :
    let s (t : Tile) : State := { tiles := (List.range 16).map fun k => (16 + k, t), svc := { boot := .ready } }
    (∀ q, q / 16 = 20 / 16 → ((s { place := some 0 }).tile q).place ≠ none) ∧
    (∀ q, q / 16 = 20 / 16 → ((s {}).tile q).place = none ∧ ((s {}).tile q).life = .off) ∧
    (∀ q, q / 16 = 20 / 16 → ((s { life := .idle }).tile q).place = none ∧ ((s { life := .idle }).tile q).life = .idle) ∧
    FMap.get [] (s {}).fab.trace (20 / 16) = [] := by
  have h : ∀ (P : Nat → Prop), (∀ k, k < 16 → P (16 + k)) → ∀ q, q / 16 = 20 / 16 → P q := by
    intro P hP q hq
    have := hP (q - 16) (by omega)
    rwa [Nat.add_sub_cancel' (by omega)] at this
  exact ⟨h _ (by decide), h _ (by decide), h _ (by decide), by decide⟩

theorem witness_DebugRequests_context :
    let s (d : Bool) : State := { ctxs := [(1, { st := .residentIdle, func := 3, debugOk := d })], svc := { boot := .ready } }
    let m (f : Nat) : Mbx := { func := f, ops := [1] }
    Fresh (m 3) (s true) ∧ (m 3).ops.length = 1 ∧ bits (op (m 3) 0) 63 12 = 0 ∧ mayName (s true) 4 1 = false ∧ mayName (s true) 3 1 = true ∧
    ((s false).ctx 1).debugOk = false ∧ (m 3).func ≠ 0 ∧ mayName (s false) 0 1 = true ∧ ((s true).ctx 1).debugOk = true ∧ tilesOf (s true) 1 = [] := by
  decide

theorem witness_DebugRequests_tile :
    let t (l : Life) : Tile := { life := l, place := some 5, sys := { cid := 1 }, dbg := { suspended := true },
                                 task := { recs := [(0, { run := true })] } }
    let s (l : Life) : State := { ready { st := .residentRunning } with tiles := [(0, t l)] }
    let m (l : List Nat) : Mbx := { func := 3, ops := 5 :: l }
    (∀ l ∈ [[], [8], [0, 1]], Fresh (m l) (s .stopped) ∧ (m l).ops.length = l.length + 1 ∧ op (m l) 0 = 5) ∧
    tileAt (s .stopped) 3 6 = none ∧ tileAt (s .stopped) 3 5 = some 0 ∧ (s .stopped).ctx 1 = { st := .residentRunning, func := 3, debugOk := true } ∧
    clusterTiles (s .stopped) 0 = [0] ∧ ((s .stopped).tile 0).life = .stopped ∧ ((s .stopped).tile 0).dbg.suspended = true ∧
    ((s .running).tile 0).life ≠ .stopped ∧ bit (2 ^ 63 + 3) 63 = true ∧ sysAssigned (bits (2 ^ 63 + 3) 62 0) = true ∧ ctlOk 8 = true ∧
    ctlOk 0x307F8 = true ∧ bits (2 ^ 63 + 0x2F) 62 0 = 0x2F ∧ sysAssigned 0x34 = true ∧ sysLimit (t .stopped) 0x34 16 = false ∧ 0x20 ≤ 0x34 ∧
    (1 ≤ 65535 ∧ 65535 ≤ 65535 ∧ 0 < 128) ∧ ((t .stopped).task.recs.find? fun e => e.1 == 0) = some (0, { run := true }) := by decide

set_option maxRecDepth 20000 in
theorem witness_DebugRequests_trace :
    let s : State := { space 0x2F { st := .residentIdle, debugOk := true } with svc := { boot := .ready, mailboxes := [(0, { att := some 1 })] } }
    let m : Mbx := { ops := [0x20000, 16, 1] }
    Fresh m s ∧ m.ops.length = 3 ∧ (mailboxOf s 0).att = some 1 ∧ (mailboxOf s 1).att = none ∧ mayName s 0 1 = true ∧ (s.ctx 1).debugOk = true ∧ mappedW s 1 0x20000 (64 + 2 ^ 16) = true ∧
    mappedW s 1 (2 ^ 30) (64 + 2 ^ 16) = false := by decide

theorem witness_DebugEvents :
    let t (l : Life) : Tile := { life := l, dbg := { watch := some (1, 1, 8) }, sys := { wpc := [(3, 0x10000)], cid := 1 } }
    (bit (FMap.get 0 (t .idle).sys.wpc 3).toNat 16 = true ∧ ((on (t .idle)).ctx 1).attached = false) ∧ watchTile (on (t .running)) 0 = 0 ∧
    (let y : State := { tiles := [(0, { life := .running, resident := true, place := some 0, sys := { cid := 1 } }),
                                  (1, { life := .member, resident := true, place := some 1, sys := { cid := 1 }, yk := { st := .yoked, idx := 1 } })] }
     watchTile y 1 = 0 ∧ (y.tile 0).life = .running ∧ (y.tile 0).dbg.watch = none ∧ bit (FMap.get 0 (y.tile 1).sys.wpc 3).toNat 16 = false) ∧ (on {}).t.dbg.watch = none ∧
    (∀ l ∈ [Life.idle, .running, .member, .saving, .restoring], ((on (t l)).tile 0).life = l ∧ pinned (t l) = false ∧ (t l).yk.st = .single ∧
      (t l).yk.blocks = false ∧ (t l).pend.stop = false) ∧
    (({ on (t .idle) with fab := { net := [{ kind := .stop, dst := 0 }] } } : State).fab.net.any fun m => m.kind == .stop && m.dst == 0) = true ∧
    (∀ b ∈ [true, false], let s : State := { tiles := [(5, { place := some 0, sys := { cid := 1 } })], ctxs := [(1, { traceOn := b })],
                                             fab := { trace := [(0, [[1], [2]])] } }
      FMap.get [] s.fab.trace (5 / 16) = [[1], [2]] ∧ (s.ctx (traceCtx s 5 [1])).traceOn = b) ∧
    (let g : Tile := { life := .idle, pend := { gate := true } }; mayGate g = true ∧ g.pend.gate = true) := by decide

/-! ## The machine -/

theorem witness_GuardFalse :
    guardOf 7 false (on {}) = false ∧ guardOf 0 true (on {}) = false ∧ sysAssigned (6 * 32 + 7) = false ∧ sysAssigned 0x22 = true ∧
    (((on {}).t.bun.addr + (on {}).t.bun.len : Nat) : Int) ≤ ((on {}).t.bun.addr : Int) + 1 := by decide

set_option maxRecDepth 20000 in
/-- A tile about to issue the bundle at 0: one syllable, one that decodes to nothing, one beyond the allotments, none that ends. -/
theorem witness_StepRunsDecoded :
    let u (w : W32) : Tile := { life := .running, imem := [(0, w)], coden := 1 }
    (∀ w ∈ [0x800014C7, 0x800F0000, 0xB00034C7], let t := u (BitVec.ofNat 32 w)
      threadRuns t = true ∧ atHeader t = false ∧ fetchBad t 0 = false ∧ syllables t 0 = ([(w, 0)], true) ∧ bundleIll 0 [(w, 0)] true false = none) ∧
    (u 0).async = [] ∧ (u 0).wait = [] ∧ (u 0).dbg.watch = none ∧
    (decode 0x800014C7 0 = .ok (.add { e := true, d := 5, a := 6, b := 7 }) ∧
      regBad (u 0) (uses (.add { e := true, d := 5, a := 6, b := 7 })) = false) ∧
    decode 0x800F0000 0 = .error .unassigned ∧
    (decode 0xB00034C7 0 = .ok (.vadd { e := true, d := 13, a := 6, b := 7 }) ∧
      regBad (u 0) (uses (.vadd { e := true, d := 13, a := 6, b := 7 })) = true) ∧
    (let l := List.replicate 16 (0, 0)
     syllables (u 0) 0 = (l, false) ∧ bundleIll 0 l false false ≠ none) ∧
    (Instr.syncLoss).isSyllable = false ∧ followsOnly (.syncLoss) = false ∧ (on {}).t.life ≠ .running ∧ (on {}).t.yk.blocks = false := by
  refine ⟨by decide +kernel, rfl, rfl, rfl, ⟨rfl, by decide +kernel⟩, rfl, ⟨rfl, by decide +kernel⟩, by decide +kernel, rfl, rfl, by decide, rfl⟩

theorem witness_StepRunsDecoded_end :
    (on { bun := { live := true } }).t.bun.live = true ∧ (on {}).t.bun.live = false ∧ (on { wait := [(0, .yoke)] }).t.wait ≠ [] ∧
    (on { bun := { live := true, trap := some (0, {}) } }).t.bun.trap = some (0, {}) := by decide

theorem witness_EncodeDecodeRoundTrip :
    (let i : Instr := .add { e := true, g := 2, m := 1, d := 5, a := 6, b := 7 }
     i.isSyllable = true ∧ i.wf = true ∧ i.legal = true) ∧ decode 0x824014C7 0 = .ok (.add { e := true, g := 2, m := 1, d := 5, a := 6, b := 7 }) :=
  ⟨⟨rfl, by decide, by decide⟩, rfl⟩

/-- A device with bytes in a tile's SRAM whose next step stores another. -/
theorem witness_MemoryStaysCanonical :
    let s := ({ tiles := [(0, { sram := [(0x100C, 1)] })] } : State).withFetchWord 32 0xA04D4DFB
    (∀ p, p < 4 → Memory.wf (s.tile p).sram = true) ∧ Memory.wf s.fab.hbm = true ∧ Memory.wf s.svc.flash = true ∧ (∃ t, step s = .next t) :=
  ⟨by decide, by decide, by decide, ⟨_, rfl⟩⟩

/-! ## Single steps, with values worked out from the spec's words -/

/-- Tile 0 after it has run the bundle of one word at its pc. -/
noncomputable def after (w : Nat) (t : Tile) : Tile :=
  match step ((on t).withFetchWord 32 w) with
  | .next s => s.tile 0
  | _ => {}

/-- Registers by number. -/
def gs (l : FMap W64) : Tile := { regs := { g := l } }

/-- R73, R74: add g5, g6, g7 wraps at 64 bits, and add.w at 32 with its result sign-extended. -/
theorem test_add_wraps : FMap.get 0 (after 0x800014C7 (gs [(6, 0xFFFFFFFFFFFFFFFF), (7, 3)])).regs.g 5 = 2 := rfl
theorem test_addw_extends : FMap.get 0 (after 0x804014C7 (gs [(6, 0x100000007FFFFFFF), (7, 1)])).regs.g 5 = 0xFFFFFFFF80000000 := rfl

/-- R82: div g5, g6, g7 by zero gives all ones; the most negative number by −1 gives itself. -/
theorem test_div_zero : FMap.get 0 (after 0x900194C7 (gs [(6, 9)])).regs.g 5 = 0xFFFFFFFFFFFFFFFF := rfl
theorem test_div_most_negative :
    FMap.get 0 (after 0x900194C7 (gs [(6, 0x8000000000000000), (7, 0xFFFFFFFFFFFFFFFF)])).regs.g 5 = 0x8000000000000000 := rfl

/-- R84: call −3 at word 5 goes to word 2 and links word 6. -/
theorem test_call : (let t := after 0x980FFFFD { pc := 5 }; (t.pc, FMap.get 0 t.regs.g 1)) = (2, 6) := rfl

/-- R129: stw g21, g6, −5 stores the low four bytes at g6 − 20, the lowest byte first; ldh g21, g6, −5 extends the sign of two at g6 − 10. -/
theorem test_stw : (after 0xA04D4DFB (gs [(6, 0x1020), (21, 0x1122334455667788)])).sram = [(0x100C, 0x88), (0x100D, 0x77), (0x100E, 0x66), (0x100F, 0x55)] :=
  rfl
theorem test_ldh :
    FMap.get 0 (after 0xA0154DFB { regs := { g := [(6, 0x1020)] }, sram := [(0x1016, 0xFE), (0x1017, 0xFF)] }).regs.g 21 = 0xFFFFFFFFFFFFFFFE := rfl

/-- R141: vadd.i32 wraps, lane by lane. -/
theorem test_vadd :
    (let t := after 0xB06014C7 { regs := { v := [(16 * 6, 1), (16 * 6 + 15, 0x7FFFFFFF), (16 * 7, 2), (16 * 7 + 15, 1)] } }
     (FMap.get 0 t.regs.v (16 * 5), FMap.get 0 t.regs.v (16 * 5 + 15))) = (3, 0x80000000) := rfl

/-- R91, R65: trap with code 215 at position 0; a word that is no instruction. -/
theorem test_trap : (after 0xE80100D7 {}).sys.faultc = 0x00D700000000000D := rfl
theorem test_illegal : (after 0x800F0000 {}).sys.faultc = 0x0000000000000001 := rfl

set_option maxRecDepth 20000 in
/-- R225: tend ends the running task. -/
theorem test_tend : (let t := after 0xD8020000 {}; (t.life, t.task.recs)) = (.idle, []) := rfl

/-- Moves whose place in the cycle is over: all of them, where the cycle's last has gone by; and a thread that has issued (R189). -/
theorem witness_StepRunsDecoded_order :
    let s : State := { phase := 3, choices := [0], issued := NSet.add [] 5 }
    s.agenda = [] ∧ (∀ a, phaseOf a < s.phase) ∧ threadNo (.thread 5) = some 5 ∧ NSet.mem s.issued 5 = true ∧ 0 < passing s (Config.pick s.picks) ∧
    ({} : Tile).task.run.fresh = false := by
  have h : ∀ a, phaseOf a < 3 := by
    intro a
    cases a <;> simp [phaseOf]
    split <;> omega
  refine ⟨rfl, h, rfl, by decide, ?_, rfl⟩
  unfold passing
  rw [decide_eq_true (h _), Bool.true_or, if_pos rfl]
  exact Nat.lt_of_lt_of_le Nat.zero_lt_one (Nat.le_max_right _ _)

end Sys2Proof.Tests
end

namespace Sys2Proof.Machine

/-! ## Operands and results at the width W selects (R73) -/

/-- R8's SignExtend is the signed reading of the low bits. -/
theorem sext_eq_toInt (x n : Nat) : sext x n = (BitVec.ofNat n x).toInt := by
  cases n with
  | zero => simp [sext, BitVec.of_length_zero]
  | succ n =>
    have h : 2 * 2 ^ n = 2 ^ (n + 1) := by rw [Nat.pow_succ']
    have hlt : x % 2 ^ (n + 1) < 2 ^ n ↔ 2 * (x % 2 ^ (n + 1)) < 2 ^ (n + 1) := by omega
    rw [sext, BitVec.toInt_eq_toNat_cond, BitVec.toNat_ofNat, if_neg n.succ_ne_zero, Nat.add_sub_cancel]
    simp only [hlt, Int.natCast_pow, Int.cast_ofNat_Int]

/-- The operands of the statements are the model's, cut to the width. -/
theorem opU_eq (m : Nat) (a : W64) : opU m a = (a.setWidth (wid m)).toNat := by
  rw [opU, BitVec.toNat_setWidth]

theorem opS_eq (m : Nat) (a : W64) : opS m a = (a.setWidth (wid m)).toInt := by
  rw [opS, sext_eq_toInt, BitVec.ofNat_toNat]

theorem ofNat_wrapN (n : Nat) (z : Int) : BitVec.ofNat n (wrapN n z) = BitVec.ofInt n z := by
  apply BitVec.eq_of_toNat_eq
  have h : 0 < (2 : Int) ^ n := Int.pow_pos (by decide)
  have hlt : (z % 2 ^ n).toNat < 2 ^ n := by
    rw [Int.toNat_lt (Int.emod_nonneg z (Int.ne_of_gt h)), Int.natCast_pow]
    exact Int.emod_lt_of_pos z h
  rw [BitVec.toNat_ofNat, BitVec.toNat_ofInt, wrapN, Nat.mod_eq_of_lt hlt, Int.natCast_pow, Int.cast_ofNat_Int]

theorem resW_eq (m : Nat) (z : Int) : resW m z = (BitVec.ofInt (wid m) z).signExtend 64 := by
  rw [resW, sext_eq_toInt, ofNat_wrapN, BitVec.signExtend]

/-- A form of three operands: where its operation computes `z` modulo 2^width, its result is `resW` of `z`. -/
theorem ite_width_eq_resW {m : Nat} {f : (k : Nat) → BitVec k → BitVec k → BitVec k → BitVec k} {d a b : W64} {z : Int}
    (h : f (wid m) (d.setWidth (wid m)) (a.setWidth (wid m)) (b.setWidth (wid m)) = BitVec.ofInt (wid m) z) :
    (if m = 1 then sx32 (f 32 (lo32 d) (lo32 a) (lo32 b)) else f 64 d a b) = resW m z := by
  rw [resW_eq, ← h]
  by_cases hm : m = 1
  · subst hm; rfl
  · rw [if_neg hm, wid, if_neg hm, BitVec.setWidth_eq, BitVec.setWidth_eq, BitVec.setWidth_eq, BitVec.signExtend_eq]

theorem atW_eq_resW {m : Nat} {f : (k : Nat) → BitVec k → BitVec k → BitVec k} {a b : W64} {z : Int}
    (h : f (wid m) (a.setWidth (wid m)) (b.setWidth (wid m)) = BitVec.ofInt (wid m) z) : atW m f a b = resW m z :=
  ite_width_eq_resW (f := fun k _ => f k) (d := 0) h

theorem relW_eq (m : Nat) (f : (k : Nat) → BitVec k → BitVec k → Bool) (a b : W64) :
    relW m f a b = f (wid m) (a.setWidth (wid m)) (b.setWidth (wid m)) := by
  by_cases hm : m = 1
  · subst hm; rfl
  · rw [relW, if_neg hm, wid, if_neg hm, BitVec.setWidth_eq, BitVec.setWidth_eq]

/-! ## Guarded register writes -/

/-- An instruction whose meaning is one guarded write of g[d]: what is left to show is the value. -/
theorem setsG_of_exec {i : Instr} {s : State} {g d : Nat} {n : Bool} {v : State → W64} {w : W64} (hg : GuardOn g n s)
    (hm : maskedG s d = false) (he : exec i s = .next (guarded g n (fun s => wg d (v s) s) s)) (hv : v s = w) : SetsG i s d w := by
  rw [guarded_on _ hg, hv] at he
  exact ⟨_, he, wg_spec d w s hm⟩

theorem setsP_of_exec {i : Instr} {s : State} {g d : Nat} {n : Bool} {v : State → Bool} {w : Bool} (hg : GuardOn g n s)
    (hd : d < 8) (he : exec i s = .next (guarded g n (fun s => wp d (v s) s) s)) (hv : v s = w) : SetsP i s d w := by
  rw [guarded_on _ hg, hv] at he
  exact ⟨_, he, wp_spec d w s hd⟩

section
variable {i : Instr} {s : State} {x : R}

theorem setsG_of_alu {f : (k : Nat) → BitVec k → BitVec k → BitVec k} {z : Int} (hg : GuardOn x.g x.n s) (hm : maskedG s x.d = false)
    (he : exec i s = .next (alu x f s))
    (h : f (wid x.m) ((rg s x.a).setWidth (wid x.m)) ((rg s x.b).setWidth (wid x.m)) = BitVec.ofInt (wid x.m) z) :
    SetsG i s x.d (resW x.m z) :=
  setsG_of_exec hg hm he (atW_eq_resW h)

theorem setsP_of_cmp {f : (k : Nat) → BitVec k → BitVec k → Bool} {v : Bool} (hg : GuardOn x.g x.n s) (hd : x.d < 8)
    (he : exec i s = .next (cmp x f s))
    (h : f (wid x.m) ((rg s x.a).setWidth (wid x.m)) ((rg s x.b).setWidth (wid x.m)) = v) : SetsP i s x.d v :=
  setsP_of_exec hg hd he ((relW_eq ..).trans h)

end

/-! ## The operations over the integers (R74, R75) -/

section
variable {k : Nat} (a b : BitVec k)

theorem add_eq_ofInt : a + b = BitVec.ofInt k (a.toNat + b.toNat) := by
  simp [BitVec.ofInt_add]

theorem sub_eq_ofInt : a - b = BitVec.ofInt k (a.toInt - b.toInt) := by
  simp [Int.sub_eq_add_neg, BitVec.ofInt_add, BitVec.ofInt_neg, BitVec.sub_eq_add_neg]

theorem mul_eq_ofInt : a * b = BitVec.ofInt k (a.toNat * b.toNat : Nat) := by
  simp [BitVec.ofInt_mul]

theorem and_eq_ofInt : a &&& b = BitVec.ofInt k (Nat.land a.toNat b.toNat) := by
  rw [BitVec.ofInt_natCast]
  exact BitVec.eq_of_toNat_eq (by simp)

theorem or_eq_ofInt : a ||| b = BitVec.ofInt k (Nat.lor a.toNat b.toNat) := by
  rw [BitVec.ofInt_natCast]
  exact BitVec.eq_of_toNat_eq (by simp)

theorem xor_eq_ofInt : a ^^^ b = BitVec.ofInt k (Nat.xor a.toNat b.toNat) := by
  rw [BitVec.ofInt_natCast]
  exact BitVec.eq_of_toNat_eq (by simp)

theorem andn_eq_ofInt : a &&& ~~~b = BitVec.ofInt k (Nat.land a.toNat (2 ^ k - 1 - b.toNat)) := by
  rw [and_eq_ofInt, BitVec.toNat_not]

theorem orn_eq_ofInt : a ||| ~~~b = BitVec.ofInt k (Nat.lor a.toNat (2 ^ k - 1 - b.toNat)) := by
  rw [or_eq_ofInt, BitVec.toNat_not]

theorem fShl_eq : fShl k a b = BitVec.ofInt k (a.toNat * 2 ^ (b.toNat % k) : Nat) := by
  rw [BitVec.ofInt_natCast]
  exact BitVec.eq_of_toNat_eq (by simp [fShl, Nat.shiftLeft_eq])

theorem fShr_eq : fShr k a b = BitVec.ofInt k (a.toNat / 2 ^ (b.toNat % k) : Nat) := by
  rw [BitVec.ofInt_natCast]
  apply BitVec.eq_of_toNat_eq
  have h : a.toNat / 2 ^ (b.toNat % k) < 2 ^ k := Nat.lt_of_le_of_lt (Nat.div_le_self ..) a.isLt
  simp [fShr, Nat.shiftRight_eq_div_pow, Nat.mod_eq_of_lt h]

theorem fSar_eq : fSar k a b = BitVec.ofInt k (a.toInt / 2 ^ (b.toNat % k)) := by
  simp [fSar, BitVec.sshiftRight, Int.shiftRight_eq_div_pow]

/-- A rotation's two parts share no bit, so that their sum stands for their OR. -/
theorem rotate_toNat {k n x : Nat} (hn : n ≤ k) (hx : x < 2 ^ k) :
    x >>> n ||| x <<< (k - n) % 2 ^ k = (x / 2 ^ n + x * 2 ^ (k - n)) % 2 ^ k := by
  have hk : 2 ^ k = 2 ^ (k - n) * 2 ^ n := by rw [← Nat.pow_add, Nat.sub_add_cancel hn]
  have hlo : x / 2 ^ n < 2 ^ (k - n) := by rw [Nat.div_lt_iff_lt_mul (Nat.two_pow_pos n), ← hk]; exact hx
  have hhi : x <<< (k - n) % 2 ^ k = 2 ^ (k - n) * (x % 2 ^ n) := by
    rw [Nat.shiftLeft_eq, Nat.mul_comm, hk, Nat.mul_mod_mul_left]
  have hlt : x / 2 ^ n ||| 2 ^ (k - n) * (x % 2 ^ n) < 2 ^ k := by
    rw [← hhi]
    exact Nat.or_lt_two_pow (Nat.lt_of_le_of_lt (Nat.div_le_self ..) hx) (Nat.mod_lt _ (Nat.two_pow_pos k))
  calc x >>> n ||| x <<< (k - n) % 2 ^ k
      = x / 2 ^ n ||| 2 ^ (k - n) * (x % 2 ^ n) := by rw [hhi, Nat.shiftRight_eq_div_pow]
    _ = (x / 2 ^ n + 2 ^ (k - n) * (x % 2 ^ n)) % 2 ^ k := by
        rw [Nat.add_comm, Nat.two_pow_add_eq_or_of_lt hlo, Nat.or_comm _ (x / 2 ^ n), Nat.mod_eq_of_lt hlt]
    _ = (x / 2 ^ n + x * 2 ^ (k - n)) % 2 ^ k := by rw [← hhi, Nat.shiftLeft_eq, Nat.add_mod_mod]

theorem fRor_eq : fRor k a b =
    BitVec.ofInt k (a.toNat / 2 ^ (b.toNat % k) + a.toNat * 2 ^ (k - b.toNat % k) : Nat) := by
  cases k with
  | zero => exact Subsingleton.elim _ _
  | succ k =>
    have h : b.toNat % (k + 1) < k + 1 := Nat.mod_lt _ k.succ_pos
    rw [BitVec.ofInt_natCast]
    apply BitVec.eq_of_toNat_eq
    rw [fRor, BitVec.toNat_rotateRight, Nat.mod_mod, BitVec.toNat_ofNat, rotate_toNat (Nat.le_of_lt h) a.isLt]

theorem fMin_eq : fMin k a b = BitVec.ofInt k (if a.toInt < b.toInt then a.toInt else b.toInt) := by
  simp only [fMin, BitVec.slt_iff_toInt_lt]; split <;> simp

theorem fMax_eq : fMax k a b = BitVec.ofInt k (if a.toInt < b.toInt then b.toInt else a.toInt) := by
  simp only [fMax, BitVec.slt_iff_toInt_lt]; split <;> simp

theorem fMinN_eq : fMinN k a b = BitVec.ofInt k (if a.toNat < b.toNat then a.toNat else b.toNat : Int) := by
  simp only [fMinN, BitVec.ult_iff_toNat_lt]; split <;> simp

theorem fMaxN_eq : fMaxN k a b = BitVec.ofInt k (if a.toNat < b.toNat then b.toNat else a.toNat : Int) := by
  simp only [fMaxN, BitVec.ult_iff_toNat_lt]; split <;> simp

theorem beq_eq_decide_toNat : (a == b) = decide (a.toNat = b.toNat) := by
  rw [Bool.beq_eq_decide_eq, decide_eq_decide, BitVec.toNat_inj]

theorem bne_eq_decide_toNat : (a != b) = decide (a.toNat ≠ b.toNat) := by
  rw [bne, beq_eq_decide_toNat, decide_not]
end

/-- Settles O1: each form is one guarded write, and its operation computes the table's integer modulo 2^width. -/
theorem aluAndCompareResults : Obligations.AluAndCompareResults := by
  unfold Obligations.AluAndCompareResults
  simp only [opU_eq, opS_eq]
  refine ⟨fun s x hg hm => ⟨?_, ?_, fun h0 => ?_, ?_⟩, fun s x hg => ⟨fun hd => ?_, fun hm => ?_⟩⟩
  · exact setsG_of_alu hg hm rfl (add_eq_ofInt ..)
  · exact setsG_of_alu hg hm rfl (sub_eq_ofInt ..)
  · obtain ⟨e, g, n, m, d, a, b⟩ := x
    dsimp only at h0
    subst h0
    exact ⟨setsG_of_alu hg hm rfl (and_eq_ofInt ..), setsG_of_alu hg hm rfl (or_eq_ofInt ..), setsG_of_alu hg hm rfl (xor_eq_ofInt ..),
      setsG_of_alu hg hm rfl (andn_eq_ofInt ..), setsG_of_alu hg hm rfl (orn_eq_ofInt ..)⟩
  · exact ⟨setsG_of_alu hg hm rfl (fShl_eq ..), setsG_of_alu hg hm rfl (fShr_eq ..), setsG_of_alu hg hm rfl (fSar_eq ..),
      setsG_of_alu hg hm rfl (fRor_eq ..), setsG_of_alu hg hm rfl (fMin_eq ..), setsG_of_alu hg hm rfl (fMax_eq ..),
      setsG_of_alu hg hm rfl (fMinN_eq ..), setsG_of_alu hg hm rfl (fMaxN_eq ..)⟩
  · exact ⟨setsP_of_cmp hg hd rfl (beq_eq_decide_toNat ..), setsP_of_cmp hg hd rfl (bne_eq_decide_toNat ..),
      setsP_of_cmp hg hd rfl BitVec.slt_eq_decide, setsP_of_cmp hg hd rfl BitVec.sle_eq_decide,
      setsP_of_cmp hg hd rfl BitVec.ult_eq_decide, setsP_of_cmp hg hd rfl BitVec.ule_eq_decide,
      setsP_of_exec hg hd rfl rfl, setsP_of_exec hg hd rfl rfl, setsP_of_exec hg hd rfl rfl, setsP_of_exec hg hd rfl rfl,
      setsP_of_exec hg hd rfl (bne_eq_decide_toNat ..)⟩
  · exact setsG_of_exec hg hm rfl (by cases rp s x.a <;> rfl)

/-! ## Immediates (R46, R78, R79) -/

theorem immW_toInt {z : Int} (h1 : -2 ^ 63 ≤ z) (h2 : z < 2 ^ 63) : (immW z).toInt = z :=
  BitVec.toInt_ofInt_eq_self (by decide) h1 h2

theorem immW_toNat {z : Int} (h1 : -2 ^ 63 ≤ z) (h2 : z < 2 ^ 63) :
    (immW z).toNat = if z < 0 then (z + 2 ^ 64).toNat else z.toNat := by
  rw [immW, BitVec.toNat_ofInt]
  split <;> omega

theorem ofNat32_toInt {i : Nat} (h : i < 2 ^ 32) :
    (BitVec.ofNat 32 i).toInt = if i < 2 ^ 31 then (i : Int) else (i : Int) - 2 ^ 32 := by
  have hlt : 2 * i < 2 ^ 32 ↔ i < 2 ^ 31 := by omega
  rw [BitVec.toInt_eq_toNat_cond, BitVec.toNat_ofNat, Nat.mod_eq_of_lt h]
  simp only [hlt, Int.natCast_pow, Int.cast_ofNat_Int]

theorem immL_toInt {i : Nat} (h : i < 2 ^ 32) : (immL i).toInt = if i < 2 ^ 31 then (i : Int) else (i : Int) - 2 ^ 32 := by
  rw [immL, sx32, BitVec.toInt_signExtend_of_le (by decide), ofNat32_toInt h]

theorem immL_toNat {i : Nat} (h : i < 2 ^ 32) : (immL i).toNat = if i < 2 ^ 31 then i else i + (2 ^ 64 - 2 ^ 32) := by
  have hi := immW_toNat (BitVec.le_toInt (immL i)) BitVec.toInt_lt
  rw [immW, BitVec.ofInt_toInt] at hi
  rw [hi, immL_toInt h]
  split <;> split <;> omega

/-! The operations of the immediate forms on an operand `b` that reads `c` unsigned and `z` signed. -/

section
variable {a b : W64} {c : Nat} {z : Int}

theorem add_eq_ofNat (hc : b.toNat = c) : a + b = BitVec.ofNat 64 (a.toNat + c) := by
  simp [← hc, BitVec.ofNat_add]

theorem and_eq_ofNat (hc : b.toNat = c) : a &&& b = BitVec.ofNat 64 (Nat.land a.toNat c) := by
  rw [← hc, ← BitVec.ofInt_natCast, and_eq_ofInt]

theorem or_eq_ofNat (hc : b.toNat = c) : a ||| b = BitVec.ofNat 64 (Nat.lor a.toNat c) := by
  rw [← hc, ← BitVec.ofInt_natCast, or_eq_ofInt]

theorem xor_eq_ofNat (hc : b.toNat = c) : a ^^^ b = BitVec.ofNat 64 (Nat.xor a.toNat c) := by
  rw [← hc, ← BitVec.ofInt_natCast, xor_eq_ofInt]

theorem addw_eq_resW (hz : b.toInt = z) : addw a b = resW 1 (a.toInt + z) := by
  have h : lo32 (a + b) = BitVec.ofInt 32 (a.toInt + b.toInt) := by
    rw [BitVec.ofInt_add, lo32, BitVec.setWidth_add _ _ (by decide), ← BitVec.signExtend_eq_setWidth_of_le a (by decide),
      ← BitVec.signExtend_eq_setWidth_of_le b (by decide)]
    rfl
  rw [addw, h, hz, resW_eq]
  rfl

theorem fShl_eq_ofNat (hc : b.toNat = c) (h : c < 64) : fShl 64 a b = BitVec.ofNat 64 (a.toNat * 2 ^ c) := by
  rw [fShl_eq, hc, Nat.mod_eq_of_lt h, BitVec.ofInt_natCast]

theorem fShr_eq_ofNat (hc : b.toNat = c) (h : c < 64) : fShr 64 a b = BitVec.ofNat 64 (a.toNat / 2 ^ c) := by
  rw [fShr_eq, hc, Nat.mod_eq_of_lt h, BitVec.ofInt_natCast]

theorem fSar_eq_ofInt (hc : b.toNat = c) (h : c < 64) : fSar 64 a b = BitVec.ofInt 64 (a.toInt / 2 ^ c) := by
  rw [fSar_eq, hc, Nat.mod_eq_of_lt h]

theorem beq_eq_decide_of_toNat (hc : b.toNat = c) : (a == b) = decide (a.toNat = c) := by
  rw [beq_eq_decide_toNat, hc]

theorem bne_eq_decide_of_toNat (hc : b.toNat = c) : (a != b) = decide (a.toNat ≠ c) := by
  rw [bne_eq_decide_toNat, hc]

theorem slt_eq_decide_of_toInt (hz : b.toInt = z) : a.slt b = decide (a.toInt < z) := by rw [BitVec.slt_eq_decide, hz]

theorem sle_eq_decide_of_toInt (hz : b.toInt = z) : a.sle b = decide (a.toInt ≤ z) := by rw [BitVec.sle_eq_decide, hz]

theorem ult_eq_decide_of_toNat (hc : b.toNat = c) : a.ult b = decide (a.toNat < c) := by rw [BitVec.ult_eq_decide, hc]

theorem ule_eq_decide_of_toNat (hc : b.toNat = c) : a.ule b = decide (a.toNat ≤ c) := by rw [BitVec.ule_eq_decide, hc]
end

/-- MOVHI.L's halves (R79). -/
theorem append_lo32_eq_ofNat {i : Nat} (d : W64) (h : i < 2 ^ 32) :
    BitVec.ofNat 32 i ++ lo32 d = BitVec.ofNat 64 (i * 2 ^ 32 + d.toNat % 2 ^ 32) := by
  apply BitVec.eq_of_toNat_eq
  have hd : d.toNat % 2 ^ 32 < 2 ^ 32 := Nat.mod_lt _ (by decide)
  rw [BitVec.toNat_append, lo32, BitVec.toNat_setWidth, BitVec.toNat_ofNat, BitVec.toNat_ofNat, Nat.mod_eq_of_lt h,
    ← Nat.shiftLeft_add_eq_or_of_lt hd, Nat.shiftLeft_eq]
  omega

/-- Settles O3: the short and the long forms are one operation each on an immediate whose two readings are known. -/
theorem immediateResults : Obligations.ImmediateResults := by
  unfold Obligations.ImmediateResults
  refine ⟨fun s x hg h1 h2 => ?_, fun s x hg hm _ _ => setsG_of_exec hg hm rfl rfl, fun s x hg h => ?_⟩
  · intro a sa c
    have hc : (immW x.imm).toNat = c := immW_toNat (by omega) (by omega)
    have hz : (immW x.imm).toInt = x.imm := immW_toInt (by omega) (by omega)
    refine ⟨fun hm => ⟨?_, ?_, ?_, ?_, ?_, fun hnonneg hlt64 => ?_⟩, fun hd => ?_⟩
    · exact setsG_of_exec hg hm rfl (add_eq_ofNat hc)
    · exact setsG_of_exec hg hm rfl (and_eq_ofNat hc)
    · exact setsG_of_exec hg hm rfl (or_eq_ofNat hc)
    · exact setsG_of_exec hg hm rfl (xor_eq_ofNat hc)
    · exact setsG_of_exec hg hm rfl (addw_eq_resW hz)
    · have hlt : c < 64 := by simp only [c]; split <;> omega
      exact ⟨setsG_of_exec hg hm rfl (fShl_eq_ofNat hc hlt), setsG_of_exec hg hm rfl (fShr_eq_ofNat hc hlt),
        setsG_of_exec hg hm rfl (fSar_eq_ofInt hc hlt)⟩
    · exact ⟨setsP_of_exec hg hd rfl (beq_eq_decide_of_toNat hc), setsP_of_exec hg hd rfl (bne_eq_decide_of_toNat hc),
        setsP_of_exec hg hd rfl (slt_eq_decide_of_toInt hz), setsP_of_exec hg hd rfl (sle_eq_decide_of_toInt hz),
        setsP_of_exec hg hd rfl (ult_eq_decide_of_toNat hc), setsP_of_exec hg hd rfl (ule_eq_decide_of_toNat hc)⟩
  · intro a sa z c
    have hc : (immL x.imm).toNat = c := immL_toNat h
    have hz : (immL x.imm).toInt = z := immL_toInt h
    refine ⟨fun hm => ⟨?_, ?_, ?_, ?_, ?_, ?_, ?_, fun hlt64 => ?_⟩, fun hd => ?_⟩
    · exact setsG_of_exec hg hm rfl (add_eq_ofNat hc)
    · exact setsG_of_exec hg hm rfl (and_eq_ofNat hc)
    · exact setsG_of_exec hg hm rfl (or_eq_ofNat hc)
    · exact setsG_of_exec hg hm rfl (xor_eq_ofNat hc)
    · exact setsG_of_exec hg hm rfl (addw_eq_resW hz)
    · exact setsG_of_exec hg hm rfl (by rw [← hz, BitVec.ofInt_toInt])
    · exact setsG_of_exec hg hm rfl (append_lo32_eq_ofNat _ h)
    · have hlt : c < 64 := by simp only [c]; split <;> omega
      exact ⟨setsG_of_exec hg hm rfl (fShl_eq_ofNat hc hlt), setsG_of_exec hg hm rfl (fShr_eq_ofNat hc hlt),
        setsG_of_exec hg hm rfl (fSar_eq_ofInt hc hlt)⟩
    · exact ⟨setsP_of_exec hg hd rfl (beq_eq_decide_of_toNat hc), setsP_of_exec hg hd rfl (bne_eq_decide_of_toNat hc),
        setsP_of_exec hg hd rfl (slt_eq_decide_of_toInt hz), setsP_of_exec hg hd rfl (sle_eq_decide_of_toInt hz),
        setsP_of_exec hg hd rfl (ult_eq_decide_of_toNat hc), setsP_of_exec hg hd rfl (ule_eq_decide_of_toNat hc)⟩

/-! ## Bit fields (R77) -/

theorem fieldPos_eq (b : W64) : bits b.toNat 5 0 = b.toNat % 64 := by simp [bits]

theorem fieldLen_eq (b : W64) :
    fieldLen b = if bits b.toNat 5 0 + b.toNat / 256 % 128 > 64 then 64 - bits b.toNat 5 0 else b.toNat / 256 % 128 := rfl

theorem fExt_getLsbD (a b : W64) {i : Nat} (hi : i < 64) :
    (fExt a b).getLsbD i = (decide (i < fieldLen b) && a.getLsbD (bits b.toNat 5 0 + i)) := by
  rw [fExt, BitVec.getLsbD_ofNat, Nat.testBit_mod_two_pow, Nat.testBit_div_two_pow, BitVec.testBit_toNat, decide_eq_true hi,
    Bool.true_and, Nat.add_comm i]

theorem fExts_getLsbD (a b : W64) {i : Nat} (hi : i < 64) :
    (fExts a b).getLsbD i =
      (decide (0 < fieldLen b) && a.getLsbD (bits b.toNat 5 0 + if i < fieldLen b then i else fieldLen b - 1)) := by
  have h : fExts a b = (BitVec.ofNat (fieldLen b) (a.toNat / 2 ^ bits b.toNat 5 0)).signExtend 64 := by
    rw [fExts, sext_eq_toInt, BitVec.signExtend]
  rw [h, BitVec.getLsbD_signExtend, BitVec.msb_eq_getLsbD_last, BitVec.getLsbD_ofNat, BitVec.getLsbD_ofNat, Nat.testBit_div_two_pow,
    Nat.testBit_div_two_pow, BitVec.testBit_toNat, BitVec.testBit_toNat, Nat.add_comm i, Nat.add_comm (fieldLen b - 1)]
  rcases Nat.eq_zero_or_pos (fieldLen b) with h0 | h0
  · simp [h0]
  · have htop : fieldLen b - 1 < fieldLen b := by omega
    by_cases hlt : i < fieldLen b
    · simp [hi, h0, hlt]
    · simp [hi, h0, hlt, htop]

theorem fIns_getLsbD (d a b : W64) {i : Nat} (hi : i < 64) :
    (fIns d a b).getLsbD i =
      if bits b.toNat 5 0 ≤ i ∧ i < bits b.toNat 5 0 + fieldLen b then a.getLsbD (i - bits b.toNat 5 0) else d.getLsbD i := by
  simp only [fIns, BitVec.getLsbD_or, BitVec.getLsbD_and, BitVec.getLsbD_not, BitVec.getLsbD_ofNat, hi, Nat.testBit_mul_two_pow,
    Nat.testBit_two_pow_sub_one, Nat.testBit_mod_two_pow, BitVec.testBit_toNat, decide_true, Bool.true_and]
  by_cases hle : bits b.toNat 5 0 ≤ i
  · by_cases hlt : i < bits b.toNat 5 0 + fieldLen b
    · have hf : i - bits b.toNat 5 0 < fieldLen b := by omega
      simp [hle, hlt, hf]
    · have hf : ¬ i - bits b.toNat 5 0 < fieldLen b := by omega
      simp [hle, hlt, hf]
  · simp [hle]

/-! ## Bit counting (R83) -/

/-- The search of CLZ and CTZ stops at the first bit that is set, or at the end. -/
theorem find?_range_getD_spec (f : Nat → Bool) (k : Nat) :
    let n := ((List.range k).find? f).getD k
    n ≤ k ∧ (∀ i, i < n → f i = false) ∧ (n < k → f n = true) := by
  intro n
  rcases h : (List.range k).find? f with _ | j
  · have hn : n = k := by simp only [n, h, Option.getD_none]
    rw [hn]
    exact ⟨Nat.le_refl k, fun i hi => by simpa using List.find?_range_eq_none.1 h i hi, fun hlt => absurd hlt (Nat.lt_irrefl k)⟩
  · have hn : n = j := by simp only [n, h, Option.getD_some]
    obtain ⟨hj, hmem, hlt⟩ := List.find?_range_eq_some.1 h
    rw [hn]
    exact ⟨Nat.le_of_lt (List.mem_range.1 hmem), fun i hi => by simpa using hlt i hi, fun _ => hj⟩

theorem fClz_spec (a : W64) : ∃ n, n ≤ 64 ∧ fClz a = BitVec.ofNat 64 n ∧ (∀ i, 64 - n ≤ i → a.getLsbD i = false) ∧
    (n < 64 → a.getLsbD (63 - n) = true) := by
  obtain ⟨hle, h0, h1⟩ := find?_range_getD_spec (fun i => a.getLsbD (63 - i)) 64
  refine ⟨_, hle, rfl, fun i hi => ?_, h1⟩
  rcases Nat.lt_or_ge i 64 with hlt | hge
  · have hi' : 63 - (63 - i) = i := by omega
    simpa only [hi'] using h0 (63 - i) (by omega)
  · exact BitVec.getLsbD_of_ge a i hge

theorem fCtz_spec (a : W64) : ∃ n, n ≤ 64 ∧ fCtz a = BitVec.ofNat 64 n ∧ (∀ i, i < n → a.getLsbD i = false) ∧
    (n < 64 → a.getLsbD n = true) := by
  obtain ⟨hle, h0, h1⟩ := find?_range_getD_spec (fun i => a.getLsbD i) 64
  exact ⟨_, hle, rfl, h0, h1⟩

theorem foldl_b2n_eq_length_filter (f : Nat → Bool) (l : List Nat) (m : Nat) :
    l.foldl (fun n i => n + b2n (f i)) m = m + (l.filter f).length := by
  induction l generalizing m with
  | nil => rfl
  | cons i l ih =>
    rw [List.foldl_cons, ih]
    cases h : f i <;> simp [h, b2n, Nat.add_right_comm, Nat.add_assoc]

theorem fPopc_eq (a : W64) : fPopc a = BitVec.ofNat 64 (((List.range 64).filter fun i => a.getLsbD i).length) := by
  rw [fPopc, foldl_b2n_eq_length_filter, Nat.zero_add]

/-- Bits read into a number from the top down. -/
theorem testBit_foldl_range (f : Nat → Bool) (k i : Nat) :
    ((List.range k).foldl (fun n i => n * 2 + b2n (f i)) 0).testBit i = (decide (i < k) && f (k - 1 - i)) := by
  induction k generalizing i with
  | zero => simp
  | succ k ih =>
    rw [List.range_succ, List.foldl_append, List.foldl_cons, List.foldl_nil]
    cases i with
    | zero => cases h : f k <;> simp [b2n, h]
    | succ i =>
      have hb : b2n (f k) < 2 := by cases f k <;> decide
      have hd (n : Nat) : (n * 2 + b2n (f k)) / 2 = n := by omega
      rw [Nat.testBit_succ, hd, ih, Nat.add_sub_cancel, Nat.sub_sub, Nat.add_comm 1 i]
      simp only [Nat.add_lt_add_iff_right]

theorem fBrev_getLsbD (a : W64) {i : Nat} (hi : i < 64) : (fBrev a).getLsbD i = a.getLsbD (63 - i) := by
  rw [fBrev, BitVec.getLsbD_ofNat, testBit_foldl_range, decide_eq_true hi, Bool.true_and, Bool.true_and]

/-! ## Byte order (R83) -/

/-- Bit `j` of byte `i` of a little-endian number. -/
theorem testBit_leNat (l : List Byte) (i : Nat) {j : Nat} (hj : j < 8) : (leNat l).testBit (8 * i + j) = (l.getD i 0).getLsbD j := by
  induction l generalizing i with
  | nil => simp [leNat]
  | cons b r ih =>
    rw [leNat, Nat.add_comm, show 256 = 2 ^ 8 from rfl, Nat.testBit_two_pow_mul_add _ b.isLt]
    cases i with
    | zero => rw [Nat.mul_zero, Nat.zero_add, if_pos hj, BitVec.testBit_toNat, List.getD_cons_zero]
    | succ i => rw [if_neg (by omega), show 8 * (i + 1) + j - 8 = 8 * i + j by omega, ih, List.getD_cons_succ]

theorem natLe_getD (n v : Nat) {i : Nat} (hi : i < n) : (natLe n v).getD i 0 = BitVec.ofNat 8 (v / 2 ^ (8 * i)) := by
  induction n generalizing v i with
  | zero => omega
  | succ n ih =>
    cases i with
    | zero => simp [natLe]
    | succ i =>
      rw [natLe, List.getD_cons_succ, ih _ (by omega), Nat.div_div_eq_div_mul, show 256 = 2 ^ 8 from rfl, ← Nat.pow_add, Nat.mul_succ,
        Nat.add_comm 8]

theorem fBswap_getLsbD (a : W64) {i j : Nat} (hi : i < 8) (hj : j < 8) :
    (fBswap a).getLsbD (8 * i + j) = a.getLsbD (8 * (7 - i) + j) := by
  have h : (natLe 8 a.toNat).reverse.getD i 0 = (natLe 8 a.toNat).getD (7 - i) 0 := by
    rw [List.getD_eq_getElem?_getD, List.getElem?_reverse (by rw [length_natLe]; exact hi), length_natLe, List.getD_eq_getElem?_getD]
  rw [fBswap, BitVec.getLsbD_ofNat, testBit_leNat _ _ hj, h, natLe_getD _ _ (by omega), BitVec.getLsbD_ofNat,
    Nat.testBit_div_two_pow, BitVec.testBit_toNat, decide_eq_true hj, decide_eq_true (by omega : 8 * i + j < 64), Bool.true_and,
    Bool.true_and, Nat.add_comm j]

/-! ## Products and quotients (R81, R82) -/

section
variable {k : Nat} (a b : BitVec k)

theorem fMulh_eq : fMulh k a b = BitVec.ofInt k (a.toInt * b.toInt / 2 ^ k) := rfl

theorem fMulhn_eq : fMulhn k a b = BitVec.ofInt k (a.toNat * b.toNat / 2 ^ k : Nat) := (BitVec.ofInt_natCast ..).symm

theorem eq_zero_iff_toInt : b = 0 ↔ b.toInt = 0 := by
  rw [← BitVec.toInt_inj]; simp

theorem eq_zero_iff_toNat : b = 0 ↔ b.toNat = 0 := by
  rw [← BitVec.toNat_inj]; simp

theorem allOnes_eq_ofInt : BitVec.allOnes k = BitVec.ofInt k (-1) := by
  rw [BitVec.ofInt_neg]; simp [BitVec.neg_one_eq_allOnes]

theorem fDiv_eq : fDiv k a b = BitVec.ofInt k (if b.toInt = 0 then -1
    else if a.toInt = -(2 ^ (k - 1)) ∧ b.toInt = -1 then a.toInt else Int.tdiv a.toInt b.toInt) := by
  simp only [fDiv, eq_zero_iff_toInt]
  split
  · exact allOnes_eq_ofInt
  · split
    · rename_i h
      obtain ⟨ha, hb⟩ := h
      have hmin : a = BitVec.intMin k := by rw [BitVec.intMin_eq_neg_two_pow, ← ha, BitVec.ofInt_toInt]
      rw [hb, Int.tdiv_neg, Int.tdiv_one, BitVec.ofInt_neg, BitVec.ofInt_toInt, hmin, BitVec.neg_intMin]
    · rfl

theorem fDivn_eq : fDivn k a b = BitVec.ofInt k (if b.toNat = 0 then -1 else (a.toNat / b.toNat : Nat)) := by
  simp only [fDivn, eq_zero_iff_toNat]
  split
  · exact allOnes_eq_ofInt
  · exact (BitVec.ofInt_natCast ..).symm

theorem fRem_eq : fRem k a b = BitVec.ofInt k (if b.toInt = 0 then a.toInt
    else if a.toInt = -(2 ^ (k - 1)) ∧ b.toInt = -1 then 0 else Int.tmod a.toInt b.toInt) := by
  simp only [fRem, eq_zero_iff_toInt]
  split
  · exact BitVec.ofInt_toInt.symm
  · split
    · rename_i h
      obtain ⟨-, hb⟩ := h
      simp [hb]
    · rfl

theorem fRemn_eq : fRemn k a b = BitVec.ofInt k (if b.toNat = 0 then a.toNat else (a.toNat % b.toNat : Nat)) := by
  simp only [fRemn, eq_zero_iff_toNat]
  split
  · simp
  · exact (BitVec.ofInt_natCast ..).symm

theorem madd_eq_ofInt (d : BitVec k) : d + a * b = BitVec.ofInt k (d.toNat + a.toNat * b.toNat : Nat) := by
  simp [BitVec.ofInt_add, BitVec.ofInt_mul]

theorem msub_eq_ofInt (d : BitVec k) : d - a * b = BitVec.ofInt k ((d.toNat : Int) - (a.toNat * b.toNat : Nat)) := by
  simp [Int.sub_eq_add_neg, BitVec.ofInt_add, BitVec.ofInt_neg, BitVec.ofInt_mul, BitVec.sub_eq_add_neg]
end

/-- Settles O2: fields and counts by the bits of the operand, products and quotients by their integers modulo 2^width. -/
theorem fieldMultiplyCountResults : Obligations.FieldMultiplyCountResults := by
  unfold Obligations.FieldMultiplyCountResults
  simp only [opU_eq, opS_eq, ← fieldLen_eq, ← fieldPos_eq]
  refine ⟨fun s x hg hm => ⟨?_, ?_, ?_⟩, fun s x hg hm => ?_, fun s x hg hm => ⟨?_, ?_, ?_, ?_, ?_⟩⟩
  · exact ⟨_, setsG_of_exec hg hm rfl rfl, fun i hi => fExt_getLsbD _ _ hi⟩
  · exact ⟨_, setsG_of_exec hg hm rfl rfl, fun i hi => fExts_getLsbD _ _ hi⟩
  · exact ⟨_, setsG_of_exec hg hm rfl rfl, fun i hi => fIns_getLsbD _ _ _ hi⟩
  · exact ⟨setsG_of_alu hg hm rfl (mul_eq_ofInt ..), setsG_of_alu hg hm rfl (fMulh_eq ..), setsG_of_alu hg hm rfl (fMulhn_eq ..),
      setsG_of_exec hg hm rfl (ite_width_eq_resW (f := fun _ d a b => d + a * b) (madd_eq_ofInt ..)),
      setsG_of_exec hg hm rfl (ite_width_eq_resW (f := fun _ d a b => d - a * b) (msub_eq_ofInt ..)),
      setsG_of_alu hg hm rfl (fDiv_eq ..), setsG_of_alu hg hm rfl (fDivn_eq ..), setsG_of_alu hg hm rfl (fRem_eq ..),
      setsG_of_alu hg hm rfl (fRemn_eq ..)⟩
  · obtain ⟨n, hn, hv, h0, h1⟩ := fClz_spec (rg s x.a)
    exact ⟨n, hn, setsG_of_exec hg hm rfl hv, h0, h1⟩
  · obtain ⟨n, hn, hv, h0, h1⟩ := fCtz_spec (rg s x.a)
    exact ⟨n, hn, setsG_of_exec hg hm rfl hv, h0, h1⟩
  · exact setsG_of_exec hg hm rfl (fPopc_eq _)
  · exact ⟨_, setsG_of_exec hg hm rfl rfl, fun i hi => fBrev_getLsbD _ hi⟩
  · exact ⟨_, setsG_of_exec hg hm rfl rfl, fun i j hi hj => fBswap_getLsbD _ hi hj⟩

end Sys2Proof.Machine

namespace Sys2Proof.Machine

/-! ## Taking a trap (R226) -/

/-- Discarding a held thing changes the messaging and the group state only. -/
theorem dropHeld_frame (t : Tile) (h : Held) : dropHeld t h = { t with net := (dropHeld t h).net, comm := (dropHeld t h).comm } := by
  cases h <;> rfl

theorem foldl_dropHeld_frame (l : List Held) (t : Tile) :
    l.foldl dropHeld t = { t with net := (l.foldl dropHeld t).net, comm := (l.foldl dropHeld t).comm } := by
  induction l generalizing t with
  | nil => rfl
  | cons h l ih =>
    rw [List.foldl_cons, ih, dropHeld_frame]

theorem discardHeld_frame (t : Tile) : discardHeld t = { t with net := (discardHeld t).net, comm := (discardHeld t).comm } := by
  rw [discardHeld, foldl_dropHeld_frame]

@[simp] theorem discardHeld_heldq (t : Tile) : (discardHeld t).net.heldq = [] := rfl

/-- A trace record changes the trace buffers only. -/
theorem addTrace_frame (p : Nat) (r : List Nat) (s : State) :
    ∃ b l, addTrace p r s = { s with fab := { s.fab with trace := b, traceLost := l } } := ⟨_, _, rfl⟩

theorem traceEnd_frame (p how cause : Nat) (s : State) :
    ∃ b l, traceEnd p how cause s = { s with fab := { s.fab with trace := b, traceLost := l } } := addTrace_frame p _ s

theorem stopTrace_frame (p : Nat) (s : State) :
    ∃ b l, stopTrace p s = { s with fab := { s.fab with trace := b, traceLost := l } } := by
  unfold stopTrace
  dsimp only
  split
  · exact addTrace_frame p _ s
  · exact ⟨_, _, rfl⟩

theorem wakeDispatch_frame (p : Nat) (s : State) : ∃ c, wakeDispatch p s = { s with choices := c } := by
  unfold wakeDispatch
  split
  · exact ⟨_, rfl⟩
  · exact ⟨_, rfl⟩

/-- Tile `p`, which was `x` in `s`, has come to its task boundary (R33, R34): it has its next life-cycle state, keeps its registers, memory,
records and messages, and of the rest of the device only trace buffers, agenda and choices may have changed. -/
structure AtBoundary (p : Nat) (x : Tile) (s t : State) : Prop where
  life : (t.tile p).life = if x.dbg.stepping then .stopped else boundaryLife x
  sys : (t.tile p).sys = x.sys
  recs : (t.tile p).task.recs = x.task.recs
  net : (t.tile p).net = x.net
  regs : (t.tile p).regs = x.regs
  mem : (t.tile p).sram = x.sram ∧ (t.tile p).full = x.full ∧ (t.tile p).poison = x.poison
  others : ∀ q, q ≠ p → t.tile q = s.tile q
  ctx : ∀ c, t.ctx c = s.ctx c
  device : t.fab.hbm = s.fab.hbm ∧ t.fab.host = s.fab.host ∧ t.fab.net = s.fab.net ∧ t.now = s.now ∧ t.clk = s.clk

/-- What follows a tile's change at the boundary touches no tile. -/
theorem AtBoundary.of_setTile {p : Nat} {x y : Tile} {s t : State} {f : Fabric} {ag : List Agent} {ch : List Nat}
    (ht : t = { s.setTile p y with fab := f, agenda := ag, choices := ch })
    (hf : f.hbm = s.fab.hbm ∧ f.host = s.fab.host ∧ f.net = s.fab.net)
    (hlife : y.life = if x.dbg.stepping then .stopped else boundaryLife x)
    (hy : y = { x with life := y.life, yk := y.yk, pend := y.pend, dbg := y.dbg, task := { x.task with run := y.task.run }, mx := y.mx,
                       bun := y.bun, wait := y.wait, woken := y.woken, issuePre := y.issuePre, async := y.async }) :
    AtBoundary p x s t := by
  have hp : t.tile p = y := by rw [ht]; exact State.tile_setTile_self s p y
  obtain ⟨hhbm, hhost, hnet⟩ := hf
  constructor
  case life => rw [hp, hlife]
  case sys => rw [hp, hy]
  case recs => rw [hp, hy]
  case net => rw [hp, hy]
  case regs => rw [hp, hy]
  case mem => rw [hp, hy]; exact ⟨rfl, rfl, rfl⟩
  case others => intro q hq; rw [ht]; exact State.tile_setTile_ne s y hq
  case ctx => intro c; rw [ht]; rfl
  case device => rw [ht]; exact ⟨hhbm, hhost, hnet, rfl, rfl⟩

theorem boundaryThen_atBoundary (choose : Bool) (p : Nat) (s : State) : AtBoundary p (s.tile p) s (boundaryThen choose p s) := by
  obtain ⟨b, l, hs⟩ := stopTrace_frame p s
  unfold boundaryThen
  rw [hs]
  dsimp only
  split
  · exact .of_setTile rfl ⟨rfl, rfl, rfl⟩ rfl rfl
  · exact .of_setTile rfl ⟨rfl, rfl, rfl⟩ rfl rfl
  · split
    · obtain ⟨c, hc⟩ := wakeDispatch_frame p _
      exact .of_setTile hc ⟨rfl, rfl, rfl⟩ rfl rfl
    · exact .of_setTile rfl ⟨rfl, rfl, rfl⟩ rfl rfl

/-- A tile in no yoke has none to dissolve. -/
theorem dissolveYoke_single (gather : Bool) (p : Nat) (s : State) (h : (s.tile p).yk.st = .single) :
    dissolveYoke gather p s = s.onTile p fun t => { t with yk := { pred := t.yk.pred } } := by
  simp [dissolveYoke, endYoke, h]

/-- Of two writes of an entry the second stands. -/
theorem FMap.put_put {α : Type} (m : FMap α) (k : Nat) (v w : α) : FMap.put (FMap.put m k v) k w = FMap.put m k w := by
  induction m with
  | nil => simp [FMap.put]
  | cons e r ih =>
    obtain ⟨k', v'⟩ := e
    by_cases hlt : k < k'
    · simp [FMap.put, hlt]
    · by_cases heq : k' = k
      · simp [FMap.put, heq]
      · simp [FMap.put, hlt, heq, ih]

theorem State.setTile_onTile (s : State) (p : Nat) (f : Tile → Tile) (t : Tile) : (s.onTile p f).setTile p t = s.setTile p t := by
  simp [State.onTile, State.setTile, FMap.put_put]

theorem State.onTile_onTile (s : State) (p : Nat) (f g : Tile → Tile) : (s.onTile p f).onTile p g = s.onTile p fun t => g (f t) := by
  rw [State.onTile, State.setTile_onTile, State.tile_onTile_self, State.onTile]

/-- After the fault record is sent: the activation is traced, the tile's yoke is gone, and the tile comes to its boundary. -/
theorem trapEnd_atBoundary (choose gather : Bool) (p cause : Nat) (s : State) (h : (s.tile p).yk.st = .single) :
    AtBoundary p (s.tile p) s (boundaryThen choose p (dissolveYoke gather p (traceEnd p 2 cause s))) := by
  obtain ⟨b, l, ht⟩ := traceEnd_frame p 2 cause s
  have hd := dissolveYoke_single gather p (traceEnd p 2 cause s) (by rw [ht]; exact h)
  have hb := boundaryThen_atBoundary choose p (dissolveYoke gather p (traceEnd p 2 cause s))
  rw [hd, State.tile_onTile_self, ht] at hb
  rw [hd, ht]
  exact { hb with others := fun q hq => (hb.others q hq).trans (State.tile_onTile_ne _ _ hq) }

/-- The tile when its fault record is sent: FAULTC and FAULTA written, the held work discarded, the record held. -/
def trapTile (ti : TrapInfo) (skid baddr : Nat) (blk asy : Bool) (t : Tile) : Tile :=
  holdRec (discardHeld { t with sys := { t.sys with
    faultc := faultcWord ti.sub skid t.task.run.slot blk (asy || ti.cause == cYoke || ti.cause == cEccLocal) ti.cause
    faulta := faultaWord ti.daddr baddr } }) ti

/-- What stays of a tile until its fault record is sent. The words of FAULTC and FAULTA are named, so that no proof compares them with what
the registers held before. -/
theorem trapTile_frame (ti : TrapInfo) (skid baddr : Nat) (blk asy : Bool) (t : Tile) :
    ∃ (fc fa : W64) (net : Net) (comm : Comm) (r : Rec),
      fc = faultcWord ti.sub skid t.task.run.slot blk (asy || ti.cause == cYoke || ti.cause == cEccLocal) ti.cause ∧
      fa = faultaWord ti.daddr baddr ∧ net.heldq = [] ∧ r.hold = true ∧ r.run = false ∧
      trapTile ti skid baddr blk asy t =
        { t with
          net := net, comm := comm, sys := { t.sys with faultc := fc, faulta := fa }
          task := { t.task with recs := FMap.put t.task.recs t.task.run.idx r } } := by
  rw [trapTile, discardHeld_frame]
  exact ⟨_, _, _, _, _, rfl, rfl, discardHeld_heldq _, rfl, rfl, rfl⟩

/-- Outside a yoke, a trap changes the tile, sends its record, and comes to the boundary. -/
theorem takeTrapAt_single (p : Nat) (ti : TrapInfo) (skid baddr : Nat) (blk asy : Bool) (s : State) (h : (s.tile p).yk.st = .single) :
    ∃ u, u.tile p = trapTile ti skid baddr blk asy (s.tile p) ∧ (∀ q, q ≠ p → u.tile q = s.tile q) ∧ u = { s with tiles := u.tiles } ∧
      takeTrapAt p ti skid baddr blk asy s = boundaryThen (!(asy || ti.cause == cYoke || ti.cause == cEccLocal)) p
        (dissolveYoke (ti.cause == cBkpt || ti.cause == cWatch || ti.cause == cStep) p
          (traceEnd p 2 ti.cause (toPager p (faultRecord u p false) u))) := by
  refine ⟨s.onTile p (trapTile ti skid baddr blk asy), State.tile_onTile_self .., fun q hq => State.tile_onTile_ne s _ hq, rfl, ?_⟩
  simp only [takeTrapAt, h, State.onTile_onTile]
  rfl

@[simp] theorem toPager_tile (p q : Nat) (r : List Nat) (s : State) : (toPager p r s).tile q = s.tile q := rfl

theorem toPager_inbox (p : Nat) (r : List Nat) (s : State) :
    ((toPager p r s).ctx (s.tile p).sys.cid).inbox = (s.ctx (s.tile p).sys.cid).inbox ++ [(s.placeOf p, r)] := by
  rw [toPager, State.ctx_onCtx_self]

/-- Taking a trap on a tile in no yoke (R226, R227). -/
theorem takeTrapAt_taken (s : State) (p : Nat) (ti : TrapInfo) (skid baddr : Nat) (blk asy : Bool) (h : (s.tile p).yk.st = .single) :
    TrapTaken p ti skid baddr blk asy s (takeTrapAt p ti skid baddr blk asy s) := by
  obtain ⟨u, hu, hothers, hrest, ht⟩ := takeTrapAt_single p ti skid baddr blk asy s h
  obtain ⟨fc, fa, net, comm, r, hfc, hfa, hheld, hhold, hrun, hx⟩ := trapTile_frame ti skid baddr blk asy (s.tile p)
  rw [hx] at hu
  have hend := trapEnd_atBoundary (!(asy || ti.cause == cYoke || ti.cause == cEccLocal))
    (ti.cause == cBkpt || ti.cause == cWatch || ti.cause == cStep) p ti.cause (toPager p (faultRecord u p false) u)
    (by rw [toPager_tile, hu]; exact h)
  rw [← ht, toPager_tile, hu] at hend
  constructor
  case faultc => rw [hend.sys]; exact hfc
  case faulta => rw [hend.sys]; exact hfa
  case sys => rw [hend.sys]
  case held => rw [hend.recs, FMap.get_put_self, hhold]
  case idle => rw [hend.recs, FMap.get_put_self, hrun]
  case sends => rw [hend.net, hheld]
  case life => exact hend.life
  case regs => exact hend.regs
  case mem => exact hend.mem
  case pager =>
    have hcid : (s.tile p).sys.cid = (u.tile p).sys.cid := by rw [hu]
    have hctx : u.ctx (u.tile p).sys.cid = s.ctx (s.tile p).sys.cid := by rw [← hcid, hrest]; rfl
    have hplace : u.placeOf p = s.placeOf p := by rw [State.placeOf, hu, hrest]; rfl
    have htime : u.gtime = s.gtime := by rw [hrest]; rfl
    rw [hend.ctx, hcid, toPager_inbox, hctx, ← hcid, faultRecord, hplace, htime, hu, hend.sys]
    simp [b2n]
  case others => exact fun q hq => (hend.others q hq).trans (hothers q hq)
  case device =>
    have hdev := hend.device
    rw [hrest] at hdev
    exact hdev

theorem raise_alone {ti : TrapInfo} {s : State} (h : Alone s) (hc : ti.cause ≠ cEccLocal) :
    raise ti s = takeTrapAt s.cur { ti with sub := ti.sub + s.t.bun.pos } 0 s.t.bun.addr false false s := by
  obtain ⟨hcoll, hblk, -⟩ := h
  simp [raise, hcoll, hblk, hc]

theorem traps_of_exec {i : Instr} {s : State} {g : Nat} {n : Bool} {ti : TrapInfo} (hg : GuardOn g n s) (h : Alone s)
    (hc : ti.cause ≠ cEccLocal) (he : exec i s = .next (guarded g n (raise ti) s)) : Traps i s ti := by
  rw [guarded_on _ hg, raise_alone h hc] at he
  obtain ⟨-, -, hyk⟩ := h
  exact ⟨_, he, takeTrapAt_taken s s.cur _ 0 s.t.bun.addr false false hyk⟩

theorem exec_of_guard_off {i : Instr} {s : State} {g : Nat} {n : Bool} {f : State → State} (hg : ¬GuardOn g n s)
    (he : exec i s = .next (guarded g n f s)) : exec i s = .next s := by
  rw [he, guarded_off f (by simpa using hg)]

/-- Settles O17: the trap path is followed step by step, from the tile with its fault words to the tile at its boundary. -/
theorem takingATrap : Obligations.TakingATrap := by
  unfold Obligations.TakingATrap
  refine ⟨takeTrapAt_taken, fun s x => ⟨fun hg ha => ⟨?_, ?_⟩, fun hg => ⟨?_, ?_⟩⟩⟩
  · exact traps_of_exec hg ha (by decide : cTrapi ≠ cEccLocal) rfl
  · exact traps_of_exec hg ha (by decide : cBkpt ≠ cEccLocal) rfl
  · exact exec_of_guard_off hg rfl
  · exact exec_of_guard_off hg rfl

end Sys2Proof.Machine
